-- ==== Sys2Proof/Word.lean ====
section
/-!
DEFINITION. Word.lean: the word and byte types of the block and their plainest arithmetic.
R6: numbers are little-endian in packets and frames; bit 0 is the least significant bit.
A state object consists of 32-bit words (chapter 0, Notation).
-/
namespace Sys2Proof

/-- A 32-bit word of a state object. -/
abbrev Word := BitVec 32

/-- One byte of a packet, a frame or a page. -/
abbrev Byte := BitVec 8

end Sys2Proof
end

