-- ==== Sys2Proof/Syntax.lean ====
section
/-!
DEFINITION. Syntax.lean: the commands of the block, one constructor per row of spec/opcode_table.json, in the table's
order. Every command carries `t`, the fabric-time instant (fine ticks of 100 ps) at which it happens; an instant that
has already passed counts as the present one. An opcode row carries the port it arrives on and the packet header of
R96 besides its parameters; a frame row carries the lane and the frame as received; an event row carries what the
outside world contributes to it (a pin level, a measured value, the outcome of an external device).
-/
namespace Sys2Proof

/-- Where a datagram comes from (R93): IPv4 address, UDP port, source MAC address, the IEEE 802.1Q tag of its frame. -/
structure NetAddr where
  ip : BitVec 32
  port : BitVec 16
  mac : BitVec 48
  tag : Option (BitVec 16)
deriving DecidableEq, Repr

/-- Where a command packet comes from (chapter 4): the host port, a network address, the parent over U. -/
inductive Src where
  | host
  | net (a : NetAddr)
  | parent
deriving DecidableEq, Repr

/-- The Ethernet and IPv4 header of a frame that the network port receives (R93, R119). -/
structure NetHead where
  dstMac : BitVec 48
  srcMac : BitVec 48
  tag : Option (BitVec 16)
  dstIp : BitVec 32
  srcIp : BitVec 32
deriving DecidableEq, Repr

/-- An end of a frame on the network port (R93, R119): its MAC and its IPv4 address. -/
structure NetEnd where
  mac : BitVec 48
  ip : BitVec 32
deriving DecidableEq, Repr

/-- The header of a frame from one end to another under a tag. -/
def netHead (dst src : NetEnd) (tag : Option (BitVec 16)) : NetHead :=
  { dstMac := dst.mac, srcMac := src.mac, tag := tag, dstIp := dst.ip, srcIp := src.ip }

/-- The header fields a sender chooses (R96): FLAGS, TAG, AUTH, SESSION and TIME; opcode, length and CRC follow. -/
structure Hdr where
  flags : Byte
  tag : BitVec 16
  auth : Byte
  session : Byte
  time : Word
deriving DecidableEq, Repr

/-- The frame around a received payload (R168, R169): its sequence number, FLAGS, ADDR and deadline. -/
structure RxFrame where
  seq : Byte
  flags : Byte
  addr : BitVec 16
  deadline : Word
  payload : List Byte
deriving DecidableEq, Repr

/-- Why a received frame is discarded (R171, R173, R176). -/
inductive Discard where
  | badHeader
  | cutShort
  | badCrc
  | outOfSequence (seq : Byte)
  | stray
  | notListed (seq : Byte)
deriving DecidableEq, Repr

/-- What became of a received block that is no good (R146, R148), or so many bit errors against PRBS31 (R161). -/
inductive BadBlock where
  | syncHeader
  | unknownType
  | badCheck
  | prbsErrors (bits : Nat)
deriving DecidableEq, Repr

/-- The seven rails (R44), by their rail code. -/
inductive Rail where
  | vddCore | vddaLane | vddhLane | vddqMem | vddIo18 | vddIo33 | vddaPll
deriving DecidableEq, Repr

/-- Why the device resets (R43). -/
inductive ResetCause where
  | powerOn
  | pornPin
  | railMonitor (rail : Rail)
deriving DecidableEq, Repr

/-- The three parts (R64). -/
inductive Variant where
  | aqv9648 | aqv9632 | aqv9616
deriving DecidableEq, Repr

/-- What the fuse read finds (R46 to R48), corrected: the variant of word 4, the unique ID, the key hash and the signed-boot option of a
part whose hash is locked, whether a repair applies, the spare rows and columns used of each bank. -/
structure FuseRead where
  variant : Variant
  uid : BitVec 128
  key : Option (BitVec 256 × Bool)
  repairUsed : Bool
  spares : List (Nat × Nat)
deriving DecidableEq, Repr

/-- A cause that has no row of its own and is raised for the classifier (R411, R449, R296, R102). A firmware fault strikes the packet
executed next where `packet` says so. -/
inductive ExtraRaise where
  | engineFailed (engine : Fin 8)
  | firmware (code : Word) (packet : Bool)
  | classParity (word : Fin 32)
  | historyCorrectable (entry : Fin 32)
  | historyUncorrectable (entry : Fin 32)
  | sramCorrected (bank : Fin 96)
  | sramUncorrectable (bank : Fin 96)
deriving DecidableEq, Repr

/-- How a scrub read or a page read turns out (R454, R457, R458): clean, a number of corrected bits, or not correctable. -/
inductive EccOutcome where
  | clean
  | corrected (bits : Nat)
  | uncorrectable
deriving DecidableEq, Repr

/-- The instruments of the AC test (R162). -/
inductive AcTest where
  | extestPulse
  | extestTrain
deriving DecidableEq, Repr

/-- The kinds of PTP message an ordinary clock handles (R208). -/
inductive PtpKind where
  | announce | sync | followUp | delayReq | delayResp | pdelayReq | pdelayResp | pdelayRespFollowUp
deriving DecidableEq, Repr

/-- A PTP message as received (R208): the fields the ordinary clock uses, and the instant of its timestamp point. -/
structure PtpMsg where
  kind : PtpKind
  domain : Nat
  seq : Nat
  source : Nat
  twoStep : Bool
  seconds : Nat
  nanos : Nat
  correction : Int
  prio1 : Nat
  clockClass : Nat
  accuracy : Nat
  variance : Nat
  prio2 : Nat
  grandmaster : Nat
  stepsRemoved : Nat
  requester : Nat
  rxAt : Nat
deriving DecidableEq, Repr

/-- A rail crosses its warning threshold (R43): whether it is now below. -/
structure RailCross where
  rail : Rail
  below : Bool
deriving DecidableEq, Repr

/-- What a lock shows (R72, R73, R200): the band that the search found, and the reference cycles that passed while the PLL was
unlocked. -/
structure LockFound where
  band : Fin 32
  refCycles : Nat
deriving DecidableEq, Repr

/-- The local reference at an instant (R70): whether it shows no edge, or edges again. -/
structure LocalRef where
  t : Nat
  lost : Bool
deriving DecidableEq, Repr

/-- The commands of the block: the rows of spec/opcode_table.json. An operand of type Unit carries nothing: what its row does follows
from what the block holds. -/
inductive Instr where
  -- start-up and clocks (chapters 2 and 3)
  | sparkStart (t : Nat) (refSel : Bool)
  | deviceReset (t : Nat) (cause : ResetCause)
  | supplyOutOfRange (t : Nat) (rail : RailCross)
  | fuseReadDone (t : Nat) (outcome : Option (FuseRead × Bool))
  | sparkPllTimeout (t : Nat)
  | pllLocked (t : Nat) (found : LockFound)
  | bandTableLockTimeout (t : Nat)
  | rampEnd (t : Nat)
  | sramInitDone (t : Nat)
  | kindleHeaderRead (t : Nat) (slotB : Bool) (block : List Byte)
  | kindleBlockRead (t : Nat) (block : List Byte)
  | signatureVerified (t : Nat) (key signature : Unit)
  | dramTrainingDone (t : Nat) (passed : Bool) (ranks : Fin 4) (mib : Nat)
  | light (t : Nat) (image : Unit)
  | refRecoveredClockMissing (t : Nat)
  | refFrequencyWindow (t : Nat) (ppmOff : Int)
  | refRestore (t : Nat)
  | localRefLost (ref : LocalRef)
  | pllLockLost (t : Nat)
  | lockNotRegained (t : Nat)
  | clockMonitorCheck (t : Nat) (bad : BitVec 12)
  | dieTemperatureUpdate (t : Nat) (t0 t1 t2 t3 : BitVec 16)
  -- the control cycle and the modes (chapters 1, 9, 10, 16)
  | controlCycleBoundary (t : Nat)
  | edgeExpansion (t : Nat)
  | stepWaitExpiry (t : Nat)
  | prechargeTimeout (t : Nat)
  | rideThroughExceeded (t : Nat)
  | rideThroughRecovered (t : Nat)
  | cellSamplesLost (t : Nat) (slot : Fin 96)
  | bypassUnconfirmed (t : Nat) (slot : Fin 96)
  | reinsertRampEnd (t : Nat) (slot : Fin 96)
  | fastPathTrigger (t : Nat) (slot : Fin 256)
  | faultClassify (t : Nat) (extra : List ExtraRaise)
  -- the ports (chapter 4)
  | writePacket (t : Nat) (bytes : List Byte)
  | readReply (t : Nat) (complete : Bool)
  | readStatus (t : Nat)
  | badInstruction (t : Nat) (code : Byte)
  | commandDatagram (t : Nat) (dst src : NetEnd) (dstPort srcPort : BitVec 16) (fragment : Bool) (tag : Option (BitVec 16)) (bytes : List Byte)
  -- the opcodes (R114)
  | ping (t : Nat) (src : Src) (h : Hdr)
  | getCaps (t : Nat) (src : Src) (h : Hdr)
  | getIdentity (t : Nat) (src : Src) (h : Hdr)
  | openSession (t : Nat) (src : Src) (h : Hdr) (authority : Byte)
  | closeSession (t : Nat) (src : Src) (h : Hdr)
  | listSessions (t : Nat) (src : Src) (h : Hdr)
  | stageWords (t : Nat) (src : Src) (h : Hdr) (so first : BitVec 16) (values : List Word)
  | stageFields (t : Nat) (src : Src) (h : Hdr) (entries : List (BitVec 16 × BitVec 16 × Word × Word))
  | stageModeReq (t : Nat) (src : Src) (h : Hdr) (mode : Byte)
  | unstage (t : Nat) (src : Src) (h : Hdr) (so first count : BitVec 16)
  | check (t : Nat) (src : Src) (h : Hdr)
  | commitNow (t : Nat) (src : Src) (h : Hdr)
  | commitAt (t : Nat) (src : Src) (h : Hdr) (kind : Byte) (instant : BitVec 80)
  | disarm (t : Nat) (src : Src) (h : Hdr)
  | discard (t : Nat) (src : Src) (h : Hdr)
  | readWords (t : Nat) (src : Src) (h : Hdr) (so first count : BitVec 16)
  | readStaged (t : Nat) (src : Src) (h : Hdr) (so first count : BitVec 16)
  | readBasketIndex (t : Nat) (src : Src) (h : Hdr) (first : BitVec 16)
  | readDirectory (t : Nat) (src : Src) (h : Hdr) (first : BitVec 16)
  | writeLive (t : Nat) (src : Src) (h : Hdr) (so first : BitVec 16) (values : List Word)
  | reqMode (t : Nat) (src : Src) (h : Hdr) (mode : Byte)
  | getMode (t : Nat) (src : Src) (h : Hdr)
  | stepRun (t : Nat) (src : Src) (h : Hdr) (first : Byte)
  | stepContinue (t : Nat) (src : Src) (h : Hdr)
  | stepAbort (t : Nat) (src : Src) (h : Hdr)
  | tuneWord (t : Nat) (src : Src) (h : Hdr) (slot word : BitVec 16) (value : Word)
  | tuneWords (t : Nat) (src : Src) (h : Hdr) (entries : List (BitVec 16 × BitVec 16 × Word))
  | tuneRead (t : Nat) (src : Src) (h : Hdr) (slot : BitVec 16)
  | calRead (t : Nat) (src : Src) (h : Hdr) (offset length : BitVec 16)
  | calWrite (t : Nat) (src : Src) (h : Hdr) (page : BitVec 16) (bytes : List Byte)
  | calWriteDone (t : Nat) (verified : Bool)
  | calWear (t : Nat) (src : Src) (h : Hdr)
  | getTime (t : Nat) (src : Src) (h : Hdr)
  | setTpo (t : Nat) (src : Src) (h : Hdr) (index mode : Byte) (start period : BitVec 64)
  | readTci (t : Nat) (src : Src) (h : Hdr) (index : Byte)
  | ptpStatus (t : Nat) (src : Src) (h : Hdr)
  | readFaults (t : Nat) (src : Src) (h : Hdr)
  | readHistory (t : Nat) (src : Src) (h : Hdr) (first count : Byte)
  | ackFault (t : Nat) (src : Src) (h : Hdr) (mask : Word)
  | clearFault (t : Nat) (src : Src) (h : Hdr) (mask : Word)
  | readEventRoute (t : Nat) (src : Src) (h : Hdr) (first count : Byte)
  | eventSubscribe (t : Nat) (src : Src) (h : Hdr) (mask : BitVec 256)
  | twinStatus (t : Nat) (src : Src) (h : Hdr)
  | twinSelftest (t : Nat) (src : Src) (h : Hdr)
  | pilotReport (t : Nat) (src : Src) (h : Hdr)
  | markUnfit (t : Nat) (src : Src) (h : Hdr)
  | laneStatus (t : Nat) (src : Src) (h : Hdr) (first count : Byte)
  | laneLoopback (t : Nat) (src : Src) (h : Hdr) (lane kind : Byte)
  | unitStatus (t : Nat) (src : Src) (h : Hdr) (first count : Byte)
  | unitBypass (t : Nat) (src : Src) (h : Hdr) (slot : Byte)
  | unitReinsert (t : Nat) (src : Src) (h : Hdr) (slot : Byte)
  | manageForward (t : Nat) (src : Src) (h : Hdr) (node : BitVec 16) (slot : Byte) (inner : List Byte)
  | manageForwardTimeout (t : Nat) (msgId : BitVec 16)
  | laneRetrain (t : Nat) (src : Src) (h : Hdr) (lane : Byte)
  | memStatus (t : Nat) (src : Src) (h : Hdr)
  | memRead (t : Nat) (src : Src) (h : Hdr) (address : BitVec 64) (length : BitVec 16)
  | memWrite (t : Nat) (src : Src) (h : Hdr) (address : BitVec 64) (bytes : List Byte)
  | eccTestWrite (t : Nat) (src : Src) (h : Hdr) (address checkBits : BitVec 64) (bytes : List Byte)
  | acqArm (t : Nat) (src : Src) (h : Hdr)
  | acqStop (t : Nat) (src : Src) (h : Hdr)
  | acqStatus (t : Nat) (src : Src) (h : Hdr)
  | acqRead (t : Nat) (src : Src) (h : Hdr) (segment offset : Word) (length : BitVec 16)
  | histRead (t : Nat) (src : Src) (h : Hdr) (unit : Byte) (first count : BitVec 16)
  | afterglowRead (t : Nat) (src : Src) (h : Hdr) (map : Byte) (first rows : BitVec 16)
  | queueStatus (t : Nat) (src : Src) (h : Hdr) (first count : Byte)
  | queueRead (t : Nat) (src : Src) (h : Hdr) (queue : Byte) (maximum : BitVec 16)
  | safeStatus (t : Nat) (src : Src) (h : Hdr)
  | safeTest (t : Nat) (src : Src) (h : Hdr) (switch : Byte)
  | safeAck (t : Nat) (src : Src) (h : Hdr)
  | breakerClose (t : Nat) (src : Src) (h : Hdr)
  | breakerTrip (t : Nat) (src : Src) (h : Hdr)
  | reset (t : Nat) (src : Src) (h : Hdr) (kind : Byte)
  | resetDelayExpiry (t : Nat)
  | imageBegin (t : Nat) (src : Src) (h : Hdr) (length : BitVec 16)
  | imageEraseDone (t : Nat) (ok : Bool)
  | imageWrite (t : Nat) (src : Src) (h : Hdr) (first : BitVec 16) (blocks : List Byte)
  | imageFinish (t : Nat) (src : Src) (h : Hdr) (block0 : List Byte)
  | imageStatus (t : Nat) (src : Src) (h : Hdr)
  | fuseKeyHash (t : Nat) (src : Src) (h : Hdr) (hash : List Byte)
  | fuseSignedBoot (t : Nat) (src : Src) (h : Hdr)
  -- the network port and time (chapters 4 and 8)
  | netSessionTimeout (t : Nat) (session : Fin 16)
  | arpRefresh (t : Nat) (entry : Fin 8)
  | arpFrame (t : Nat) (request : Bool) (src dst : NetEnd) (tag : Option (BitVec 16))
  | icmpEcho (t : Nat) (src dst : NetEnd) (tag : Option (BitVec 16)) (bytes : List Byte)
  | ptpMessage (t : Nat) (m : PtpMsg)
  | ptpMessageInterval (t : Nat) (kind : PtpKind)
  | ptpAnnounceTimeout (t : Nat)
  | timeSyncInterval (t : Nat)
  | timeSourceLost (t : Nat)
  | tpoFiring (t : Nat) (output : Fin 8)
  | tpoPulseEnd (t : Nat) (output : Fin 8)
  | tciEdge (t : Nat) (input : Fin 4) (rising : Bool)
  | setNet (t : Nat) (src : Src) (h : Hdr) (lo hi : Word)
  | acceptNext (t : Nat) (src : Src) (h : Hdr) (value : Word)
  -- lanes and frames (chapters 6 and 7)
  | laneSignalDetect (t : Nat) (lane : Fin 55)
  | laneBlockLock (t : Nat) (lane : Fin 55)
  | laneLockLost (t : Nat) (lane : Fin 55)
  | rehuntTimeout (t : Nat) (lane : Fin 55)
  | train (t : Nat) (lane : Fin 55) (phase caps rate role port count : Byte)
  | laneQuietEnd (t : Nat) (lane : Fin 55)
  | laneVerifyPassed (t : Nat) (lane : Fin 55)
  | laneAttemptTimeout (t : Nat) (lane : Fin 55)
  | laneFailedHoldEnd (t : Nat) (lane : Fin 55)
  | laneIdleTimeout (t : Nat) (lane : Fin 55)
  | wake (t : Nat) (lane : Fin 55)
  | laneWakeTimeout (t : Nat) (lane : Fin 55)
  | laneFrameTransmit (t : Nat) (lane : Fin 55)
  | ack (t : Nat) (lane : Fin 55) (seq : Byte)
  | nak (t : Nat) (lane : Fin 55) (seq : Byte)
  | replayTimeout (t : Nat) (lane : Fin 55)
  | douse (t : Nat) (lane : Fin 55) (index level epoch : Byte) (node : BitVec 16)
  | unitCommand (t : Nat) (lane : Fin 55) (f : RxFrame)
  | sample (t : Nat) (lane : Fin 55) (f : RxFrame)
  | unitState (t : Nat) (lane : Fin 55) (f : RxFrame)
  | wick (t : Nat) (lane : Fin 55) (f : RxFrame)
  | timeSync (t : Nat) (lane : Fin 55) (f : RxFrame)
  | timeResp (t : Nat) (lane : Fin 55) (f : RxFrame)
  | manageReq (t : Nat) (lane : Fin 55) (f : RxFrame)
  | manageResp (t : Nat) (lane : Fin 55) (f : RxFrame)
  | manageReassemblyTimeout (t : Nat) (srcNode msgId : BitVec 16)
  | health (t : Nat) (lane : Fin 55) (f : RxFrame)
  | stateCopy (t : Nat) (lane : Fin 55) (f : RxFrame)
  | digest (t : Nat) (lane : Fin 55) (f : RxFrame)
  | telemetry (t : Nat) (lane : Fin 55) (f : RxFrame)
  | event (t : Nat) (lane : Fin 55) (f : RxFrame)
  -- the twin and the hierarchy (chapters 14 and 15)
  | pilotReplay (t : Nat)
  | selftestDone (t : Nat) (passed : Bool)
  | flameSelftestTimeout (t : Nat)
  | testSlice (t : Nat) (passed : Bool)
  | pilotReportSend (t : Nat)
  | standbyLoopbackTest (t : Nat) (failed : BitVec 55)
  | twinLinkLost (t : Nat)
  | leaseExpiry (t : Nat)
  | mailboxWrite (t : Nat) (src : Src) (h : Hdr) (words : List Word)
  | childReportTimeout (t : Nat) (port : Fin 4)
  | childReturnRampEnd (t : Nat) (port : Fin 4)
  | parentLost (t : Nat)
  | uHoldExpiry (t : Nat)
  -- the local stage (chapter 12)
  | legZeroEvent (t : Nat) (leg : Fin 12)
  | legCompareAction (t : Nat) (leg : Fin 12) (b : Bool)
  | legDeadTimeEnd (t : Nat) (leg : Fin 12)
  | legPrimeEnd (t : Nat) (leg : Fin 12)
  | legBlankEnd (t : Nat) (leg : Fin 12)
  | legCurrentCut (t : Nat) (leg : Fin 12) (active : Bool)
  | legShortCircuit (t : Nat) (leg : Fin 12) (dsat : Bool) (active : Bool)
  | legTrippedClear (t : Nat) (src : Src) (h : Hdr) (leg : Fin 12)
  | legCompareWrite (t : Nat) (src : Src) (h : Hdr) (leg : Fin 12) (cmpA cmpB : BitVec 16)
  | legForce (t : Nat) (src : Src) (h : Hdr) (leg : Fin 12) (en gh gl : Bool)
  | pumpDelayExpiry (t : Nat) (leg : Fin 12)
  | dcovBrakeCrossing (t : Nat) (input : Fin 2) (above : Bool)
  | brkMinOnExpiry (t : Nat)
  | dcLinkOverVoltage (t : Nat) (input : Fin 2) (active : Bool)
  | brakeHeatTick (t : Nat) (on : Unit)
  -- measurement (chapter 13) and Hamper (chapter 11)
  | channelOutput (t : Nat) (chan : Fin 32) (bits : List Bool)
  | channelOverCurrent (t : Nat) (chan : Fin 32) (bits : List Bool)
  | modulatorStreamLost (t : Nat) (chan : Fin 32)
  | modulatorStreamResumed (t : Nat) (chan : Fin 32)
  | tallowCheckpointDue (t : Nat)
  | ckptNow (t : Nat) (src : Src) (h : Hdr) (value : Word)
  | tallowCheckpointDone (t : Nat) (ok : Bool)
  | tallowCheckpointRetry (t : Nat)
  | ledgerRestoreDone (t : Nat) (sector : Option (Fin 16)) (bytes : List Byte)
  | ledgerClr (t : Nat) (src : Src) (h : Hdr) (value : Word)
  -- the safety island (chapter 17)
  | guardChange (t : Nat) (a b : Bool)
  | guardDiscrepancy (t : Nat)
  | guardHoldExpiry (t : Nat)
  | safeRstRelease (t : Nat) (pressTicks : Nat)
  | resetInputStuck (t : Nat)
  | watchdogExpiry (t : Nat)
  | watchdogReset (t : Nat)
  | bkrAuxChange (t : Nat) (closed : Bool)
  | tripRelease (t : Nat) (atMax : Bool)
  | tripRepeat (t : Nat)
  | closePulseEnd (t : Nat)
  | switchFeedbackMismatch (t : Nat) (switch : Fin 4)
  | switchTestStep (t : Nat) (senseOn senseOffInTime : Bool)
  | periodicSwitchTest (t : Nat)
  | lvcClose (t : Nat) (src : Src) (h : Hdr) (value : Word)
  | contactorMismatch (t : Nat) (contactor : Fin 4)
  | evcArm (t : Nat) (src : Src) (h : Hdr) (value : Word)
  | clkEn (t : Nat) (src : Src) (h : Hdr) (output : Fin 12) (value : Word)
  -- memory and queues (chapter 18)
  | sramScrubStep (t : Nat) (bank : Fin 96) (word : Fin 16384) (outcome : EccOutcome) (overwritten passDone : Bool)
  | dramScrubStep (t : Nat) (page : Fin 8388608) (outcome : EccOutcome) (overwritten passDone : Bool)
  | dramScrubWake (t : Nat)
  | dramSelfRefresh (t : Nat)
  | queueHeadRefill (t : Nat) (queue : Fin 64) (outcome : EccOutcome)
  | telemetryDatagramTimeout (t : Nat)
  -- Lantern (chapter 19)
  | acqSample (t : Nat)
  | acqRearmDone (t : Nat)
  | acqSegmentDrained (t : Nat)
  | acqClear (t : Nat) (src : Src) (h : Hdr) (value : Word)
  | acqClearDone (t : Nat)
  -- the rows at the end of the table
  | frameDiscarded (t : Nat) (lane : Fin 55) (why : Discard)
  | invalidBlock (t : Nat) (lane : Fin 55) (why : BadBlock)
  | imageProgramDone (t : Nat) (ok : Bool)
  | lvcFbChange (t : Nat) (contactor : Fin 4) (level : Bool)
  | acTestInstruction (t : Nat) (instruction : AcTest)
  | netLinkChange (t : Nat) (speedMbps : Nat) (fullDuplex : Bool)
deriving DecidableEq, Repr

end Sys2Proof
end

