-- ==== Sys2Proof/Decode.lean ====
section
/-!
DEFINITION. Decode.lean: the command a word spells by the bits of spec/opcode_table.json. The table gives no row any
bits: a command of this block is a transaction, a frame or an event, not a word, so no word spells one.
-/
namespace Sys2Proof

/-- The command that a word of nbits spells by the table's bits: none, since no row gives bits. -/
def decodeTableWord (_nbits _w : Nat) : Option Instr := none

end Sys2Proof
end

