-- ==== Sys2Proof/Config.lean ====
section
/-!
DEFINITION. Config.lean: what the spec leaves open: free values, one opaque constant each, with no body, so that no
proof can see what they are. A claim that holds, holds whatever they are.
-/
namespace Sys2Proof.Config

/-- The duration of a CHECK of n staged words, in fine ticks; R124 gives only a bound (log entry 9). -/
opaque checkTime : Nat → Nat

/-- Byte i of calibration page 0 as measured at final test (R354, log entry 10). -/
opaque factoryTrim : Nat → BitVec 8

/-- The reply data of opcodes whose layout the spec does not give (log entry 11): opcode and byte index, over the
bytes the layout would be made from. -/
opaque replyByte : Nat → List Nat → Nat → BitVec 8

/-- How many reply bytes such an opcode gives. -/
opaque replyLen : Nat → List Nat → Nat

/-- The SECDED check byte of 64 data bits (R449 names the code and not its matrix, log entry 12). -/
opaque secded : BitVec 64 → BitVec 8

/-- How a word with a check byte that is not its own decodes (log entry 12): the data, or none if uncorrectable. -/
opaque secdedDecode : BitVec 64 → BitVec 8 → Option (BitVec 64)

/-- Byte i of the BCH check bits of a page (R454 names the code and not its polynomial, log entry 12). -/
opaque bchByte : List (BitVec 8) → Nat → Nat → Nat → BitVec 8

/-- How a page whose check bits are not its own decodes: corrected data and bit count, or none (log entry 12). -/
opaque bchDecode : List (BitVec 8) → List (BitVec 8) → Nat → Option (List (BitVec 8) × Nat)

/-- The patch level a firmware patch section carries (R52 gives no layout, log entry 13). -/
opaque patchLevel : List (BitVec 8) → BitVec 8

/-- A value the spec leaves open, fresh at every use: the counter of State picks it (log entry 14). -/
opaque freeWord : Nat → Word

/-- What an arm aggregate reads over no cells: R258 states no mean, maximum or minimum of none (log entry 21). -/
opaque emptyAggregate : Nat → Int

/-- Byte i of a queue entry beyond the end of the packet in it (R463 gives the entry 64 bytes and does not fill it; log entry
47): over the bytes the packet has there. -/
opaque entryFill : List (BitVec 8) → Nat → BitVec 8

/-- How many bytes of a segment have drained to DRAM when its next sample is taken: R485 bounds the rate and does not fix it
(log entry 45). -/
opaque drained : Nat → Nat

/-- Where the common grid of the trickle pumps lies in fabric time, fine ticks: R332 offsets the pumps from it and does not place
it (log entry 145). -/
opaque pumpGrid : Nat

/-- How many TRAIN FALLBACK blocks a lane sends before its quiet time: R151 names them and R153 gives no number (log entry 150). -/
opaque fallbackBlocks : Nat

/-- Whether a signature of 64 bytes verifies under pure Ed25519 (RFC 8032) with a public key of 32 bytes over a message (R54, log
entry 153). -/
opaque ed25519 : List (BitVec 8) → List (BitVec 8) → List (BitVec 8) → Bool

/-- The value that a typed section of an image gives a word (section type, section bytes, state object, word), where it gives one: R52
names the content of sections 0x02, 0x04, 0x05, 0x08 to 0x0B and no layout (log entry 83). -/
opaque sectionWord : Nat → List (BitVec 8) → Nat → Nat → Option Word

end Sys2Proof.Config
end

