-- ==== Sys2Proof/Machine/Arith.lean ====
section
/-!
DEFINITION. Machine/Arith.lean: signed numbers in words, the Q formats and the rounding of R261.
-/
namespace Sys2Proof.Machine

/-- A 32-bit pattern as a signed number. -/
def s32 (n : Nat) : Int := (BitVec.ofNat 32 n).toInt

/-- A w-bit pattern as a signed number. -/
def sN (w n : Nat) : Int := (BitVec.ofNat w n).toInt

/-- A signed number as a 32-bit pattern. -/
def u32 (z : Int) : Nat := (BitVec.ofInt 32 z).toNat

/-- A signed number as a 64-bit pattern. -/
def u64 (z : Int) : Nat := (BitVec.ofInt 64 z).toNat

/-- A number kept between two bounds. -/
def clampI (lo hi z : Int) : Int := if z < lo then lo else if hi < z then hi else z

/-- The signed 32-bit range (Q8.24 saturation of R261). -/
def sat32 (z : Int) : Int := clampI (-2147483648) 2147483647 z

/-- The signed 64-bit range (the Q12.52 accumulator of R261). -/
def sat64 (z : Int) : Int := clampI (-9223372036854775808) 9223372036854775807 z

/-- A quotient rounded to nearest, ties away from zero (R261); a divisor of 0 gives 0. -/
def roundDiv (a : Int) (b : Nat) : Int :=
  if b = 0 then 0
  else if 0 ≤ a then (((2 * a.toNat + b) / (2 * b) : Nat) : Int)
  else -(((2 * (-a).toNat + b) / (2 * b) : Nat) : Int)

/-- A quotient of signed numbers rounded to nearest, ties away from zero; a divisor of 0 gives 0. -/
def roundDivI (a b : Int) : Int := if b < 0 then roundDiv (-a) (-b).toNat else roundDiv a b.toNat

/-- A Q12.52 number as Q8.24, rounded but not saturated (R261). -/
def q52to24 (z : Int) : Int := roundDiv z (2 ^ 28)

/-- A product of two Q8.24 numbers in Q8.24, rounded and saturated. -/
def mulQ24 (a b : Int) : Int := sat32 (roundDiv (a * b) (2 ^ 24))

/-- 1.0 in Q8.24. -/
def oneQ24 : Int := 0x01000000

/-- 1.0 in Q4.28. -/
def oneQ28 : Int := 0x10000000

end Sys2Proof.Machine
end

