-- ==== Sys2Proof/Machine/Tbl.lean ====
section
/-!
DEFINITION. Machine/Tbl.lean: sparse tables in one canonical form, and bit fields of words.
A table is a list of (key, value) pairs with strictly rising keys and no entry equal to what an unlisted key reads as;
registers, pages, lanes, cells and every other numbered piece of the block's state are held in such tables.
-/
namespace Sys2Proof.Machine

/-- What the table holds at a key: the listed value, or the default of that key. -/
def tget {α : Type} (dflt : Nat → α) : List (Nat × α) → Nat → α
  | [], k => dflt k
  | (k', v) :: t, k => if k' = k then v else tget dflt t k

/-- Insert or replace the value of a key, keeping the keys rising. -/
def tins {α : Type} : List (Nat × α) → Nat → α → List (Nat × α)
  | [], k, v => [(k, v)]
  | (k', v') :: t, k, v =>
    if k < k' then (k, v) :: (k', v') :: t
    else if k' = k then (k, v) :: t
    else (k', v') :: tins t k v

/-- Remove a key. -/
def tdel {α : Type} : List (Nat × α) → Nat → List (Nat × α)
  | [], _ => []
  | (k', v') :: t, k => if k' = k then tdel t k else (k', v') :: tdel t k

/-- Write a key: a value equal to the key's default removes the entry. -/
def tset {α : Type} [DecidableEq α] (dflt : Nat → α) (t : List (Nat × α)) (k : Nat) (v : α) :
    List (Nat × α) :=
  if v = dflt k then tdel t k else tins t k v

/-- The canonical form: keys strictly rising from `lo` on, no entry equal to its default. -/
def twfFrom {α : Type} [DecidableEq α] (dflt : Nat → α) : Nat → List (Nat × α) → Bool
  | _, [] => true
  | lo, (k, v) :: t => decide (lo ≤ k) && decide (v ≠ dflt k) && twfFrom dflt (k + 1) t

/-- The canonical form of a whole table. -/
def twf {α : Type} [DecidableEq α] (dflt : Nat → α) (t : List (Nat × α)) : Bool := twfFrom dflt 0 t

/-- The keys a table lists, in rising order. -/
def tkeys {α : Type} (t : List (Nat × α)) : List Nat := t.map Prod.fst

/-- The mask of bits hi..lo of a word (R6: [m:n], m the most significant). -/
def maskBits (hi lo : Nat) : Word := (BitVec.allOnes 32 <<< lo) &&& (BitVec.allOnes 32 >>> (31 - hi))

/-- Bits hi..lo of a word, as a number. -/
def getBits (w : Word) (hi lo : Nat) : Nat := (w >>> lo).toNat % 2 ^ (hi - lo + 1)

/-- A word with bits hi..lo replaced by the low bits of a number. -/
def putBits (w : Word) (hi lo v : Nat) : Word :=
  (w &&& ~~~ maskBits hi lo) ||| ((BitVec.ofNat 32 v <<< lo) &&& maskBits hi lo)

end Sys2Proof.Machine
end

