-- ==== Sys2Proof/Machine/Fields.lean ====
section
/-!
DEFINITION. Machine/Fields.lean: every field of every state object, from the field maps of the spec
(R9: most significant bit first; the Reset column is the value at Light). One definition per field: the state object,
the word of its first instance, the bits, the access code of R7, the reset value, how many instances stand at what
stride of words inside the object, and how many consecutive object identifiers repeat it (loop slots, ledgers).
-/
namespace Sys2Proof.Machine

/-- The access codes of R7. -/
inductive Acc where
  | ro | rw | rs | w1c | we
deriving DecidableEq, Repr

/-- A field of a state object (R7, R9). -/
structure Fld where
  so : Nat
  word : Nat
  hi : Nat
  lo : Nat
  acc : Acc
  reset : Nat
  n : Nat
  stride : Nat
  soN : Nat
deriving DecidableEq, Repr

/-- A state object: identifier, word count, block prefix (R141), how many consecutive identifiers repeat it, its fields. -/
structure SoDef where
  so : Nat
  words : Nat
  block : Nat
  soN : Nat
  flds : List Fld
deriving DecidableEq, Repr

namespace F

-- SO 0x0002: 1 words (R30)
/-- SYS.MODE_SEQ (R30). -/
def sysModeSeq : Fld := ⟨0x0002, 0, 31, 24, .ro, 0x0, 1, 1, 1⟩
/-- SYS.MODE_PREV (R30). -/
def sysModePrev : Fld := ⟨0x0002, 0, 23, 20, .ro, 0x0, 1, 1, 1⟩
/-- SYS.MODE_PEND (R30). -/
def sysModePend : Fld := ⟨0x0002, 0, 19, 16, .ro, 0x0, 1, 1, 1⟩
/-- SYS.MODE_CAUSE (R30). -/
def sysModeCause : Fld := ⟨0x0002, 0, 15, 12, .ro, 0x0, 1, 1, 1⟩
/-- SYS.GUARD_PEND (R30). -/
def sysGuardPend : Fld := ⟨0x0002, 0, 4, 4, .ro, 0x0, 1, 1, 1⟩
/-- SYS.MODE (R30). -/
def sysMode : Fld := ⟨0x0002, 0, 3, 0, .ro, 0x1, 1, 1, 1⟩
-- SO 0x0004: 3 words (R63)
/-- SYS.BOOT_REREADS (R63). -/
def sysBootRereads : Fld := ⟨0x0004, 0, 31, 24, .ro, 0x0, 1, 1, 1⟩
/-- SYS.SLOT_A_CAUSE (R63). -/
def sysSlotACause : Fld := ⟨0x0004, 0, 23, 20, .ro, 0x0, 1, 1, 1⟩
/-- SYS.SLOT_B_CAUSE (R63). -/
def sysSlotBCause : Fld := ⟨0x0004, 0, 19, 16, .ro, 0x0, 1, 1, 1⟩
/-- SYS.SLOT_LOADED (R63). -/
def sysSlotLoaded : Fld := ⟨0x0004, 0, 15, 14, .ro, 0x0, 1, 1, 1⟩
/-- SYS.SIGNED (R63). -/
def sysSigned : Fld := ⟨0x0004, 0, 13, 13, .ro, 0x0, 1, 1, 1⟩
/-- SYS.CFG_APPLIED (R63). -/
def sysCfgApplied : Fld := ⟨0x0004, 0, 12, 12, .ro, 0x0, 1, 1, 1⟩
/-- SYS.FLASH_WIDTH (R63). -/
def sysFlashWidth : Fld := ⟨0x0004, 0, 11, 10, .ro, 0x0, 1, 1, 1⟩
/-- SYS.FLASH_CLOCK (R63). -/
def sysFlashClock : Fld := ⟨0x0004, 0, 9, 8, .ro, 0x0, 1, 1, 1⟩
/-- SYS.FUSE_CORR (R63). -/
def sysFuseCorr : Fld := ⟨0x0004, 0, 7, 7, .ro, 0x0, 1, 1, 1⟩
/-- SYS.REPAIR_USED (R63). -/
def sysRepairUsed : Fld := ⟨0x0004, 0, 6, 6, .ro, 0x0, 1, 1, 1⟩
/-- SYS.FAIL_BLOCK_A (R63). -/
def sysFailBlockA : Fld := ⟨0x0004, 1, 31, 16, .ro, 0x0, 1, 1, 1⟩
/-- SYS.FAIL_BLOCK_B (R63). -/
def sysFailBlockB : Fld := ⟨0x0004, 1, 15, 0, .ro, 0x0, 1, 1, 1⟩
/-- SYS.IMAGE_SEQ (R63). -/
def sysImageSeq : Fld := ⟨0x0004, 2, 31, 0, .ro, 0x0, 1, 1, 1⟩
-- SO 0x0005: 1 words (R44)
/-- SYS.RESET_COUNT (R44). -/
def sysResetCount : Fld := ⟨0x0005, 0, 31, 16, .ro, 0x0, 1, 1, 1⟩
/-- SYS.RESET_RAIL (R44). -/
def sysResetRail : Fld := ⟨0x0005, 0, 7, 4, .ro, 0x0, 1, 1, 1⟩
/-- SYS.RESET_CAUSE (R44). -/
def sysResetCause : Fld := ⟨0x0005, 0, 3, 0, .ro, 0x0, 1, 1, 1⟩
-- SO 0x0006: 5 words (R515)
/-- SYS.DIE_T (R515). -/
def sysDieT : Fld := ⟨0x0006, 0, 15, 0, .ro, 0x0, 4, 1, 1⟩
/-- SYS.T_WARN (R515). -/
def sysTWarn : Fld := ⟨0x0006, 4, 31, 24, .rs, 0x64, 1, 1, 1⟩
/-- SYS.T_PEAK (R515). -/
def sysTPeak : Fld := ⟨0x0006, 4, 15, 0, .w1c, 0x0, 1, 1, 1⟩
-- SO 0x0010: 3 words (R64)
/-- SYS.VARIANT (R64). -/
def sysVariant : Fld := ⟨0x0010, 0, 31, 24, .ro, 0x0, 1, 1, 1⟩
/-- SYS.CELL_LANES (R64). -/
def sysCellLanes : Fld := ⟨0x0010, 0, 23, 16, .ro, 0x0, 1, 1, 1⟩
/-- SYS.DOWN_PORTS (R64). -/
def sysDownPorts : Fld := ⟨0x0010, 0, 15, 8, .ro, 0x0, 1, 1, 1⟩
/-- SYS.TWIN_PRESENT (R64). -/
def sysTwinPresent : Fld := ⟨0x0010, 0, 7, 7, .ro, 0x0, 1, 1, 1⟩
/-- SYS.ACQ_LEVEL (R64). -/
def sysAcqLevel : Fld := ⟨0x0010, 0, 6, 5, .ro, 0x0, 1, 1, 1⟩
/-- SYS.LOOP_SLOTS (R64). -/
def sysLoopSlots : Fld := ⟨0x0010, 1, 31, 16, .ro, 0x0, 1, 1, 1⟩
/-- SYS.DRAM_MAX_GIB (R64). -/
def sysDramMaxGib : Fld := ⟨0x0010, 1, 15, 8, .ro, 0x0, 1, 1, 1⟩
/-- SYS.CELL_SLOTS (R64). -/
def sysCellSlots : Fld := ⟨0x0010, 1, 7, 0, .ro, 0x0, 1, 1, 1⟩
/-- SYS.FW_RELEASE (R64). -/
def sysFwRelease : Fld := ⟨0x0010, 2, 31, 16, .ro, 0x1, 1, 1, 1⟩
/-- SYS.PATCH_LEVEL (R64). -/
def sysPatchLevel : Fld := ⟨0x0010, 2, 15, 8, .ro, 0x0, 1, 1, 1⟩
/-- SYS.SIGNED_BOOT (R64). -/
def sysSignedBoot : Fld := ⟨0x0010, 2, 7, 7, .ro, 0x0, 1, 1, 1⟩
/-- SYS.KEY_LOCKED (R64). -/
def sysKeyLocked : Fld := ⟨0x0010, 2, 6, 6, .ro, 0x0, 1, 1, 1⟩
-- SO 0x0011: 4 words (R64)
/-- SYS.UID (R64). -/
def sysUid : Fld := ⟨0x0011, 0, 31, 0, .ro, 0x0, 4, 1, 1⟩
-- SO 0x0012: 8 words (R64)
/-- SYS.KEY_HASH (R64). -/
def sysKeyHash : Fld := ⟨0x0012, 0, 31, 0, .ro, 0x0, 8, 1, 1⟩
-- SO 0x0020: 3 words (R116)
/-- CMD.WINDOW (R116). -/
def cmdWindow : Fld := ⟨0x0020, 0, 31, 24, .ro, 0x10, 3, 1, 1⟩
/-- CMD.CREDIT_LIMIT (R116). -/
def cmdCreditLimit : Fld := ⟨0x0020, 0, 23, 16, .ro, 0x0, 3, 1, 1⟩
/-- CMD.DISCARDED (R116). -/
def cmdDiscarded : Fld := ⟨0x0020, 0, 15, 8, .w1c, 0x0, 3, 1, 1⟩
/-- CMD.LAST_FRAMING (R116). -/
def cmdLastFraming : Fld := ⟨0x0020, 0, 2, 0, .ro, 0x0, 3, 1, 1⟩
-- SO 0x0021: 33 words (R117)
/-- CMD.S_LIMIT (R117). -/
def cmdSLimit : Fld := ⟨0x0021, 0, 31, 24, .ro, 0x0, 33, 1, 1⟩
/-- CMD.S_AUTH (R117). -/
def cmdSAuth : Fld := ⟨0x0021, 0, 23, 22, .ro, 0x0, 33, 1, 1⟩
/-- CMD.S_OPEN (R117). -/
def cmdSOpen : Fld := ⟨0x0021, 0, 21, 21, .ro, 0x0, 33, 1, 1⟩
/-- CMD.S_BASKET (R117). -/
def cmdSBasket : Fld := ⟨0x0021, 0, 20, 20, .ro, 0x0, 33, 1, 1⟩
/-- CMD.S_PORT (R117). -/
def cmdSPort : Fld := ⟨0x0021, 0, 19, 18, .ro, 0x0, 33, 1, 1⟩
/-- CMD.S_IDLE (R117). -/
def cmdSIdle : Fld := ⟨0x0021, 0, 15, 0, .ro, 0x0, 33, 1, 1⟩
-- SO 0x0022: 32 words (R117)
/-- CMD.S_IP (R117). -/
def cmdSIp : Fld := ⟨0x0022, 0, 31, 0, .ro, 0x0, 16, 2, 1⟩
/-- CMD.S_UDP (R117). -/
def cmdSUdp : Fld := ⟨0x0022, 1, 15, 0, .ro, 0x0, 16, 2, 1⟩
-- SO 0x0023: 1 words (R118)
/-- CMD.UDP_PORT (R118). -/
def cmdUdpPort : Fld := ⟨0x0023, 0, 31, 16, .rs, 0xBA04, 1, 1, 1⟩
/-- CMD.NET_IDLE (R118). -/
def cmdNetIdle : Fld := ⟨0x0023, 0, 15, 4, .rs, 0xA, 1, 1, 1⟩
/-- CMD.PARENT_MAX_AUTH (R118). -/
def cmdParentMaxAuth : Fld := ⟨0x0023, 0, 3, 2, .rs, 0x2, 1, 1, 1⟩
/-- CMD.NET_MAX_AUTH (R118). -/
def cmdNetMaxAuth : Fld := ⟨0x0023, 0, 1, 0, .rs, 0x0, 1, 1, 1⟩
-- SO 0x0024: 6 words (R119)
/-- CMD.NET_IP (R119). -/
def cmdNetIp : Fld := ⟨0x0024, 0, 31, 0, .rs, 0x0, 1, 1, 1⟩
/-- CMD.NET_MASK (R119). -/
def cmdNetMask : Fld := ⟨0x0024, 1, 31, 0, .rs, 0xFFFFFF00, 1, 1, 1⟩
/-- CMD.NET_GW (R119). -/
def cmdNetGw : Fld := ⟨0x0024, 2, 31, 0, .rs, 0x0, 1, 1, 1⟩
/-- CMD.NET_MAC_HI (R119). -/
def cmdNetMacHi : Fld := ⟨0x0024, 3, 31, 0, .rs, 0x0, 1, 1, 1⟩
/-- CMD.NET_EN (R119). -/
def cmdNetEn : Fld := ⟨0x0024, 4, 31, 31, .rs, 0x0, 1, 1, 1⟩
/-- CMD.NET_MODE (R119). -/
def cmdNetMode : Fld := ⟨0x0024, 4, 30, 30, .rs, 0x0, 1, 1, 1⟩
/-- CMD.NET_MAC_LO (R119). -/
def cmdNetMacLo : Fld := ⟨0x0024, 4, 15, 0, .rs, 0x0, 1, 1, 1⟩
/-- CMD.VLAN_EN (R119). -/
def cmdVlanEn : Fld := ⟨0x0024, 5, 31, 31, .rs, 0x0, 1, 1, 1⟩
/-- CMD.VLAN_PCP (R119). -/
def cmdVlanPcp : Fld := ⟨0x0024, 5, 14, 12, .rs, 0x0, 1, 1, 1⟩
/-- CMD.VLAN_ID (R119). -/
def cmdVlanId : Fld := ⟨0x0024, 5, 11, 0, .rs, 0x0, 1, 1, 1⟩
-- SO 0x0080: 1 words (R83)
/-- CLK.RELOCKS (R83). -/
def clkRelocks : Fld := ⟨0x0080, 0, 31, 24, .ro, 0x0, 1, 1, 1⟩
/-- CLK.BAND (R83). -/
def clkBand : Fld := ⟨0x0080, 0, 23, 19, .ro, 0x0, 1, 1, 1⟩
/-- CLK.BAND_FROM_TABLE (R83). -/
def clkBandFromTable : Fld := ⟨0x0080, 0, 18, 18, .ro, 0x0, 1, 1, 1⟩
/-- CLK.REF_ACTIVE (R83). -/
def clkRefActive : Fld := ⟨0x0080, 0, 17, 16, .ro, 0x0, 1, 1, 1⟩
/-- CLK.LOCKED (R83). -/
def clkLocked : Fld := ⟨0x0080, 0, 15, 15, .ro, 0x0, 1, 1, 1⟩
/-- CLK.RAMPING (R83). -/
def clkRamping : Fld := ⟨0x0080, 0, 14, 14, .ro, 0x0, 1, 1, 1⟩
/-- CLK.REF_FALLBACK (R83). -/
def clkRefFallback : Fld := ⟨0x0080, 0, 13, 13, .w1c, 0x0, 1, 1, 1⟩
/-- CLK.REF_LOST_LOCAL (R83). -/
def clkRefLostLocal : Fld := ⟨0x0080, 0, 12, 12, .w1c, 0x0, 1, 1, 1⟩
/-- CLK.MON_FAIL (R83). -/
def clkMonFail : Fld := ⟨0x0080, 0, 11, 0, .w1c, 0x0, 1, 1, 1⟩
-- SO 0x0081: 1 words (R84)
/-- CLK.BAND_MODE (R84). -/
def clkBandMode : Fld := ⟨0x0081, 0, 8, 8, .rs, 0x0, 1, 1, 1⟩
/-- CLK.REF_SRC (R84). -/
def clkRefSrc : Fld := ⟨0x0081, 0, 4, 4, .rs, 0x0, 1, 1, 1⟩
/-- CLK.REF_SEL (R84). -/
def clkRefSel : Fld := ⟨0x0081, 0, 3, 3, .ro, 0x0, 1, 1, 1⟩
-- SO 0x0082: 32 words (R85)
/-- CLK.BT_VALID (R85). -/
def clkBtValid : Fld := ⟨0x0082, 0, 31, 31, .rs, 0x0, 32, 1, 1⟩
/-- CLK.BT_TMAX (R85). -/
def clkBtTmax : Fld := ⟨0x0082, 0, 23, 16, .rs, 0x0, 32, 1, 1⟩
/-- CLK.BT_BAND (R85). -/
def clkBtBand : Fld := ⟨0x0082, 0, 10, 6, .rs, 0x0, 32, 1, 1⟩
/-- CLK.BT_CP (R85). -/
def clkBtCp : Fld := ⟨0x0082, 0, 5, 0, .rs, 0x0, 32, 1, 1⟩
-- SO 0x0083: 16 words (R86)
/-- CLK.RP_LAST (R86). -/
def clkRpLast : Fld := ⟨0x0083, 0, 31, 31, .rs, 0x0, 16, 1, 1⟩
/-- CLK.RP_K (R86). -/
def clkRpK : Fld := ⟨0x0083, 0, 19, 16, .rs, 0x0, 16, 1, 1⟩
/-- CLK.RP_LEN (R86). -/
def clkRpLen : Fld := ⟨0x0083, 0, 15, 0, .rs, 0x28, 16, 1, 1⟩
-- SO 0x0084: 12 words (R87)
/-- CLK.DIV (R87). -/
def clkDiv : Fld := ⟨0x0084, 0, 23, 16, .ro, 0x0, 12, 1, 1⟩
/-- CLK.DELAY (R87). -/
def clkDelay : Fld := ⟨0x0084, 0, 9, 4, .rs, 0x0, 12, 1, 1⟩
/-- CLK.EN (R87). -/
def clkEn : Fld := ⟨0x0084, 0, 1, 1, .rw, 0x1, 12, 1, 1⟩
/-- CLK.GATED (R87). -/
def clkGated : Fld := ⟨0x0084, 0, 0, 0, .ro, 0x0, 12, 1, 1⟩
-- SO 0x0100: 8 words (R137)
/-- STG.GEN (R137). -/
def stgGen : Fld := ⟨0x0100, 0, 31, 0, .ro, 0x0, 1, 1, 1⟩
/-- STG.VERSION (R137). -/
def stgVersion : Fld := ⟨0x0100, 2, 31, 0, .ro, 0x0, 1, 1, 1⟩
/-- STG.ARM_AT_LO (R137). -/
def stgArmAtLo : Fld := ⟨0x0100, 3, 31, 0, .ro, 0x0, 1, 1, 1⟩
/-- STG.ARM_AT_HI (R137). -/
def stgArmAtHi : Fld := ⟨0x0100, 4, 31, 0, .ro, 0x0, 1, 1, 1⟩
/-- STG.OWNER (R137). -/
def stgOwner : Fld := ⟨0x0100, 1, 31, 24, .ro, 0xFF, 1, 1, 1⟩
/-- STG.ARMED (R137). -/
def stgArmed : Fld := ⟨0x0100, 1, 23, 23, .ro, 0x0, 1, 1, 1⟩
/-- STG.CHECKED (R137). -/
def stgChecked : Fld := ⟨0x0100, 1, 22, 22, .ro, 0x0, 1, 1, 1⟩
/-- STG.NEED_AUTH (R137). -/
def stgNeedAuth : Fld := ⟨0x0100, 1, 21, 20, .ro, 0x2, 1, 1, 1⟩
/-- STG.COUNT (R137). -/
def stgCount : Fld := ⟨0x0100, 1, 17, 0, .ro, 0x0, 1, 1, 1⟩
/-- STG.PREEMPTED (R137). -/
def stgPreempted : Fld := ⟨0x0100, 5, 31, 16, .w1c, 0x0, 1, 1, 1⟩
/-- STG.REFUSED_AT (R137). -/
def stgRefusedAt : Fld := ⟨0x0100, 5, 15, 0, .w1c, 0x0, 1, 1, 1⟩
/-- STG.LAST_AT (R137). -/
def stgLastAt : Fld := ⟨0x0100, 6, 31, 0, .ro, 0x0, 2, 1, 1⟩
-- SO 0x0101: 4 words (R138)
/-- STG.MODE_REQ (R138). -/
def stgModeReq : Fld := ⟨0x0101, 0, 3, 0, .rs, 0x0, 1, 1, 1⟩
/-- STG.PRECHARGE_DONE (R138). -/
def stgPrechargeDone : Fld := ⟨0x0101, 1, 31, 0, .rs, 0xE66666, 1, 1, 1⟩
/-- STG.DISCHARGE_DONE (R138). -/
def stgDischargeDone : Fld := ⟨0x0101, 2, 31, 0, .rs, 0xCCCCD, 1, 1, 1⟩
/-- STG.PRECHARGE_MAX (R138). -/
def stgPrechargeMax : Fld := ⟨0x0101, 3, 15, 0, .rs, 0x1388, 1, 1, 1⟩
-- SO 0x0102: 4 words (R126)
/-- STG.CK_PASS (R126). -/
def stgCkPass : Fld := ⟨0x0102, 0, 31, 31, .ro, 0x0, 1, 1, 1⟩
/-- STG.CK_TRUNC (R126). -/
def stgCkTrunc : Fld := ⟨0x0102, 0, 30, 30, .ro, 0x0, 1, 1, 1⟩
/-- STG.CK_ENTRIES (R126). -/
def stgCkEntries : Fld := ⟨0x0102, 0, 25, 16, .ro, 0x0, 1, 1, 1⟩
/-- STG.CK_VERSION (R126). -/
def stgCkVersion : Fld := ⟨0x0102, 1, 31, 0, .ro, 0x0, 1, 1, 1⟩
/-- STG.CK_TIME (R126). -/
def stgCkTime : Fld := ⟨0x0102, 2, 31, 0, .ro, 0x0, 1, 1, 1⟩
/-- STG.CK_WORDS (R126). -/
def stgCkWords : Fld := ⟨0x0102, 3, 31, 0, .ro, 0x0, 1, 1, 1⟩
-- SO 0x0103: 1024 words (R126)
/-- STG.CK_REPORT (R126). -/
def stgCkReport : Fld := ⟨0x0103, 0, 31, 0, .ro, 0x0, 1024, 1, 1⟩
-- SO 0x0104: 64 words (R139)
/-- STG.COMMIT_LOG (R139). -/
def stgCommitLog : Fld := ⟨0x0104, 0, 31, 0, .ro, 0x0, 64, 1, 1⟩
-- SO 0x0105: 4 words (R27)
/-- STG.RT_SEL (R27). -/
def stgRtSel : Fld := ⟨0x0105, 0, 31, 16, .rs, 0x0, 1, 1, 1⟩
/-- STG.RT_EN (R27). -/
def stgRtEn : Fld := ⟨0x0105, 0, 0, 0, .rs, 0x0, 1, 1, 1⟩
/-- STG.RT_LOW (R27). -/
def stgRtLow : Fld := ⟨0x0105, 1, 31, 0, .rs, 0xD9999A, 1, 1, 1⟩
/-- STG.RT_HIGH (R27). -/
def stgRtHigh : Fld := ⟨0x0105, 2, 31, 0, .rs, 0x119999A, 1, 1, 1⟩
/-- STG.RT_RECOVER (R27). -/
def stgRtRecover : Fld := ⟨0x0105, 3, 31, 16, .rs, 0x14, 1, 1, 1⟩
/-- STG.RT_MAX (R27). -/
def stgRtMax : Fld := ⟨0x0105, 3, 15, 0, .rs, 0xBB8, 1, 1, 1⟩
-- SO 0x0110: 512 words (R29)
/-- STG.ST_KIND (R29). -/
def stgStKind : Fld := ⟨0x0110, 0, 31, 28, .rs, 0x0, 128, 4, 1⟩
/-- STG.ST_A (R29). -/
def stgStA : Fld := ⟨0x0110, 0, 15, 0, .rs, 0x0, 128, 4, 1⟩
/-- STG.ST_B (R29). -/
def stgStB : Fld := ⟨0x0110, 1, 31, 0, .rs, 0x0, 128, 4, 1⟩
/-- STG.ST_C (R29). -/
def stgStC : Fld := ⟨0x0110, 2, 31, 0, .rs, 0x0, 128, 4, 1⟩
-- SO 0x0111: 2 words (R29)
/-- STG.STEP_STATE (R29). -/
def stgStepState : Fld := ⟨0x0111, 0, 31, 29, .ro, 0x0, 1, 1, 1⟩
/-- STG.STEP_IDX (R29). -/
def stgStepIdx : Fld := ⟨0x0111, 0, 22, 16, .ro, 0x0, 1, 1, 1⟩
/-- STG.STEP_WAIT (R29). -/
def stgStepWait : Fld := ⟨0x0111, 0, 15, 0, .ro, 0x0, 1, 1, 1⟩
/-- STG.STEP_FAIL_VAL (R29). -/
def stgStepFailVal : Fld := ⟨0x0111, 1, 31, 0, .ro, 0x0, 1, 1, 1⟩
-- SO 0x0200: 55 words (R163)
/-- LANE.STATE (R163). -/
def laneState : Fld := ⟨0x0200, 0, 31, 28, .ro, 0x0, 55, 1, 1⟩
/-- LANE.RATE (R163). -/
def laneRate : Fld := ⟨0x0200, 0, 27, 25, .ro, 0x7, 55, 1, 1⟩
/-- LANE.FAR_CAPS (R163). -/
def laneFarCaps : Fld := ⟨0x0200, 0, 24, 20, .ro, 0x0, 55, 1, 1⟩
/-- LANE.FAR_ROLE (R163). -/
def laneFarRole : Fld := ⟨0x0200, 0, 19, 17, .ro, 0x0, 55, 1, 1⟩
/-- LANE.RATE_LIMITED (R163). -/
def laneRateLimited : Fld := ⟨0x0200, 0, 16, 16, .w1c, 0x0, 55, 1, 1⟩
/-- LANE.ROLE_MISMATCH (R163). -/
def laneRoleMismatch : Fld := ⟨0x0200, 0, 15, 15, .w1c, 0x0, 55, 1, 1⟩
/-- LANE.EQ_DEFAULT (R163). -/
def laneEqDefault : Fld := ⟨0x0200, 0, 14, 14, .ro, 0x1, 55, 1, 1⟩
/-- LANE.LOCKED (R163). -/
def laneLocked : Fld := ⟨0x0200, 0, 13, 13, .ro, 0x0, 55, 1, 1⟩
/-- LANE.ATTEMPTS (R163). -/
def laneAttempts : Fld := ⟨0x0200, 0, 11, 8, .ro, 0x0, 55, 1, 1⟩
/-- LANE.LOCK_LOSSES (R163). -/
def laneLockLosses : Fld := ⟨0x0200, 0, 7, 0, .w1c, 0x0, 55, 1, 1⟩
-- SO 0x0201: 55 words (R164)
/-- LANE.LOOPBACK (R164). -/
def laneLoopback : Fld := ⟨0x0201, 0, 10, 8, .ro, 0x0, 55, 1, 1⟩
/-- LANE.RATE_EN (R164). -/
def laneRateEn : Fld := ⟨0x0201, 0, 7, 3, .rs, 0x1, 55, 1, 1⟩
/-- LANE.EN (R164). -/
def laneEn : Fld := ⟨0x0201, 0, 0, 0, .rs, 0x0, 55, 1, 1⟩
-- SO 0x0202: 55 words (R165)
/-- LANE.EQ_RXINV (R165). -/
def laneEqRxinv : Fld := ⟨0x0202, 0, 25, 25, .ro, 0x0, 55, 1, 1⟩
/-- LANE.EQ_TXINV (R165). -/
def laneEqTxinv : Fld := ⟨0x0202, 0, 24, 24, .ro, 0x0, 55, 1, 1⟩
/-- LANE.EQ_CTLE (R165). -/
def laneEqCtle : Fld := ⟨0x0202, 0, 23, 20, .ro, 0x4, 55, 1, 1⟩
/-- LANE.EQ_PRE (R165). -/
def laneEqPre : Fld := ⟨0x0202, 0, 19, 16, .ro, 0x0, 55, 1, 1⟩
/-- LANE.EQ_MAIN (R165). -/
def laneEqMain : Fld := ⟨0x0202, 0, 13, 8, .ro, 0x2F, 55, 1, 1⟩
/-- LANE.EQ_POST (R165). -/
def laneEqPost : Fld := ⟨0x0202, 0, 4, 0, .ro, 0x8, 55, 1, 1⟩
-- SO 0x0203: 165 words (R166)
/-- LANE.BLOCKS_BAD (R166). -/
def laneBlocksBad : Fld := ⟨0x0203, 0, 31, 0, .w1c, 0x0, 55, 3, 1⟩
/-- LANE.BLOCKS_UNK (R166). -/
def laneBlocksUnk : Fld := ⟨0x0203, 1, 31, 0, .w1c, 0x0, 55, 3, 1⟩
/-- LANE.PRBS_ERR (R166). -/
def lanePrbsErr : Fld := ⟨0x0203, 2, 31, 0, .w1c, 0x0, 55, 3, 1⟩
-- SO 0x0210: 1 words (R193)
/-- FRM.REPLAY_TO (R193). -/
def frmReplayTo : Fld := ⟨0x0210, 0, 31, 24, .rs, 0x4, 1, 1, 1⟩
/-- FRM.RETRY_MAX (R193). -/
def frmRetryMax : Fld := ⟨0x0210, 0, 23, 20, .rs, 0x8, 1, 1, 1⟩
/-- FRM.REASM_TO (R193). -/
def frmReasmTo : Fld := ⟨0x0210, 0, 19, 10, .rs, 0xA, 1, 1, 1⟩
-- SO 0x0211: 55 words (R194)
/-- FRM.TX_NEXT (R194). -/
def frmTxNext : Fld := ⟨0x0211, 0, 31, 24, .ro, 0x0, 55, 1, 1⟩
/-- FRM.TX_ACKED (R194). -/
def frmTxAcked : Fld := ⟨0x0211, 0, 23, 16, .ro, 0xFF, 55, 1, 1⟩
/-- FRM.RX_EXPECT (R194). -/
def frmRxExpect : Fld := ⟨0x0211, 0, 15, 8, .ro, 0x0, 55, 1, 1⟩
/-- FRM.REPLAY_FILL (R194). -/
def frmReplayFill : Fld := ⟨0x0211, 0, 7, 2, .ro, 0x0, 55, 1, 1⟩
/-- FRM.DOUSE_SEEN (R194). -/
def frmDouseSeen : Fld := ⟨0x0211, 0, 1, 1, .w1c, 0x0, 55, 1, 1⟩
/-- FRM.PORT_CROSSED (R194). -/
def frmPortCrossed : Fld := ⟨0x0211, 0, 0, 0, .w1c, 0x0, 55, 1, 1⟩
-- SO 0x0212: 220 words (R195)
/-- FRM.RX_BAD (R195). -/
def frmRxBad : Fld := ⟨0x0212, 0, 31, 0, .w1c, 0x0, 55, 4, 1⟩
/-- FRM.REPLAYS (R195). -/
def frmReplays : Fld := ⟨0x0212, 1, 31, 0, .w1c, 0x0, 55, 4, 1⟩
/-- FRM.LATE (R195). -/
def frmLate : Fld := ⟨0x0212, 2, 31, 0, .w1c, 0x0, 55, 4, 1⟩
/-- FRM.RX_VOID (R195). -/
def frmRxVoid : Fld := ⟨0x0212, 3, 31, 0, .w1c, 0x0, 55, 4, 1⟩
-- SO 0x0300: 1 words (R219)
/-- TIME.ACQUIRED (R219). -/
def timeAcquired : Fld := ⟨0x0300, 0, 31, 31, .ro, 0x0, 1, 1, 1⟩
/-- TIME.NET_VALID (R219). -/
def timeNetValid : Fld := ⟨0x0300, 0, 30, 30, .ro, 0x0, 1, 1, 1⟩
/-- TIME.HOLDOVER (R219). -/
def timeHoldover : Fld := ⟨0x0300, 0, 29, 29, .ro, 0x0, 1, 1, 1⟩
/-- TIME.ACCEPT_PEND (R219). -/
def timeAcceptPend : Fld := ⟨0x0300, 0, 28, 28, .ro, 0x0, 1, 1, 1⟩
/-- TIME.NET_REFUSED (R219). -/
def timeNetRefused : Fld := ⟨0x0300, 0, 27, 27, .w1c, 0x0, 1, 1, 1⟩
/-- TIME.MISALIGNED (R219). -/
def timeMisaligned : Fld := ⟨0x0300, 0, 26, 26, .ro, 0x0, 1, 1, 1⟩
/-- TIME.SRC_LOST (R219). -/
def timeSrcLost : Fld := ⟨0x0300, 0, 25, 25, .w1c, 0x0, 1, 1, 1⟩
/-- TIME.SRC_ACTIVE (R219). -/
def timeSrcActive : Fld := ⟨0x0300, 0, 24, 22, .ro, 0x0, 1, 1, 1⟩
/-- TIME.REFUSE_COUNT (R219). -/
def timeRefuseCount : Fld := ⟨0x0300, 0, 15, 8, .w1c, 0x0, 1, 1, 1⟩
/-- TIME.MAP_STEPS (R219). -/
def timeMapSteps : Fld := ⟨0x0300, 0, 7, 0, .w1c, 0x0, 1, 1, 1⟩
-- SO 0x0301: 7 words (R220)
/-- TIME.FABRIC_LO (R220). -/
def timeFabricLo : Fld := ⟨0x0301, 0, 31, 0, .ro, 0x0, 1, 1, 1⟩
/-- TIME.FABRIC_HI (R220). -/
def timeFabricHi : Fld := ⟨0x0301, 1, 31, 0, .ro, 0x0, 1, 1, 1⟩
/-- TIME.RATE (R220). -/
def timeRate : Fld := ⟨0x0301, 2, 31, 0, .ro, 0x0, 1, 1, 1⟩
/-- TIME.FREQ (R220). -/
def timeFreq : Fld := ⟨0x0301, 3, 31, 0, .ro, 0x0, 1, 1, 1⟩
/-- TIME.LAST_OFS (R220). -/
def timeLastOfs : Fld := ⟨0x0301, 4, 31, 0, .ro, 0x0, 1, 1, 1⟩
/-- TIME.CYCLE_ORIGIN_LO (R220). -/
def timeCycleOriginLo : Fld := ⟨0x0301, 5, 31, 0, .rs, 0x0, 1, 1, 1⟩
/-- TIME.CYCLE_ORIGIN_HI (R220). -/
def timeCycleOriginHi : Fld := ⟨0x0301, 6, 31, 0, .rs, 0x0, 1, 1, 1⟩
-- SO 0x0302: 7 words (R221)
/-- TIME.MAP_N (R221). -/
def timeMapN : Fld := ⟨0x0302, 0, 31, 0, .ro, 0x0, 2, 1, 1⟩
/-- TIME.MAP_F (R221). -/
def timeMapF : Fld := ⟨0x0302, 2, 31, 0, .ro, 0x0, 2, 1, 1⟩
/-- TIME.SET_NET (R221). -/
def timeSetNet : Fld := ⟨0x0302, 4, 31, 0, .we, 0x0, 2, 1, 1⟩
/-- TIME.NET_OFS (R221). -/
def timeNetOfs : Fld := ⟨0x0302, 6, 31, 0, .ro, 0x0, 1, 1, 1⟩
-- SO 0x0303: 3 words (R221)
/-- TIME.JUMP_LIMIT (R221). -/
def timeJumpLimit : Fld := ⟨0x0303, 0, 31, 12, .rs, 0x3E8, 1, 1, 1⟩
/-- TIME.SLEW_LIMIT (R221). -/
def timeSlewLimit : Fld := ⟨0x0303, 0, 11, 0, .rs, 0xA, 1, 1, 1⟩
/-- TIME.SYNC_INT (R221). -/
def timeSyncInt : Fld := ⟨0x0303, 1, 31, 16, .rs, 0x7D, 1, 1, 1⟩
/-- TIME.SRC (R221). -/
def timeSrc : Fld := ⟨0x0303, 1, 2, 0, .rs, 0x0, 1, 1, 1⟩
/-- TIME.ACCEPT_NEXT (R221). -/
def timeAcceptNext : Fld := ⟨0x0303, 2, 0, 0, .we, 0x0, 1, 1, 1⟩
-- SO 0x0304: 2 words (R222)
/-- TIME.PTP_DOMAIN (R222). -/
def timePtpDomain : Fld := ⟨0x0304, 0, 31, 24, .rs, 0x0, 1, 1, 1⟩
/-- TIME.PTP_PRIO1 (R222). -/
def timePtpPrio1 : Fld := ⟨0x0304, 0, 23, 16, .rs, 0x80, 1, 1, 1⟩
/-- TIME.PTP_PRIO2 (R222). -/
def timePtpPrio2 : Fld := ⟨0x0304, 0, 15, 8, .rs, 0x80, 1, 1, 1⟩
/-- TIME.PTP_CLASS (R222). -/
def timePtpClass : Fld := ⟨0x0304, 0, 7, 0, .rs, 0xF8, 1, 1, 1⟩
/-- TIME.PTP_LOG_SYNC (R222). -/
def timePtpLogSync : Fld := ⟨0x0304, 1, 31, 28, .rs, 0x0, 1, 1, 1⟩
/-- TIME.PTP_LOG_ANN (R222). -/
def timePtpLogAnn : Fld := ⟨0x0304, 1, 27, 24, .rs, 0x1, 1, 1, 1⟩
/-- TIME.PTP_LOG_DELAY (R222). -/
def timePtpLogDelay : Fld := ⟨0x0304, 1, 23, 20, .rs, 0x0, 1, 1, 1⟩
/-- TIME.PTP_ANN_TO (R222). -/
def timePtpAnnTo : Fld := ⟨0x0304, 1, 19, 16, .rs, 0x3, 1, 1, 1⟩
/-- TIME.PTP_EN (R222). -/
def timePtpEn : Fld := ⟨0x0304, 1, 7, 7, .rs, 0x0, 1, 1, 1⟩
/-- TIME.PTP_PROFILE (R222). -/
def timePtpProfile : Fld := ⟨0x0304, 1, 6, 5, .rs, 0x0, 1, 1, 1⟩
/-- TIME.PTP_MASTER (R222). -/
def timePtpMaster : Fld := ⟨0x0304, 1, 4, 4, .rs, 0x0, 1, 1, 1⟩
/-- TIME.PTP_UDP (R222). -/
def timePtpUdp : Fld := ⟨0x0304, 1, 3, 3, .rs, 0x0, 1, 1, 1⟩
/-- TIME.PTP_P2P (R222). -/
def timePtpP2p : Fld := ⟨0x0304, 1, 2, 2, .rs, 0x0, 1, 1, 1⟩
/-- TIME.PTP_ONESTEP (R222). -/
def timePtpOnestep : Fld := ⟨0x0304, 1, 1, 1, .rs, 0x0, 1, 1, 1⟩
-- SO 0x0305: 110 words (R223)
/-- TIME.LANE_DELAY (R223). -/
def timeLaneDelay : Fld := ⟨0x0305, 0, 31, 0, .ro, 0x0, 55, 2, 1⟩
/-- TIME.LANE_ASYM (R223). -/
def timeLaneAsym : Fld := ⟨0x0305, 1, 31, 16, .rs, 0x0, 55, 2, 1⟩
/-- TIME.LANE_OFS (R223). -/
def timeLaneOfs : Fld := ⟨0x0305, 1, 15, 0, .ro, 0x0, 55, 2, 1⟩
-- SO 0x0306: 8 words (R224)
/-- TIME.TPO_MODE (R224). -/
def timeTpoMode : Fld := ⟨0x0306, 0, 31, 30, .ro, 0x0, 8, 1, 1⟩
/-- TIME.TPO_NET (R224). -/
def timeTpoNet : Fld := ⟨0x0306, 0, 29, 29, .ro, 0x0, 8, 1, 1⟩
/-- TIME.TPO_INV (R224). -/
def timeTpoInv : Fld := ⟨0x0306, 0, 28, 28, .rs, 0x0, 8, 1, 1⟩
/-- TIME.TPO_WIDTH (R224). -/
def timeTpoWidth : Fld := ⟨0x0306, 0, 23, 0, .rs, 0x186A0, 8, 1, 1⟩
-- SO 0x0307: 4 words (R225)
/-- TIME.TCI_EDGE (R225). -/
def timeTciEdge : Fld := ⟨0x0307, 0, 31, 30, .rs, 0x0, 4, 1, 1⟩
/-- TIME.TCI_LOST (R225). -/
def timeTciLost : Fld := ⟨0x0307, 0, 23, 16, .w1c, 0x0, 4, 1, 1⟩
/-- TIME.TCI_FILL (R225). -/
def timeTciFill : Fld := ⟨0x0307, 0, 4, 0, .ro, 0x0, 4, 1, 1⟩
-- SO 0x0308: 32 words (R224)
/-- TIME.TPO_NEXT (R224). -/
def timeTpoNext : Fld := ⟨0x0308, 0, 31, 0, .ro, 0x0, 32, 1, 1⟩
-- SO 0x0309: 128 words (R225)
/-- TIME.TCI_FIFO (R225). -/
def timeTciFifo : Fld := ⟨0x0309, 0, 31, 0, .ro, 0x0, 128, 1, 1⟩
-- SO 0x0400: 12 words (R251)
/-- MOD.CARRIER_PERIOD (R251). -/
def modCarrierPeriod : Fld := ⟨0x0400, 0, 31, 0, .rs, 0x0, 1, 1, 1⟩
/-- MOD.DAB_PERIOD (R251). -/
def modDabPeriod : Fld := ⟨0x0400, 1, 31, 0, .rs, 0x0, 1, 1, 1⟩
/-- MOD.DEAD (R251). -/
def modDead : Fld := ⟨0x0400, 2, 31, 16, .rs, 0x7D0, 1, 1, 1⟩
/-- MOD.DAB_DEAD (R251). -/
def modDabDead : Fld := ⟨0x0400, 2, 15, 0, .rs, 0x7D0, 1, 1, 1⟩
/-- MOD.MIN_PULSE (R251). -/
def modMinPulse : Fld := ⟨0x0400, 3, 31, 16, .rs, 0x1388, 1, 1, 1⟩
/-- MOD.LEAD (R251). -/
def modLead : Fld := ⟨0x0400, 3, 15, 0, .rs, 0x7D0, 1, 1, 1⟩
/-- MOD.M_MAX (R251). -/
def modMMax : Fld := ⟨0x0400, 4, 31, 0, .rs, 0xFAE148, 1, 1, 1⟩
/-- MOD.D_MAX (R251). -/
def modDMax : Fld := ⟨0x0400, 5, 31, 0, .rs, 0x400000, 1, 1, 1⟩
/-- MOD.SMP0_EN (R251). -/
def modSmp0En : Fld := ⟨0x0400, 6, 31, 31, .rs, 0x1, 1, 1, 1⟩
/-- MOD.SMP0_OFS (R251). -/
def modSmp0Ofs : Fld := ⟨0x0400, 6, 23, 0, .rs, 0x0, 1, 1, 1⟩
/-- MOD.SMP1_EN (R251). -/
def modSmp1En : Fld := ⟨0x0400, 7, 31, 31, .rs, 0x0, 1, 1, 1⟩
/-- MOD.SMP1_OFS (R251). -/
def modSmp1Ofs : Fld := ⟨0x0400, 7, 23, 0, .rs, 0x0, 1, 1, 1⟩
/-- MOD.HOLD_MAX (R251). -/
def modHoldMax : Fld := ⟨0x0400, 8, 31, 24, .rs, 0x4, 1, 1, 1⟩
/-- MOD.REINSERT_RAMP (R251). -/
def modReinsertRamp : Fld := ⟨0x0400, 8, 23, 16, .rs, 0x10, 1, 1, 1⟩
/-- MOD.REV_MARGIN (R251). -/
def modRevMargin : Fld := ⟨0x0400, 8, 15, 8, .rs, 0x32, 1, 1, 1⟩
/-- MOD.SMP_GUARD (R251). -/
def modSmpGuard : Fld := ⟨0x0400, 8, 7, 4, .rs, 0x5, 1, 1, 1⟩
/-- MOD.DAB_SPREAD (R251). -/
def modDabSpread : Fld := ⟨0x0400, 8, 3, 2, .rs, 0x1, 1, 1, 1⟩
/-- MOD.REVISE_EN (R251). -/
def modReviseEn : Fld := ⟨0x0400, 8, 1, 1, .rs, 0x0, 1, 1, 1⟩
/-- MOD.REVISE_THRESH (R251). -/
def modReviseThresh : Fld := ⟨0x0400, 9, 31, 0, .rs, 0x28F5C, 1, 1, 1⟩
/-- MOD.DISCH_D (R251). -/
def modDischD : Fld := ⟨0x0400, 10, 31, 0, .rs, 0xCCCCD, 1, 1, 1⟩
/-- MOD.CYCLE_LEN (R251). -/
def modCycleLen : Fld := ⟨0x0400, 11, 20, 0, .rs, 0x1312D0, 1, 1, 1⟩
-- SO 0x0401: 24 words (R252)
/-- MOD.ARM_EN (R252). -/
def modArmEn : Fld := ⟨0x0401, 0, 31, 31, .rs, 0x0, 8, 3, 1⟩
/-- MOD.ARM_REF_SLOT (R252). -/
def modArmRefSlot : Fld := ⟨0x0401, 0, 23, 16, .rs, 0x0, 8, 3, 1⟩
/-- MOD.ARM_DAB_SLOT (R252). -/
def modArmDabSlot : Fld := ⟨0x0401, 0, 15, 8, .rs, 0x0, 8, 3, 1⟩
/-- MOD.ARM_DAB_EN (R252). -/
def modArmDabEn : Fld := ⟨0x0401, 0, 0, 0, .rs, 0x0, 8, 3, 1⟩
/-- MOD.ARM_BASE (R252). -/
def modArmBase : Fld := ⟨0x0401, 1, 31, 16, .rs, 0x0, 8, 3, 1⟩
/-- MOD.CELL_VBASE (R252). -/
def modCellVbase : Fld := ⟨0x0401, 1, 15, 0, .rs, 0x0, 8, 3, 1⟩
/-- MOD.ARM_OFS (R252). -/
def modArmOfs : Fld := ⟨0x0401, 2, 31, 0, .rs, 0x0, 8, 3, 1⟩
-- SO 0x0402: 96 words (R253)
/-- MOD.C_STATE (R253). -/
def modCState : Fld := ⟨0x0402, 0, 31, 29, .ro, 0x0, 96, 1, 1⟩
/-- MOD.C_CARRIER (R253). -/
def modCCarrier : Fld := ⟨0x0402, 0, 23, 16, .ro, 0x0, 96, 1, 1⟩
/-- MOD.C_DAB (R253). -/
def modCDab : Fld := ⟨0x0402, 0, 15, 8, .ro, 0x0, 96, 1, 1⟩
/-- MOD.C_HELD (R253). -/
def modCHeld : Fld := ⟨0x0402, 0, 7, 0, .ro, 0x0, 96, 1, 1⟩
-- SO 0x0403: 8 words (R255)
/-- MOD.CLAMPS (R255). -/
def modClamps : Fld := ⟨0x0403, 0, 31, 0, .w1c, 0x0, 1, 1, 1⟩
/-- MOD.PULSE_WIDENED (R255). -/
def modPulseWidened : Fld := ⟨0x0403, 1, 31, 0, .w1c, 0x0, 1, 1, 1⟩
/-- MOD.PULSE_DROPPED (R255). -/
def modPulseDropped : Fld := ⟨0x0403, 2, 31, 0, .w1c, 0x0, 1, 1, 1⟩
/-- MOD.REVISIONS (R255). -/
def modRevisions : Fld := ⟨0x0403, 3, 31, 0, .w1c, 0x0, 1, 1, 1⟩
/-- MOD.REV_DROPPED (R255). -/
def modRevDropped : Fld := ⟨0x0403, 4, 31, 0, .w1c, 0x0, 1, 1, 1⟩
/-- MOD.HOLDS (R255). -/
def modHolds : Fld := ⟨0x0403, 5, 31, 0, .w1c, 0x0, 1, 1, 1⟩
/-- MOD.BYPASSES (R255). -/
def modBypasses : Fld := ⟨0x0403, 6, 31, 0, .w1c, 0x0, 1, 1, 1⟩
/-- MOD.REINSERTS (R255). -/
def modReinserts : Fld := ⟨0x0403, 7, 31, 0, .w1c, 0x0, 1, 1, 1⟩
-- SO 0x0404: 192 words (R253)
/-- MOD.C_M (R253). -/
def modCM : Fld := ⟨0x0404, 0, 31, 0, .ro, 0x0, 96, 2, 1⟩
/-- MOD.C_D (R253). -/
def modCD : Fld := ⟨0x0404, 1, 31, 0, .ro, 0x0, 96, 2, 1⟩
-- SO 0x0405: 16 words (R254)
/-- MOD.A_ACTIVE (R254). -/
def modAActive : Fld := ⟨0x0405, 0, 31, 24, .ro, 0x0, 8, 2, 1⟩
/-- MOD.A_DAB_M (R254). -/
def modADabM : Fld := ⟨0x0405, 0, 23, 16, .ro, 0x0, 8, 2, 1⟩
/-- MOD.A_SAT (R254). -/
def modASat : Fld := ⟨0x0405, 0, 0, 0, .ro, 0x0, 8, 2, 1⟩
/-- MOD.A_REF (R254). -/
def modARef : Fld := ⟨0x0405, 1, 31, 0, .ro, 0x0, 8, 2, 1⟩
-- SO 0x0500: 2 words (R281)
/-- LOOP.SCHED_AT (R281). -/
def loopSchedAt : Fld := ⟨0x0500, 0, 31, 16, .rs, 0x4E2, 1, 1, 1⟩
/-- LOOP.OVERRUNS (R281). -/
def loopOverruns : Fld := ⟨0x0500, 1, 31, 16, .w1c, 0x0, 1, 1, 1⟩
/-- LOOP.FP_LATE (R281). -/
def loopFpLate : Fld := ⟨0x0500, 1, 15, 0, .w1c, 0x0, 1, 1, 1⟩
-- SO 0x0501: 8 words (R282)
/-- LOOP.E_FAST (R282). -/
def loopEFast : Fld := ⟨0x0501, 0, 31, 31, .ro, 0x0, 8, 1, 1⟩
/-- LOOP.E_FAST_SLOT (R282). -/
def loopEFastSlot : Fld := ⟨0x0501, 0, 30, 23, .ro, 0x0, 8, 1, 1⟩
/-- LOOP.E_LOAD (R282). -/
def loopELoad : Fld := ⟨0x0501, 0, 15, 0, .ro, 0x0, 8, 1, 1⟩
-- SO 0x0502: 32 words (R282)
/-- LOOP.G_WINNER (R282). -/
def loopGWinner : Fld := ⟨0x0502, 0, 31, 24, .ro, 0xFF, 32, 1, 1⟩
/-- LOOP.G_MEMBERS (R282). -/
def loopGMembers : Fld := ⟨0x0502, 0, 23, 20, .ro, 0x0, 32, 1, 1⟩
/-- LOOP.G_SWITCHES (R282). -/
def loopGSwitches : Fld := ⟨0x0502, 0, 15, 0, .w1c, 0x0, 32, 1, 1⟩
-- SO 0x0600: 40 words (R283)
/-- LOOP.EN (R283). -/
def loopEn : Fld := ⟨0x0600, 0, 31, 31, .rs, 0x0, 1, 1, 256⟩
/-- LOOP.FAST (R283). -/
def loopFast : Fld := ⟨0x0600, 0, 30, 30, .rs, 0x0, 1, 1, 256⟩
/-- LOOP.PIN (R283). -/
def loopPin : Fld := ⟨0x0600, 0, 29, 27, .rs, 0x0, 1, 1, 256⟩
/-- LOOP.D_EN (R283). -/
def loopDEn : Fld := ⟨0x0600, 0, 26, 26, .rs, 0x0, 1, 1, 256⟩
/-- LOOP.BQ_COUNT (R283). -/
def loopBqCount : Fld := ⟨0x0600, 0, 25, 23, .rs, 0x0, 1, 1, 256⟩
/-- LOOP.DERATE (R283). -/
def loopDerate : Fld := ⟨0x0600, 0, 22, 22, .rs, 0x0, 1, 1, 256⟩
/-- LOOP.LEG_EN (R283). -/
def loopLegEn : Fld := ⟨0x0600, 0, 21, 21, .rs, 0x0, 1, 1, 256⟩
/-- LOOP.LEG (R283). -/
def loopLeg : Fld := ⟨0x0600, 0, 20, 17, .rs, 0x0, 1, 1, 256⟩
/-- LOOP.GROUP_EN (R283). -/
def loopGroupEn : Fld := ⟨0x0600, 0, 16, 16, .rs, 0x0, 1, 1, 256⟩
/-- LOOP.GROUP (R283). -/
def loopGroup : Fld := ⟨0x0600, 0, 15, 11, .rs, 0x0, 1, 1, 256⟩
/-- LOOP.DIV (R283). -/
def loopDiv : Fld := ⟨0x0600, 0, 7, 0, .rs, 0x0, 1, 1, 256⟩
/-- LOOP.PHASE (R283). -/
def loopPhase : Fld := ⟨0x0600, 1, 31, 24, .rs, 0x0, 1, 1, 256⟩
/-- LOOP.MODES (R283). -/
def loopModes : Fld := ⟨0x0600, 1, 23, 16, .rs, 0x1E, 1, 1, 256⟩
/-- LOOP.I_ACTION (R283). -/
def loopIAction : Fld := ⟨0x0600, 1, 1, 0, .rs, 0x0, 1, 1, 256⟩
/-- LOOP.R_SEL (R283). -/
def loopRSel : Fld := ⟨0x0600, 2, 31, 16, .rs, 0x0, 1, 1, 256⟩
/-- LOOP.F_SEL (R283). -/
def loopFSel : Fld := ⟨0x0600, 2, 15, 0, .rs, 0x0, 1, 1, 256⟩
/-- LOOP.FF_SEL (R283). -/
def loopFfSel : Fld := ⟨0x0600, 3, 31, 16, .rs, 0x0, 1, 1, 256⟩
/-- LOOP.TRK_SEL (R283). -/
def loopTrkSel : Fld := ⟨0x0600, 3, 15, 0, .rs, 0x0, 1, 1, 256⟩
/-- LOOP.MAX_SEL (R283). -/
def loopMaxSel : Fld := ⟨0x0600, 4, 31, 16, .rs, 0x0, 1, 1, 256⟩
/-- LOOP.MIN_SEL (R283). -/
def loopMinSel : Fld := ⟨0x0600, 4, 15, 0, .rs, 0x0, 1, 1, 256⟩
/-- LOOP.KR (R283). -/
def loopKr : Fld := ⟨0x0600, 5, 31, 0, .rw, 0x10000000, 1, 1, 256⟩
/-- LOOP.KF (R283). -/
def loopKf : Fld := ⟨0x0600, 6, 31, 0, .rw, 0x10000000, 1, 1, 256⟩
/-- LOOP.KFF (R283). -/
def loopKff : Fld := ⟨0x0600, 7, 31, 0, .rw, 0x0, 1, 1, 256⟩
/-- LOOP.KP (R283). -/
def loopKp : Fld := ⟨0x0600, 8, 31, 0, .rw, 0x0, 1, 1, 256⟩
/-- LOOP.KI (R283). -/
def loopKi : Fld := ⟨0x0600, 9, 31, 0, .rw, 0x0, 1, 1, 256⟩
/-- LOOP.KT (R283). -/
def loopKt : Fld := ⟨0x0600, 10, 31, 0, .rw, 0x0, 1, 1, 256⟩
/-- LOOP.KD (R283). -/
def loopKd : Fld := ⟨0x0600, 11, 31, 0, .rw, 0x0, 1, 1, 256⟩
/-- LOOP.AD (R283). -/
def loopAd : Fld := ⟨0x0600, 12, 31, 0, .rw, 0x0, 1, 1, 256⟩
/-- LOOP.R_CONST (R283). -/
def loopRConst : Fld := ⟨0x0600, 13, 31, 0, .rw, 0x0, 1, 1, 256⟩
/-- LOOP.OUT_MAX (R283). -/
def loopOutMax : Fld := ⟨0x0600, 14, 31, 0, .rw, 0x1000000, 1, 1, 256⟩
/-- LOOP.OUT_MIN (R283). -/
def loopOutMin : Fld := ⟨0x0600, 15, 31, 0, .rw, 0xFF000000, 1, 1, 256⟩
/-- LOOP.I_MAX (R283). -/
def loopIMax : Fld := ⟨0x0600, 16, 31, 0, .rw, 0x1000000, 1, 1, 256⟩
/-- LOOP.I_MIN (R283). -/
def loopIMin : Fld := ⟨0x0600, 17, 31, 0, .rw, 0xFF000000, 1, 1, 256⟩
/-- LOOP.I_PRESET (R283). -/
def loopIPreset : Fld := ⟨0x0600, 18, 31, 0, .rw, 0x0, 1, 1, 256⟩
/-- LOOP.B0 (R283). -/
def loopB0 : Fld := ⟨0x0600, 20, 31, 0, .rw, 0x10000000, 4, 5, 256⟩
/-- LOOP.B1 (R283). -/
def loopB1 : Fld := ⟨0x0600, 21, 31, 0, .rw, 0x0, 4, 5, 256⟩
/-- LOOP.B2 (R283). -/
def loopB2 : Fld := ⟨0x0600, 22, 31, 0, .rw, 0x0, 4, 5, 256⟩
/-- LOOP.A1 (R283). -/
def loopA1 : Fld := ⟨0x0600, 23, 31, 0, .rw, 0x0, 4, 5, 256⟩
/-- LOOP.A2 (R283). -/
def loopA2 : Fld := ⟨0x0600, 24, 31, 0, .rw, 0x0, 4, 5, 256⟩
-- SO 0x0700: 32 words (R284)
/-- LOOP.S_OUT_HI (R284). -/
def loopSOutHi : Fld := ⟨0x0700, 0, 31, 31, .ro, 0x0, 1, 1, 256⟩
/-- LOOP.S_OUT_LO (R284). -/
def loopSOutLo : Fld := ⟨0x0700, 0, 30, 30, .ro, 0x0, 1, 1, 256⟩
/-- LOOP.S_INT_HI (R284). -/
def loopSIntHi : Fld := ⟨0x0700, 0, 29, 29, .ro, 0x0, 1, 1, 256⟩
/-- LOOP.S_INT_LO (R284). -/
def loopSIntLo : Fld := ⟨0x0700, 0, 28, 28, .ro, 0x0, 1, 1, 256⟩
/-- LOOP.S_ARITH_SAT (R284). -/
def loopSArithSat : Fld := ⟨0x0700, 0, 27, 27, .ro, 0x0, 1, 1, 256⟩
/-- LOOP.S_GROUP_WON (R284). -/
def loopSGroupWon : Fld := ⟨0x0700, 0, 26, 26, .ro, 0x0, 1, 1, 256⟩
/-- LOOP.S_LIM_CROSS (R284). -/
def loopSLimCross : Fld := ⟨0x0700, 0, 25, 25, .ro, 0x0, 1, 1, 256⟩
/-- LOOP.S_CLIPPED (R284). -/
def loopSClipped : Fld := ⟨0x0700, 0, 24, 24, .ro, 0x0, 1, 1, 256⟩
/-- LOOP.S_HELD (R284). -/
def loopSHeld : Fld := ⟨0x0700, 0, 23, 23, .ro, 0x1, 1, 1, 256⟩
/-- LOOP.S_TRACKING (R284). -/
def loopSTracking : Fld := ⟨0x0700, 0, 22, 22, .ro, 0x0, 1, 1, 256⟩
/-- LOOP.S_ENGINE (R284). -/
def loopSEngine : Fld := ⟨0x0700, 0, 21, 19, .ro, 0x0, 1, 1, 256⟩
/-- LOOP.EVAL_COUNT (R284). -/
def loopEvalCount : Fld := ⟨0x0700, 1, 31, 0, .ro, 0x0, 1, 1, 256⟩
/-- LOOP.OUT (R284). -/
def loopOut : Fld := ⟨0x0700, 2, 31, 0, .ro, 0x0, 1, 1, 256⟩
/-- LOOP.RAW (R284). -/
def loopRaw : Fld := ⟨0x0700, 3, 31, 0, .ro, 0x0, 1, 1, 256⟩
/-- LOOP.INT_HI (R284). -/
def loopIntHi : Fld := ⟨0x0700, 4, 31, 0, .ro, 0x0, 1, 1, 256⟩
/-- LOOP.INT_LO (R284). -/
def loopIntLo : Fld := ⟨0x0700, 5, 31, 0, .ro, 0x0, 1, 1, 256⟩
/-- LOOP.ERR (R284). -/
def loopErr : Fld := ⟨0x0700, 6, 31, 0, .ro, 0x0, 1, 1, 256⟩
/-- LOOP.D_STATE (R284). -/
def loopDState : Fld := ⟨0x0700, 7, 31, 0, .ro, 0x0, 1, 1, 256⟩
/-- LOOP.Y_PREV (R284). -/
def loopYPrev : Fld := ⟨0x0700, 8, 31, 0, .ro, 0x0, 1, 1, 256⟩
/-- LOOP.W (R284). -/
def loopW : Fld := ⟨0x0700, 9, 31, 0, .ro, 0x0, 1, 1, 256⟩
/-- LOOP.BQ_STATE (R284). -/
def loopBqState : Fld := ⟨0x0700, 10, 31, 0, .ro, 0x0, 16, 1, 256⟩
/-- LOOP.LAST_AT (R284). -/
def loopLastAt : Fld := ⟨0x0700, 26, 31, 0, .ro, 0x0, 2, 1, 256⟩
/-- LOOP.CLIP_COUNT (R284). -/
def loopClipCount : Fld := ⟨0x0700, 28, 31, 0, .w1c, 0x0, 1, 1, 256⟩
/-- LOOP.SAT_COUNT (R284). -/
def loopSatCount : Fld := ⟨0x0700, 29, 31, 0, .w1c, 0x0, 1, 1, 256⟩
/-- LOOP.FP_SKIPPED (R284). -/
def loopFpSkipped : Fld := ⟨0x0700, 30, 31, 0, .w1c, 0x0, 1, 1, 256⟩
/-- LOOP.S_OVERRUNS (R284). -/
def loopSOverruns : Fld := ⟨0x0700, 31, 31, 0, .w1c, 0x0, 1, 1, 256⟩
-- SO 0x0800: 60 words (R339)
/-- LEG.EN (R339). -/
def legEn : Fld := ⟨0x0800, 0, 31, 31, .rs, 0x0, 12, 5, 1⟩
/-- LEG.MODES (R339). -/
def legModes : Fld := ⟨0x0800, 0, 30, 23, .rs, 0x1E, 12, 5, 1⟩
/-- LEG.ALIGN (R339). -/
def legAlign : Fld := ⟨0x0800, 0, 22, 22, .rs, 0x0, 12, 5, 1⟩
/-- LEG.SRC (R339). -/
def legSrc : Fld := ⟨0x0800, 0, 21, 21, .rs, 0x0, 12, 5, 1⟩
/-- LEG.BLANK (R339). -/
def legBlank : Fld := ⟨0x0800, 0, 20, 16, .rs, 0x9, 12, 5, 1⟩
/-- LEG.PRD (R339). -/
def legPrd : Fld := ⟨0x0800, 0, 15, 0, .rs, 0x7A11, 12, 5, 1⟩
/-- LEG.PHASE (R339). -/
def legPhase : Fld := ⟨0x0800, 1, 31, 16, .rs, 0x0, 12, 5, 1⟩
/-- LEG.INT_PRE (R339). -/
def legIntPre : Fld := ⟨0x0800, 1, 7, 0, .rs, 0x0, 12, 5, 1⟩
/-- LEG.DT_RISE (R339). -/
def legDtRise : Fld := ⟨0x0800, 2, 31, 22, .rs, 0x7D, 12, 5, 1⟩
/-- LEG.DT_FALL (R339). -/
def legDtFall : Fld := ⟨0x0800, 2, 21, 12, .rs, 0x7D, 12, 5, 1⟩
/-- LEG.CBC_MAX (R339). -/
def legCbcMax : Fld := ⟨0x0800, 2, 11, 4, .rs, 0x10, 12, 5, 1⟩
/-- LEG.INT_SEL (R339). -/
def legIntSel : Fld := ⟨0x0800, 2, 3, 0, .rs, 0x0, 12, 5, 1⟩
/-- LEG.CS_LIM (R339). -/
def legCsLim : Fld := ⟨0x0800, 3, 31, 24, .rs, 0xFF, 12, 5, 1⟩
/-- LEG.CS_SC (R339). -/
def legCsSc : Fld := ⟨0x0800, 3, 23, 16, .rs, 0xFF, 12, 5, 1⟩
/-- LEG.MIN_ON (R339). -/
def legMinOn : Fld := ⟨0x0800, 3, 15, 6, .rs, 0x7D, 12, 5, 1⟩
/-- LEG.TP_DLY (R339). -/
def legTpDly : Fld := ⟨0x0800, 3, 5, 3, .rs, 0x2, 12, 5, 1⟩
/-- LEG.TP_EN (R339). -/
def legTpEn : Fld := ⟨0x0800, 3, 2, 2, .rs, 0x0, 12, 5, 1⟩
/-- LEG.DSAT_EN (R339). -/
def legDsatEn : Fld := ⟨0x0800, 3, 1, 1, .rs, 0x0, 12, 5, 1⟩
/-- LEG.DSAT_POL (R339). -/
def legDsatPol : Fld := ⟨0x0800, 3, 0, 0, .rs, 0x0, 12, 5, 1⟩
/-- LEG.PRIME (R339). -/
def legPrime : Fld := ⟨0x0800, 4, 31, 16, .rs, 0x186A, 12, 5, 1⟩
-- SO 0x0801: 36 words (R340)
/-- LEG.DUTY (R340). -/
def legDuty : Fld := ⟨0x0801, 0, 31, 0, .ro, 0x0, 12, 3, 1⟩
/-- LEG.CMPA_SH (R340). -/
def legCmpaSh : Fld := ⟨0x0801, 1, 31, 16, .rw, 0xFFFF, 12, 3, 1⟩
/-- LEG.CMPB_SH (R340). -/
def legCmpbSh : Fld := ⟨0x0801, 1, 15, 0, .rw, 0xFFFF, 12, 3, 1⟩
/-- LEG.CMPA (R340). -/
def legCmpa : Fld := ⟨0x0801, 2, 31, 16, .ro, 0xFFFF, 12, 3, 1⟩
/-- LEG.CMPB (R340). -/
def legCmpb : Fld := ⟨0x0801, 2, 15, 0, .ro, 0xFFFF, 12, 3, 1⟩
-- SO 0x0802: 12 words (R341)
/-- LEG.STATE (R341). -/
def legState : Fld := ⟨0x0802, 0, 31, 29, .ro, 0x0, 12, 1, 1⟩
/-- LEG.GH (R341). -/
def legGh : Fld := ⟨0x0802, 0, 28, 28, .ro, 0x0, 12, 1, 1⟩
/-- LEG.GL (R341). -/
def legGl : Fld := ⟨0x0802, 0, 27, 27, .ro, 0x0, 12, 1, 1⟩
/-- LEG.P (R341). -/
def legP : Fld := ⟨0x0802, 0, 26, 26, .ro, 0x0, 12, 1, 1⟩
/-- LEG.TRIPPED (R341). -/
def legTripped : Fld := ⟨0x0802, 0, 25, 25, .w1c, 0x0, 12, 1, 1⟩
/-- LEG.CUT (R341). -/
def legCut : Fld := ⟨0x0802, 0, 24, 24, .ro, 0x0, 12, 1, 1⟩
/-- LEG.DSAT_IN (R341). -/
def legDsatIn : Fld := ⟨0x0802, 0, 23, 23, .ro, 0x0, 12, 1, 1⟩
/-- LEG.CS_LIM_IN (R341). -/
def legCsLimIn : Fld := ⟨0x0802, 0, 22, 22, .ro, 0x0, 12, 1, 1⟩
/-- LEG.CS_SC_IN (R341). -/
def legCsScIn : Fld := ⟨0x0802, 0, 21, 21, .ro, 0x0, 12, 1, 1⟩
/-- LEG.PUMP (R341). -/
def legPump : Fld := ⟨0x0802, 0, 20, 20, .ro, 0x0, 12, 1, 1⟩
/-- LEG.INT_FLAGS (R341). -/
def legIntFlags : Fld := ⟨0x0802, 0, 19, 16, .w1c, 0x0, 12, 1, 1⟩
/-- LEG.TRIP_SRC (R341). -/
def legTripSrc : Fld := ⟨0x0802, 0, 15, 14, .ro, 0x0, 12, 1, 1⟩
/-- LEG.FORCE_EN (R341). -/
def legForceEn : Fld := ⟨0x0802, 0, 2, 2, .rw, 0x0, 12, 1, 1⟩
/-- LEG.FORCE_GH (R341). -/
def legForceGh : Fld := ⟨0x0802, 0, 1, 1, .rw, 0x0, 12, 1, 1⟩
/-- LEG.FORCE_GL (R341). -/
def legForceGl : Fld := ⟨0x0802, 0, 0, 0, .rw, 0x0, 12, 1, 1⟩
-- SO 0x0803: 36 words (R342)
/-- LEG.CUTS (R342). -/
def legCuts : Fld := ⟨0x0803, 0, 31, 0, .w1c, 0x0, 12, 3, 1⟩
/-- LEG.INTERLOCKS (R342). -/
def legInterlocks : Fld := ⟨0x0803, 1, 31, 0, .w1c, 0x0, 12, 3, 1⟩
/-- LEG.COUNT (R342). -/
def legCount : Fld := ⟨0x0803, 2, 31, 16, .ro, 0x0, 12, 3, 1⟩
/-- LEG.LAST_LEN (R342). -/
def legLastLen : Fld := ⟨0x0803, 2, 15, 0, .ro, 0x0, 12, 3, 1⟩
-- SO 0x0804: 5 words (R343)
/-- LEG.OV0_ON (R343). -/
def legOv0On : Fld := ⟨0x0804, 0, 31, 24, .rs, 0xFE, 1, 1, 1⟩
/-- LEG.OV0_OFF (R343). -/
def legOv0Off : Fld := ⟨0x0804, 0, 23, 16, .rs, 0xFD, 1, 1, 1⟩
/-- LEG.OV0_TRIP (R343). -/
def legOv0Trip : Fld := ⟨0x0804, 0, 15, 8, .rs, 0xFF, 1, 1, 1⟩
/-- LEG.OV0_EN (R343). -/
def legOv0En : Fld := ⟨0x0804, 0, 7, 7, .rs, 0x0, 1, 1, 1⟩
/-- LEG.OV0_BRK (R343). -/
def legOv0Brk : Fld := ⟨0x0804, 0, 6, 6, .rs, 0x0, 1, 1, 1⟩
/-- LEG.BRK_MIN_ON (R343). -/
def legBrkMinOn : Fld := ⟨0x0804, 2, 31, 16, .rs, 0x186A, 1, 1, 1⟩
/-- LEG.BRK_TAU (R343). -/
def legBrkTau : Fld := ⟨0x0804, 2, 7, 3, .rs, 0x10, 1, 1, 1⟩
/-- LEG.BRK_EN (R343). -/
def legBrkEn : Fld := ⟨0x0804, 2, 0, 0, .rs, 0x0, 1, 1, 1⟩
/-- LEG.BRK_HMAX (R343). -/
def legBrkHmax : Fld := ⟨0x0804, 3, 31, 0, .rs, 0x7A12, 1, 1, 1⟩
/-- LEG.BRK_HRES (R343). -/
def legBrkHres : Fld := ⟨0x0804, 4, 31, 0, .rs, 0x61A8, 1, 1, 1⟩
/-- LEG.OV1_ON (R343). -/
def legOv1On : Fld := ⟨0x0804, 1, 31, 24, .rs, 0xFE, 1, 1, 1⟩
/-- LEG.OV1_OFF (R343). -/
def legOv1Off : Fld := ⟨0x0804, 1, 23, 16, .rs, 0xFD, 1, 1, 1⟩
/-- LEG.OV1_TRIP (R343). -/
def legOv1Trip : Fld := ⟨0x0804, 1, 15, 8, .rs, 0xFF, 1, 1, 1⟩
/-- LEG.OV1_EN (R343). -/
def legOv1En : Fld := ⟨0x0804, 1, 7, 7, .rs, 0x0, 1, 1, 1⟩
/-- LEG.OV1_BRK (R343). -/
def legOv1Brk : Fld := ⟨0x0804, 1, 6, 6, .rs, 0x0, 1, 1, 1⟩
-- SO 0x0805: 3 words (R344)
/-- LEG.BRK_ON (R344). -/
def legBrkOn : Fld := ⟨0x0805, 0, 31, 31, .ro, 0x0, 1, 1, 1⟩
/-- LEG.BRK_INHIB (R344). -/
def legBrkInhib : Fld := ⟨0x0805, 0, 30, 30, .ro, 0x0, 1, 1, 1⟩
/-- LEG.OV0_ABOVE (R344). -/
def legOv0Above : Fld := ⟨0x0805, 0, 29, 29, .ro, 0x0, 1, 1, 1⟩
/-- LEG.OV1_ABOVE (R344). -/
def legOv1Above : Fld := ⟨0x0805, 0, 28, 28, .ro, 0x0, 1, 1, 1⟩
/-- LEG.OV_TRIPPED (R344). -/
def legOvTripped : Fld := ⟨0x0805, 0, 27, 27, .w1c, 0x0, 1, 1, 1⟩
/-- LEG.BRK_COUNT (R344). -/
def legBrkCount : Fld := ⟨0x0805, 0, 15, 0, .w1c, 0x0, 1, 1, 1⟩
/-- LEG.BRK_H_LO (R344). -/
def legBrkHLo : Fld := ⟨0x0805, 1, 31, 0, .ro, 0x0, 1, 1, 1⟩
/-- LEG.BRK_H_HI (R344). -/
def legBrkHHi : Fld := ⟨0x0805, 2, 15, 0, .ro, 0x0, 1, 1, 1⟩
-- SO 0x0900: 96 words (R308)
/-- HMP.U_POP (R308). -/
def hmpUPop : Fld := ⟨0x0900, 0, 31, 31, .rs, 0x0, 96, 1, 1⟩
/-- HMP.U_INARM (R308). -/
def hmpUInarm : Fld := ⟨0x0900, 0, 30, 30, .rs, 0x0, 96, 1, 1⟩
/-- HMP.U_ARM (R308). -/
def hmpUArm : Fld := ⟨0x0900, 0, 26, 24, .rs, 0x0, 96, 1, 1⟩
-- SO 0x0901: 8 words (R308)
/-- HMP.REDUND (R308). -/
def hmpRedund : Fld := ⟨0x0901, 0, 31, 24, .rs, 0x0, 8, 1, 1⟩
/-- HMP.MIN_CELLS (R308). -/
def hmpMinCells : Fld := ⟨0x0901, 0, 23, 16, .rs, 0x0, 8, 1, 1⟩
-- SO 0x0902: 10 words (R309)
/-- HMP.WV (R309). -/
def hmpWv : Fld := ⟨0x0902, 0, 31, 0, .rs, 0x10000000, 1, 1, 1⟩
/-- HMP.WT (R309). -/
def hmpWt : Fld := ⟨0x0902, 1, 31, 0, .rs, 0x0, 1, 1, 1⟩
/-- HMP.WW (R309). -/
def hmpWw : Fld := ⟨0x0902, 2, 31, 0, .rs, 0x0, 1, 1, 1⟩
/-- HMP.SPREAD (R309). -/
def hmpSpread : Fld := ⟨0x0902, 3, 31, 0, .rs, 0x0, 1, 1, 1⟩
/-- HMP.KD_BAL (R309). -/
def hmpKdBal : Fld := ⟨0x0902, 4, 31, 0, .rs, 0x0, 1, 1, 1⟩
/-- HMP.DTRIM_MAX (R309). -/
def hmpDtrimMax : Fld := ⟨0x0902, 5, 31, 0, .rs, 0x0, 1, 1, 1⟩
/-- HMP.V_BAND (R309). -/
def hmpVBand : Fld := ⟨0x0902, 6, 31, 0, .rs, 0xCCCCD, 1, 1, 1⟩
/-- HMP.P_DEAD (R309). -/
def hmpPDead : Fld := ⟨0x0902, 7, 31, 0, .rs, 0x28F5C, 1, 1, 1⟩
/-- HMP.K_STRIDE (R309). -/
def hmpKStride : Fld := ⟨0x0902, 8, 31, 24, .rs, 0x1, 1, 1, 1⟩
/-- HMP.D_FLOOR (R309). -/
def hmpDFloor : Fld := ⟨0x0902, 9, 31, 0, .rs, 0x28F5C, 1, 1, 1⟩
-- SO 0x0903: 5 words (R310)
/-- HMP.SORT_CYC (R310). -/
def hmpSortCyc : Fld := ⟨0x0903, 0, 31, 24, .ro, 0x0, 1, 1, 1⟩
/-- HMP.ARM_OOB (R310). -/
def hmpArmOob : Fld := ⟨0x0903, 0, 23, 16, .ro, 0x0, 1, 1, 1⟩
/-- HMP.ARM_SHORT (R310). -/
def hmpArmShort : Fld := ⟨0x0903, 0, 15, 8, .ro, 0x0, 1, 1, 1⟩
/-- HMP.ARM_FLOOR (R310). -/
def hmpArmFloor : Fld := ⟨0x0903, 0, 7, 0, .ro, 0x0, 1, 1, 1⟩
/-- HMP.PUB_CYCLE (R310). -/
def hmpPubCycle : Fld := ⟨0x0903, 1, 31, 0, .ro, 0x0, 1, 1, 1⟩
/-- HMP.LEDGER_STATE (R310). -/
def hmpLedgerState : Fld := ⟨0x0903, 2, 31, 30, .ro, 0x0, 1, 1, 1⟩
/-- HMP.CKPT_SECTOR (R310). -/
def hmpCkptSector : Fld := ⟨0x0903, 2, 29, 26, .ro, 0x0, 1, 1, 1⟩
/-- HMP.CKPT_BUSY (R310). -/
def hmpCkptBusy : Fld := ⟨0x0903, 2, 25, 25, .ro, 0x0, 1, 1, 1⟩
/-- HMP.CKPT_FAIL (R310). -/
def hmpCkptFail : Fld := ⟨0x0903, 2, 24, 24, .w1c, 0x0, 1, 1, 1⟩
/-- HMP.RESTORE_NONE (R310). -/
def hmpRestoreNone : Fld := ⟨0x0903, 2, 23, 23, .ro, 0x0, 1, 1, 1⟩
/-- HMP.CKPT_SEQ (R310). -/
def hmpCkptSeq : Fld := ⟨0x0903, 3, 31, 0, .ro, 0x0, 1, 1, 1⟩
/-- HMP.CKPT_AGE (R310). -/
def hmpCkptAge : Fld := ⟨0x0903, 4, 31, 16, .ro, 0x0, 1, 1, 1⟩
/-- HMP.PLACE_CHANGES (R310). -/
def hmpPlaceChanges : Fld := ⟨0x0903, 4, 15, 0, .w1c, 0x0, 1, 1, 1⟩
-- SO 0x0904: 96 words (R311)
/-- HMP.C_KIDX (R311). -/
def hmpCKidx : Fld := ⟨0x0904, 0, 31, 24, .ro, 0x0, 96, 1, 1⟩
/-- HMP.C_JIDX (R311). -/
def hmpCJidx : Fld := ⟨0x0904, 0, 23, 16, .ro, 0x0, 96, 1, 1⟩
/-- HMP.C_RANK2 (R311). -/
def hmpCRank2 : Fld := ⟨0x0904, 0, 15, 8, .ro, 0x0, 96, 1, 1⟩
/-- HMP.C_IN (R311). -/
def hmpCIn : Fld := ⟨0x0904, 0, 0, 0, .ro, 0x0, 96, 1, 1⟩
-- SO 0x0905: 288 words (R311)
/-- HMP.C_SHARE (R311). -/
def hmpCShare : Fld := ⟨0x0905, 0, 31, 0, .ro, 0x0, 96, 3, 1⟩
/-- HMP.C_TRIM (R311). -/
def hmpCTrim : Fld := ⟨0x0905, 1, 31, 0, .ro, 0x0, 96, 3, 1⟩
/-- HMP.C_SCORE (R311). -/
def hmpCScore : Fld := ⟨0x0905, 2, 31, 0, .ro, 0x0, 96, 3, 1⟩
-- SO 0x0906: 256 words (R312)
/-- HMP.P_PLACED (R312). -/
def hmpPPlaced : Fld := ⟨0x0906, 0, 31, 31, .ro, 0x0, 256, 1, 1⟩
/-- HMP.P_ENGINE (R312). -/
def hmpPEngine : Fld := ⟨0x0906, 0, 30, 28, .ro, 0x0, 256, 1, 1⟩
/-- HMP.P_ORDER (R312). -/
def hmpPOrder : Fld := ⟨0x0906, 0, 27, 20, .ro, 0x0, 256, 1, 1⟩
/-- HMP.P_START (R312). -/
def hmpPStart : Fld := ⟨0x0906, 0, 15, 0, .ro, 0x0, 256, 1, 1⟩
-- SO 0x0907: 64 words (R312)
/-- HMP.Q_CHUNKS (R312). -/
def hmpQChunks : Fld := ⟨0x0907, 0, 31, 16, .ro, 0x0, 64, 1, 1⟩
/-- HMP.Q_PEAK (R312). -/
def hmpQPeak : Fld := ⟨0x0907, 0, 15, 0, .w1c, 0x0, 64, 1, 1⟩
-- SO 0x0908: 8192 words (R312)
/-- HMP.K_USED (R312). -/
def hmpKUsed : Fld := ⟨0x0908, 0, 31, 31, .ro, 0x0, 8192, 1, 1⟩
/-- HMP.K_QUEUE (R312). -/
def hmpKQueue : Fld := ⟨0x0908, 0, 23, 16, .ro, 0x0, 8192, 1, 1⟩
/-- HMP.K_POS (R312). -/
def hmpKPos : Fld := ⟨0x0908, 0, 15, 0, .ro, 0x0, 8192, 1, 1⟩
-- SO 0x0910: 4 words (R313)
/-- HMP.TW_DT (R313). -/
def hmpTwDt : Fld := ⟨0x0910, 0, 31, 24, .rs, 0x14, 1, 1, 1⟩
/-- HMP.TW_HYST (R313). -/
def hmpTwHyst : Fld := ⟨0x0910, 0, 23, 16, .rs, 0x4, 1, 1, 1⟩
/-- HMP.TW_TMW (R313). -/
def hmpTwTmw : Fld := ⟨0x0910, 0, 15, 8, .rs, 0x3C, 1, 1, 1⟩
/-- HMP.TW_TMB (R313). -/
def hmpTwTmb : Fld := ⟨0x0910, 0, 7, 0, .rs, 0x19, 1, 1, 1⟩
/-- HMP.TW_EN (R313). -/
def hmpTwEn : Fld := ⟨0x0910, 1, 31, 31, .rs, 0x1, 1, 1, 1⟩
/-- HMP.CKPT_HOURS (R313). -/
def hmpCkptHours : Fld := ⟨0x0910, 1, 15, 8, .rs, 0x18, 1, 1, 1⟩
/-- HMP.CKPT_NOW (R313). -/
def hmpCkptNow : Fld := ⟨0x0910, 1, 0, 0, .we, 0x0, 1, 1, 1⟩
/-- HMP.LEDGER_CLR act (R313). -/
def hmpLedgerClrAct : Fld := ⟨0x0910, 2, 31, 31, .we, 0x0, 1, 1, 1⟩
/-- HMP.LEDGER_CLR slot (R313). -/
def hmpLedgerClrSlot : Fld := ⟨0x0910, 2, 6, 0, .we, 0x0, 1, 1, 1⟩
/-- HMP.D_WARN (R313). -/
def hmpDWarn : Fld := ⟨0x0910, 3, 31, 0, .rs, 0xCCCCCD, 1, 1, 1⟩
-- SO 0x0911: 128 words (R314)
/-- HMP.DT_ENTRY (R314). -/
def hmpDtEntry : Fld := ⟨0x0911, 0, 23, 0, .rs, 0x0, 128, 1, 1⟩
-- SO 0x0912: 384 words (R314)
/-- HMP.DMG_LO (R314). -/
def hmpDmgLo : Fld := ⟨0x0912, 0, 31, 0, .ro, 0x0, 96, 4, 1⟩
/-- HMP.DMG_HI (R314). -/
def hmpDmgHi : Fld := ⟨0x0912, 1, 31, 0, .ro, 0x0, 96, 4, 1⟩
/-- HMP.CELL_TAG (R314). -/
def hmpCellTag : Fld := ⟨0x0912, 2, 31, 0, .we, 0x0, 96, 4, 1⟩
/-- HMP.L_SAT (R314). -/
def hmpLSat : Fld := ⟨0x0912, 3, 31, 31, .w1c, 0x0, 96, 4, 1⟩
/-- HMP.L_WARN (R314). -/
def hmpLWarn : Fld := ⟨0x0912, 3, 30, 30, .ro, 0x0, 96, 4, 1⟩
/-- HMP.L_DEPTH (R314). -/
def hmpLDepth : Fld := ⟨0x0912, 3, 29, 24, .ro, 0x0, 96, 4, 1⟩
-- SO 0x0A00: 128 words (R314)
/-- HMP.TALLOW (R314). -/
def hmpTallow : Fld := ⟨0x0A00, 0, 31, 0, .ro, 0x0, 128, 1, 96⟩
-- SO 0x0B00: 128 words (R357)
/-- MEAS.EN (R357). -/
def measEn : Fld := ⟨0x0B00, 0, 31, 31, .rs, 0x0, 32, 4, 1⟩
/-- MEAS.ORDER (R357). -/
def measOrder : Fld := ⟨0x0B00, 0, 30, 30, .rs, 0x0, 32, 4, 1⟩
/-- MEAS.EDGE (R357). -/
def measEdge : Fld := ⟨0x0B00, 0, 29, 29, .rs, 0x0, 32, 4, 1⟩
/-- MEAS.FP_EN (R357). -/
def measFpEn : Fld := ⟨0x0B00, 0, 28, 28, .rs, 0x0, 32, 4, 1⟩
/-- MEAS.OC_CNT (R357). -/
def measOcCnt : Fld := ⟨0x0B00, 0, 27, 26, .rs, 0x0, 32, 4, 1⟩
/-- MEAS.OSR (R357). -/
def measOsr : Fld := ⟨0x0B00, 0, 24, 16, .rs, 0x14, 32, 4, 1⟩
/-- MEAS.FP_OSR (R357). -/
def measFpOsr : Fld := ⟨0x0B00, 0, 15, 11, .rs, 0x8, 32, 4, 1⟩
/-- MEAS.SKEW (R357). -/
def measSkew : Fld := ⟨0x0B00, 0, 10, 0, .rs, 0x0, 32, 4, 1⟩
/-- MEAS.SCALE (R357). -/
def measScale : Fld := ⟨0x0B00, 1, 31, 0, .rs, 0x1000000, 32, 4, 1⟩
/-- MEAS.OC_HI (R357). -/
def measOcHi : Fld := ⟨0x0B00, 2, 31, 0, .rs, 0x7FFFFFFF, 32, 4, 1⟩
/-- MEAS.OC_LO (R357). -/
def measOcLo : Fld := ⟨0x0B00, 3, 31, 0, .rs, 0x80000000, 32, 4, 1⟩
-- SO 0x0B01: 32 words (R358)
/-- MEAS.VALID (R358). -/
def measValid : Fld := ⟨0x0B01, 0, 31, 31, .ro, 0x0, 32, 1, 1⟩
/-- MEAS.HELD (R358). -/
def measHeld : Fld := ⟨0x0B01, 0, 30, 30, .ro, 0x0, 32, 1, 1⟩
/-- MEAS.OC (R358). -/
def measOc : Fld := ⟨0x0B01, 0, 29, 29, .w1c, 0x0, 32, 1, 1⟩
/-- MEAS.SAT (R358). -/
def measSat : Fld := ⟨0x0B01, 0, 28, 28, .w1c, 0x0, 32, 1, 1⟩
/-- MEAS.OC_IN (R358). -/
def measOcIn : Fld := ⟨0x0B01, 0, 27, 27, .ro, 0x0, 32, 1, 1⟩
/-- MEAS.OUT_COUNT (R358). -/
def measOutCount : Fld := ⟨0x0B01, 0, 15, 0, .ro, 0x0, 32, 1, 1⟩
-- SO 0x0B02: 160 words (R358)
/-- MEAS.OUT (R358). -/
def measOut : Fld := ⟨0x0B02, 0, 31, 0, .ro, 0x0, 32, 5, 1⟩
/-- MEAS.RAW (R358). -/
def measRaw : Fld := ⟨0x0B02, 1, 31, 0, .ro, 0x0, 32, 5, 1⟩
/-- MEAS.FP_OUT (R358). -/
def measFpOut : Fld := ⟨0x0B02, 2, 31, 0, .ro, 0x0, 32, 5, 1⟩
/-- MEAS.AT_LO (R358). -/
def measAtLo : Fld := ⟨0x0B02, 3, 31, 0, .ro, 0x0, 32, 5, 1⟩
/-- MEAS.AT_HI (R358). -/
def measAtHi : Fld := ⟨0x0B02, 4, 31, 0, .ro, 0x0, 32, 5, 1⟩
-- SO 0x0B10: 16 words (R359)
/-- MEAS.SET_FIRST (R359). -/
def measSetFirst : Fld := ⟨0x0B10, 0, 15, 8, .rs, 0x0, 16, 1, 1⟩
/-- MEAS.SET_LAST (R359). -/
def measSetLast : Fld := ⟨0x0B10, 0, 7, 0, .rs, 0x0, 16, 1, 1⟩
-- SO 0x0B11: 1 words (R359)
/-- MEAS.CS_BAD (R359). -/
def measCsBad : Fld := ⟨0x0B11, 0, 31, 0, .w1c, 0x0, 1, 1, 1⟩
-- SO 0x0C00: 3 words (R360)
/-- CAL.BUSY (R360). -/
def calBusy : Fld := ⟨0x0C00, 0, 31, 31, .ro, 0x0, 1, 1, 1⟩
/-- CAL.BUSY_PAGE (R360). -/
def calBusyPage : Fld := ⟨0x0C00, 0, 30, 25, .ro, 0x0, 1, 1, 1⟩
/-- CAL.LAST_PAGE (R360). -/
def calLastPage : Fld := ⟨0x0C00, 0, 24, 19, .ro, 0x0, 1, 1, 1⟩
/-- CAL.WRITES (R360). -/
def calWrites : Fld := ⟨0x0C00, 0, 15, 0, .ro, 0x0, 1, 1, 1⟩
/-- CAL.PAGE_BAD (R360). -/
def calPageBad : Fld := ⟨0x0C00, 1, 31, 0, .ro, 0x0, 2, 1, 1⟩
-- SO 0x0D00: 3 words (R373)
/-- GRP.NODE_ADDR (R373). -/
def grpNodeAddr : Fld := ⟨0x0D00, 0, 31, 16, .rs, 0x0, 1, 1, 1⟩
/-- GRP.STATE_INT (R373). -/
def grpStateInt : Fld := ⟨0x0D00, 0, 15, 8, .rs, 0x28, 1, 1, 1⟩
/-- GRP.U_LOST_ACT (R373). -/
def grpULostAct : Fld := ⟨0x0D00, 0, 1, 0, .rs, 0x1, 1, 1, 1⟩
/-- GRP.U_HOLD (R373). -/
def grpUHold : Fld := ⟨0x0D00, 1, 31, 16, .rs, 0x64, 1, 1, 1⟩
/-- GRP.CHILD_TO (R373). -/
def grpChildTo : Fld := ⟨0x0D00, 1, 15, 8, .rs, 0x4, 1, 1, 1⟩
/-- GRP.RETURN_RAMP (R373). -/
def grpReturnRamp : Fld := ⟨0x0D00, 1, 7, 0, .rs, 0x28, 1, 1, 1⟩
/-- GRP.BASE (R373). -/
def grpBase : Fld := ⟨0x0D00, 2, 31, 0, .rs, 0x0, 1, 1, 1⟩
-- SO 0x0D01: 8 words (R374)
/-- GRP.D_LO (R374). -/
def grpDLo : Fld := ⟨0x0D01, 0, 31, 16, .rs, 0x0, 4, 2, 1⟩
/-- GRP.D_HI (R374). -/
def grpDHi : Fld := ⟨0x0D01, 0, 15, 0, .rs, 0x0, 4, 2, 1⟩
/-- GRP.D_BASE (R374). -/
def grpDBase : Fld := ⟨0x0D01, 1, 31, 0, .rs, 0x0, 4, 2, 1⟩
-- SO 0x0D02: 5 words (R375)
/-- GRP.U_STATE (R375). -/
def grpUState : Fld := ⟨0x0D02, 0, 31, 29, .ro, 0x0, 1, 1, 1⟩
/-- GRP.PARENT_LOST (R375). -/
def grpParentLost : Fld := ⟨0x0D02, 0, 28, 28, .w1c, 0x0, 1, 1, 1⟩
/-- GRP.CMD_STALE (R375). -/
def grpCmdStale : Fld := ⟨0x0D02, 0, 23, 16, .w1c, 0x0, 1, 1, 1⟩
/-- GRP.ROUTE_MISS (R375). -/
def grpRouteMiss : Fld := ⟨0x0D02, 0, 15, 0, .w1c, 0x0, 1, 1, 1⟩
/-- GRP.D_STATE (R375). -/
def grpDState : Fld := ⟨0x0D02, 1, 31, 29, .ro, 0x0, 4, 1, 1⟩
/-- GRP.D_CAP (R375). -/
def grpDCap : Fld := ⟨0x0D02, 1, 28, 27, .ro, 0x0, 4, 1, 1⟩
/-- GRP.D_HEALTH (R375). -/
def grpDHealth : Fld := ⟨0x0D02, 1, 26, 24, .ro, 0x0, 4, 1, 1⟩
/-- GRP.D_HEALTHY (R375). -/
def grpDHealthy : Fld := ⟨0x0D02, 1, 23, 16, .ro, 0x0, 4, 1, 1⟩
/-- GRP.D_TOTAL (R375). -/
def grpDTotal : Fld := ⟨0x0D02, 1, 15, 8, .ro, 0x0, 4, 1, 1⟩
/-- GRP.D_LOSSES (R375). -/
def grpDLosses : Fld := ⟨0x0D02, 1, 7, 0, .w1c, 0x0, 4, 1, 1⟩
-- SO 0x0D03: 6 words (R376)
/-- GRP.REP_HI (R376). -/
def grpRepHi : Fld := ⟨0x0D03, 0, 31, 16, .rs, 0x0, 6, 1, 1⟩
/-- GRP.REP_LO (R376). -/
def grpRepLo : Fld := ⟨0x0D03, 0, 15, 0, .rs, 0x0, 6, 1, 1⟩
-- SO 0x0D10: 15 words (R376)
/-- GRP.MB_AT (R376). -/
def grpMbAt : Fld := ⟨0x0D10, 0, 31, 0, .we, 0x0, 2, 1, 1⟩
/-- GRP.MB_SEQ (R376). -/
def grpMbSeq : Fld := ⟨0x0D10, 2, 31, 0, .we, 0x0, 1, 1, 1⟩
/-- GRP.MB_PRESENT (R376). -/
def grpMbPresent : Fld := ⟨0x0D10, 3, 15, 0, .we, 0x0, 1, 1, 1⟩
/-- GRP.MB_Q (R376). -/
def grpMbQ : Fld := ⟨0x0D10, 4, 31, 0, .we, 0x0, 11, 1, 1⟩
-- SO 0x0D11: 15 words (R376)
/-- GRP.CF_AT (R376). -/
def grpCfAt : Fld := ⟨0x0D11, 0, 31, 0, .ro, 0x0, 2, 1, 1⟩
/-- GRP.CF_SEQ (R376). -/
def grpCfSeq : Fld := ⟨0x0D11, 2, 31, 0, .ro, 0x0, 1, 1, 1⟩
/-- GRP.CF_PRESENT (R376). -/
def grpCfPresent : Fld := ⟨0x0D11, 3, 15, 0, .ro, 0x0, 1, 1, 1⟩
/-- GRP.CF_Q (R376). -/
def grpCfQ : Fld := ⟨0x0D11, 4, 31, 0, .ro, 0x0, 11, 1, 1⟩
-- SO 0x0D12: 16 words (R376)
/-- GRP.LAST_STATE (R376). -/
def grpLastState : Fld := ⟨0x0D12, 0, 31, 0, .ro, 0x0, 16, 1, 1⟩
-- SO 0x0D13: 64 words (R376)
/-- GRP.D_REP (R376). -/
def grpDRep : Fld := ⟨0x0D13, 0, 31, 0, .ro, 0x0, 64, 1, 1⟩
-- SO 0x0E00: 1 words (R399)
/-- TWIN.PAIRED (R399). -/
def twinPaired : Fld := ⟨0x0E00, 0, 31, 31, .rs, 0x0, 1, 1, 1⟩
/-- TWIN.INDEX (R399). -/
def twinIndex : Fld := ⟨0x0E00, 0, 30, 30, .rs, 0x0, 1, 1, 1⟩
/-- TWIN.LEASE (R399). -/
def twinLease : Fld := ⟨0x0E00, 0, 22, 16, .rs, 0x4, 1, 1, 1⟩
-- SO 0x0E01: 8 words (R400)
/-- TWIN.ROLE (R400). -/
def twinRole : Fld := ⟨0x0E01, 0, 31, 29, .ro, 0x0, 1, 1, 1⟩
/-- TWIN.ELIGIBLE (R400). -/
def twinEligible : Fld := ⟨0x0E01, 0, 28, 28, .ro, 0x0, 1, 1, 1⟩
/-- TWIN.GEN_MATCH (R400). -/
def twinGenMatch : Fld := ⟨0x0E01, 0, 27, 27, .ro, 0x0, 1, 1, 1⟩
/-- TWIN.SELFTEST_OK (R400). -/
def twinSelftestOk : Fld := ⟨0x0E01, 0, 26, 26, .ro, 0x0, 1, 1, 1⟩
/-- TWIN.DIVERGED (R400). -/
def twinDiverged : Fld := ⟨0x0E01, 0, 25, 25, .w1c, 0x0, 1, 1, 1⟩
/-- TWIN.COPY_FULL (R400). -/
def twinCopyFull : Fld := ⟨0x0E01, 0, 24, 24, .ro, 0x0, 1, 1, 1⟩
/-- TWIN.U_HOLDER (R400). -/
def twinUHolder : Fld := ⟨0x0E01, 0, 23, 23, .ro, 0x0, 1, 1, 1⟩
/-- TWIN.DIV_RUN (R400). -/
def twinDivRun : Fld := ⟨0x0E01, 0, 22, 21, .ro, 0x0, 1, 1, 1⟩
/-- TWIN.PARTNER_ROLE (R400). -/
def twinPartnerRole : Fld := ⟨0x0E01, 0, 20, 18, .ro, 0x0, 1, 1, 1⟩
/-- TWIN.TAKEOVERS (R400). -/
def twinTakeovers : Fld := ⟨0x0E01, 0, 15, 0, .w1c, 0x0, 1, 1, 1⟩
/-- TWIN.EPOCH (R400). -/
def twinEpoch : Fld := ⟨0x0E01, 1, 31, 0, .ro, 0x0, 1, 1, 1⟩
/-- TWIN.EXPIRY_LO (R400). -/
def twinExpiryLo : Fld := ⟨0x0E01, 2, 31, 0, .ro, 0x0, 1, 1, 1⟩
/-- TWIN.EXPIRY_HI (R400). -/
def twinExpiryHi : Fld := ⟨0x0E01, 3, 31, 0, .ro, 0x0, 1, 1, 1⟩
/-- TWIN.FLAME_GEN (R400). -/
def twinFlameGen : Fld := ⟨0x0E01, 4, 31, 0, .ro, 0x0, 1, 1, 1⟩
/-- TWIN.CFG_SUM (R400). -/
def twinCfgSum : Fld := ⟨0x0E01, 5, 31, 0, .ro, 0x0, 1, 1, 1⟩
/-- TWIN.FLAME_SUM (R400). -/
def twinFlameSum : Fld := ⟨0x0E01, 6, 31, 0, .ro, 0x0, 1, 1, 1⟩
/-- TWIN.PILOT_AT (R400). -/
def twinPilotAt : Fld := ⟨0x0E01, 7, 31, 0, .ro, 0x0, 1, 1, 1⟩
-- SO 0x0E02: 6 words (R401)
/-- TWIN.COMPARED (R401). -/
def twinCompared : Fld := ⟨0x0E02, 0, 31, 0, .w1c, 0x0, 1, 1, 1⟩
/-- TWIN.MISMATCH (R401). -/
def twinMismatch : Fld := ⟨0x0E02, 1, 31, 0, .w1c, 0x0, 1, 1, 1⟩
/-- TWIN.UNVERIFIABLE (R401). -/
def twinUnverifiable : Fld := ⟨0x0E02, 2, 31, 0, .w1c, 0x0, 1, 1, 1⟩
/-- TWIN.COPY_MISSED (R401). -/
def twinCopyMissed : Fld := ⟨0x0E02, 3, 31, 0, .w1c, 0x0, 1, 1, 1⟩
/-- TWIN.DIVERGENCES (R401). -/
def twinDivergences : Fld := ⟨0x0E02, 4, 31, 0, .w1c, 0x0, 1, 1, 1⟩
/-- TWIN.SLICE_FAIL (R401). -/
def twinSliceFail : Fld := ⟨0x0E02, 5, 31, 0, .w1c, 0x0, 1, 1, 1⟩
-- SO 0x0E03: 48 words (R401)
/-- TWIN.L_MISMATCH (R401). -/
def twinLMismatch : Fld := ⟨0x0E03, 0, 31, 0, .w1c, 0x0, 48, 1, 1⟩
-- SO 0x0F00: 32 words (R420)
/-- FLT.SET (R420). -/
def fltSet : Fld := ⟨0x0F00, 0, 31, 31, .ro, 0x0, 32, 1, 1⟩
/-- FLT.LEVEL (R420). -/
def fltLevel : Fld := ⟨0x0F00, 0, 30, 28, .ro, 0x0, 32, 1, 1⟩
/-- FLT.ACKED (R420). -/
def fltAcked : Fld := ⟨0x0F00, 0, 27, 27, .ro, 0x0, 32, 1, 1⟩
/-- FLT.CAUSE (R420). -/
def fltCause : Fld := ⟨0x0F00, 0, 26, 26, .ro, 0x0, 32, 1, 1⟩
/-- FLT.AT_CEIL (R420). -/
def fltAtCeil : Fld := ⟨0x0F00, 0, 25, 25, .ro, 0x0, 32, 1, 1⟩
/-- FLT.ESCALATIONS (R420). -/
def fltEscalations : Fld := ⟨0x0F00, 0, 23, 16, .ro, 0x0, 32, 1, 1⟩
/-- FLT.RAISES (R420). -/
def fltRaises : Fld := ⟨0x0F00, 0, 15, 0, .w1c, 0x0, 32, 1, 1⟩
-- SO 0x0F01: 128 words (R421)
/-- FLT.MASK (R421). -/
def fltMask : Fld := ⟨0x0F01, 0, 31, 0, .ro, 0x0, 128, 1, 1⟩
-- SO 0x0F02: 128 words (R421)
/-- FLT.ACTIVE (R421). -/
def fltActive : Fld := ⟨0x0F02, 0, 31, 0, .ro, 0x0, 128, 1, 1⟩
-- SO 0x0F03: 32 words (R422)
/-- FLT.BASE (R422). -/
def fltBase : Fld := ⟨0x0F03, 0, 6, 4, .rs, 0x0, 32, 1, 1⟩
/-- FLT.CEIL (R422). -/
def fltCeil : Fld := ⟨0x0F03, 0, 2, 0, .rs, 0x0, 32, 1, 1⟩
-- SO 0x0F04: 4 words (R423)
/-- FLT.ANY (R423). -/
def fltAny : Fld := ⟨0x0F04, 0, 31, 31, .ro, 0x0, 1, 1, 1⟩
/-- FLT.TOP (R423). -/
def fltTop : Fld := ⟨0x0F04, 0, 30, 28, .ro, 0x0, 1, 1, 1⟩
/-- FLT.OUT_LOW (R423). -/
def fltOutLow : Fld := ⟨0x0F04, 0, 27, 27, .ro, 0x1, 1, 1, 1⟩
/-- FLT.COLL_ERR (R423). -/
def fltCollErr : Fld := ⟨0x0F04, 0, 26, 26, .w1c, 0x0, 1, 1, 1⟩
/-- FLT.EVC_ARM (R423). -/
def fltEvcArm : Fld := ⟨0x0F04, 0, 25, 25, .we, 0x0, 1, 1, 1⟩
/-- FLT.HIST_FILL (R423). -/
def fltHistFill : Fld := ⟨0x0F04, 0, 13, 8, .ro, 0x0, 1, 1, 1⟩
/-- FLT.CORR (R423). -/
def fltCorr : Fld := ⟨0x0F04, 0, 7, 0, .w1c, 0x0, 1, 1, 1⟩
/-- FLT.HIST_SEQ (R423). -/
def fltHistSeq : Fld := ⟨0x0F04, 1, 31, 0, .ro, 0x0, 1, 1, 1⟩
/-- FLT.HIST_BOOT (R423). -/
def fltHistBoot : Fld := ⟨0x0F04, 2, 31, 0, .ro, 0x0, 1, 1, 1⟩
/-- FLT.NOTICE_LOST (R423). -/
def fltNoticeLost : Fld := ⟨0x0F04, 3, 31, 0, .w1c, 0x0, 1, 1, 1⟩
-- SO 0x0F08: 320 words (R424)
/-- FLT.HIST (R424). -/
def fltHist : Fld := ⟨0x0F08, 0, 31, 0, .ro, 0x0, 320, 1, 1⟩
-- SO 0x0F10: 256 words (R425)
/-- FLT.R_COMMIT (R425). -/
def fltRCommit : Fld := ⟨0x0F10, 0, 7, 7, .rs, 0x0, 256, 1, 1⟩
/-- FLT.R_ACQ (R425). -/
def fltRAcq : Fld := ⟨0x0F10, 0, 6, 6, .rs, 0x0, 256, 1, 1⟩
/-- FLT.R_UP (R425). -/
def fltRUp : Fld := ⟨0x0F10, 0, 5, 5, .rs, 0x0, 256, 1, 1⟩
/-- FLT.R_TWIN (R425). -/
def fltRTwin : Fld := ⟨0x0F10, 0, 4, 4, .rs, 0x0, 256, 1, 1⟩
/-- FLT.R_IRQ (R425). -/
def fltRIrq : Fld := ⟨0x0F10, 0, 3, 0, .rs, 0x0, 256, 1, 1⟩
-- SO 0x0F20: 8 words (R425)
/-- FLT.EV_PEND (R425). -/
def fltEvPend : Fld := ⟨0x0F20, 0, 31, 0, .w1c, 0x0, 8, 1, 1⟩
-- SO 0x1000: 4 words (R447)
/-- SAFE.GUARD_FILT (R447). -/
def safeGuardFilt : Fld := ⟨0x1000, 0, 31, 24, .rs, 0x1, 1, 1, 1⟩
/-- SAFE.DISC_MS (R447). -/
def safeDiscMs : Fld := ⟨0x1000, 0, 23, 16, .rs, 0x32, 1, 1, 1⟩
/-- SAFE.GUARD_HOLD (R447). -/
def safeGuardHold : Fld := ⟨0x1000, 0, 15, 8, .rs, 0xA, 1, 1, 1⟩
/-- SAFE.TEST_HOURS (R447). -/
def safeTestHours : Fld := ⟨0x1000, 0, 7, 0, .rs, 0x18, 1, 1, 1⟩
/-- SAFE.TRIP_MAX (R447). -/
def safeTripMax : Fld := ⟨0x1000, 1, 31, 16, .rs, 0x0, 1, 1, 1⟩
/-- SAFE.TRIP_HOLD (R447). -/
def safeTripHold : Fld := ⟨0x1000, 1, 15, 8, .rs, 0x14, 1, 1, 1⟩
/-- SAFE.CLOSE_MS (R447). -/
def safeCloseMs : Fld := ⟨0x1000, 1, 7, 0, .rs, 0x14, 1, 1, 1⟩
/-- SAFE.TEST_US (R447). -/
def safeTestUs : Fld := ⟨0x1000, 2, 31, 24, .rs, 0x14, 1, 1, 1⟩
/-- SAFE.FB_US (R447). -/
def safeFbUs : Fld := ⟨0x1000, 2, 23, 16, .rs, 0xA, 1, 1, 1⟩
/-- SAFE.LVC_MS (R447). -/
def safeLvcMs : Fld := ⟨0x1000, 2, 15, 8, .rs, 0xA, 1, 1, 1⟩
/-- SAFE.LVC_USED (R447). -/
def safeLvcUsed : Fld := ⟨0x1000, 2, 7, 4, .rs, 0x0, 1, 1, 1⟩
/-- SAFE.ACK_WIN (R447). -/
def safeAckWin : Fld := ⟨0x1000, 3, 31, 16, .rs, 0x3C, 1, 1, 1⟩
-- SO 0x1001: 5 words (R448)
/-- SAFE.GUARD_CLOSED (R448). -/
def safeGuardClosed : Fld := ⟨0x1001, 0, 31, 31, .ro, 0x0, 1, 1, 1⟩
/-- SAFE.GUARD_A (R448). -/
def safeGuardA : Fld := ⟨0x1001, 0, 30, 30, .ro, 0x0, 1, 1, 1⟩
/-- SAFE.GUARD_B (R448). -/
def safeGuardB : Fld := ⟨0x1001, 0, 29, 29, .ro, 0x0, 1, 1, 1⟩
/-- SAFE.RST_IN (R448). -/
def safeRstIn : Fld := ⟨0x1001, 0, 28, 28, .ro, 0x0, 1, 1, 1⟩
/-- SAFE.EDGE_VALID (R448). -/
def safeEdgeValid : Fld := ⟨0x1001, 0, 27, 27, .ro, 0x0, 1, 1, 1⟩
/-- SAFE.TRIP_ACTIVE (R448). -/
def safeTripActive : Fld := ⟨0x1001, 0, 26, 26, .ro, 0x0, 1, 1, 1⟩
/-- SAFE.CLOSE_ACTIVE (R448). -/
def safeCloseActive : Fld := ⟨0x1001, 0, 25, 25, .ro, 0x0, 1, 1, 1⟩
/-- SAFE.BKR_CLOSED (R448). -/
def safeBkrClosed : Fld := ⟨0x1001, 0, 24, 24, .ro, 0x0, 1, 1, 1⟩
/-- SAFE.SW_OUT (R448). -/
def safeSwOut : Fld := ⟨0x1001, 0, 23, 20, .ro, 0x0, 1, 1, 1⟩
/-- SAFE.SW_FB (R448). -/
def safeSwFb : Fld := ⟨0x1001, 0, 19, 16, .ro, 0x0, 1, 1, 1⟩
/-- SAFE.SW_OK (R448). -/
def safeSwOk : Fld := ⟨0x1001, 0, 15, 12, .ro, 0x0, 1, 1, 1⟩
/-- SAFE.TEST_PEND (R448). -/
def safeTestPend : Fld := ⟨0x1001, 0, 11, 11, .ro, 0x1, 1, 1, 1⟩
/-- SAFE.TEST_RUN (R448). -/
def safeTestRun : Fld := ⟨0x1001, 0, 10, 10, .ro, 0x0, 1, 1, 1⟩
/-- SAFE.OUT_LOW (R448). -/
def safeOutLow : Fld := ⟨0x1001, 0, 9, 9, .ro, 0x1, 1, 1, 1⟩
/-- SAFE.PREEMPTS (R448). -/
def safePreempts : Fld := ⟨0x1001, 0, 7, 0, .w1c, 0x0, 1, 1, 1⟩
/-- SAFE.TEST_AT (R448). -/
def safeTestAt : Fld := ⟨0x1001, 1, 31, 0, .ro, 0x0, 2, 1, 1⟩
/-- SAFE.EDGE_AT (R448). -/
def safeEdgeAt : Fld := ⟨0x1001, 3, 31, 0, .ro, 0x0, 2, 1, 1⟩
-- SO 0x1002: 1 words (R448)
/-- SAFE.LVC_FB (R448). -/
def safeLvcFb : Fld := ⟨0x1002, 0, 7, 4, .ro, 0x0, 1, 1, 1⟩
/-- SAFE.LVC_CLOSE (R448). -/
def safeLvcClose : Fld := ⟨0x1002, 0, 3, 0, .rw, 0x0, 1, 1, 1⟩
-- SO 0x1100: 2 words (R470)
/-- MEM.SSCRUB_MS (R470). -/
def memSscrubMs : Fld := ⟨0x1100, 0, 31, 16, .rs, 0x3E8, 1, 1, 1⟩
/-- MEM.DSCRUB_MIN (R470). -/
def memDscrubMin : Fld := ⟨0x1100, 0, 15, 0, .rs, 0x5A0, 1, 1, 1⟩
/-- MEM.T_DEFAULT (R470). -/
def memTDefault : Fld := ⟨0x1100, 1, 31, 30, .rs, 0x1, 1, 1, 1⟩
/-- MEM.DSCRUB_BATCH (R470). -/
def memDscrubBatch : Fld := ⟨0x1100, 1, 15, 0, .rs, 0x400, 1, 1, 1⟩
-- SO 0x1101: 16 words (R471)
/-- MEM.R_EN (R471). -/
def memREn : Fld := ⟨0x1101, 0, 31, 31, .rs, 0x0, 8, 2, 1⟩
/-- MEM.R_T (R471). -/
def memRT : Fld := ⟨0x1101, 0, 30, 29, .rs, 0x1, 8, 2, 1⟩
/-- MEM.R_BASE (R471). -/
def memRBase : Fld := ⟨0x1101, 0, 13, 0, .rs, 0x0, 8, 2, 1⟩
/-- MEM.R_SIZE (R471). -/
def memRSize : Fld := ⟨0x1101, 1, 13, 0, .rs, 0x0, 8, 2, 1⟩
-- SO 0x1102: 5 words (R472)
/-- MEM.DRAM_OK (R472). -/
def memDramOk : Fld := ⟨0x1102, 0, 31, 31, .ro, 0x0, 1, 1, 1⟩
/-- MEM.SELF_REF (R472). -/
def memSelfRef : Fld := ⟨0x1102, 0, 30, 30, .ro, 0x0, 1, 1, 1⟩
/-- MEM.RANKS (R472). -/
def memRanks : Fld := ⟨0x1102, 0, 29, 28, .ro, 0x0, 1, 1, 1⟩
/-- MEM.DRAM_MIB (R472). -/
def memDramMib : Fld := ⟨0x1102, 0, 27, 14, .ro, 0x0, 1, 1, 1⟩
/-- MEM.SCRUB_PAUSED (R472). -/
def memScrubPaused : Fld := ⟨0x1102, 0, 13, 13, .ro, 0x0, 1, 1, 1⟩
/-- MEM.DSCRUB_LAG (R472). -/
def memDscrubLag : Fld := ⟨0x1102, 2, 31, 16, .ro, 0x0, 1, 1, 1⟩
/-- MEM.DATA_PAGES (R472). -/
def memDataPages : Fld := ⟨0x1102, 1, 31, 0, .ro, 0x0, 1, 1, 1⟩
/-- MEM.SPASS_AT (R472). -/
def memSpassAt : Fld := ⟨0x1102, 3, 31, 0, .ro, 0x0, 1, 1, 1⟩
/-- MEM.DPASS_AT (R472). -/
def memDpassAt : Fld := ⟨0x1102, 4, 31, 0, .ro, 0x0, 1, 1, 1⟩
-- SO 0x1103: 8 words (R473)
/-- MEM.S_CORR (R473). -/
def memSCorr : Fld := ⟨0x1103, 0, 31, 0, .w1c, 0x0, 1, 1, 1⟩
/-- MEM.S_UNCORR (R473). -/
def memSUncorr : Fld := ⟨0x1103, 1, 31, 0, .w1c, 0x0, 1, 1, 1⟩
/-- MEM.D_CORR_PAGES (R473). -/
def memDCorrPages : Fld := ⟨0x1103, 2, 31, 0, .w1c, 0x0, 1, 1, 1⟩
/-- MEM.D_CORR_BITS (R473). -/
def memDCorrBits : Fld := ⟨0x1103, 3, 31, 0, .w1c, 0x0, 1, 1, 1⟩
/-- MEM.D_UNCORR (R473). -/
def memDUncorr : Fld := ⟨0x1103, 4, 31, 0, .w1c, 0x0, 1, 1, 1⟩
/-- MEM.PARTIAL_REFUSED (R473). -/
def memPartialRefused : Fld := ⟨0x1103, 5, 31, 0, .w1c, 0x0, 1, 1, 1⟩
/-- MEM.UNWRITTEN_READS (R473). -/
def memUnwrittenReads : Fld := ⟨0x1103, 6, 31, 0, .w1c, 0x0, 1, 1, 1⟩
/-- MEM.SCRUB_CANCELLED (R473). -/
def memScrubCancelled : Fld := ⟨0x1103, 7, 31, 0, .w1c, 0x0, 1, 1, 1⟩
-- SO 0x1104: 96 words (R474)
/-- MEM.P_VALID (R474). -/
def memPValid : Fld := ⟨0x1104, 0, 31, 31, .ro, 0x0, 32, 3, 1⟩
/-- MEM.P_CLEARED (R474). -/
def memPCleared : Fld := ⟨0x1104, 0, 30, 30, .ro, 0x0, 32, 3, 1⟩
/-- MEM.P_TAG (R474). -/
def memPTag : Fld := ⟨0x1104, 0, 26, 23, .ro, 0x0, 32, 3, 1⟩
/-- MEM.P_PAGE (R474). -/
def memPPage : Fld := ⟨0x1104, 0, 22, 0, .ro, 0x0, 32, 3, 1⟩
/-- MEM.P_AT_LO (R474). -/
def memPAtLo : Fld := ⟨0x1104, 1, 31, 0, .ro, 0x0, 32, 3, 1⟩
/-- MEM.P_AT_HI (R474). -/
def memPAtHi : Fld := ⟨0x1104, 2, 31, 0, .ro, 0x0, 32, 3, 1⟩
-- SO 0x1105: 96 words (R475)
/-- MEM.B_ROWS (R475). -/
def memBRows : Fld := ⟨0x1105, 0, 31, 28, .ro, 0x0, 96, 1, 1⟩
/-- MEM.B_COLS (R475). -/
def memBCols : Fld := ⟨0x1105, 0, 27, 26, .ro, 0x0, 96, 1, 1⟩
/-- MEM.B_CORR (R475). -/
def memBCorr : Fld := ⟨0x1105, 0, 15, 0, .w1c, 0x0, 96, 1, 1⟩
-- SO 0x1200: 64 words (R476)
/-- QUE.COOLER_MAX (R476). -/
def queCoolerMax : Fld := ⟨0x1200, 0, 31, 23, .rs, 0x0, 64, 1, 1⟩
-- SO 0x1201: 128 words (R476)
/-- QUE.FILL (R476). -/
def queFill : Fld := ⟨0x1201, 0, 31, 8, .ro, 0x0, 64, 2, 1⟩
/-- QUE.PKTS (R476). -/
def quePkts : Fld := ⟨0x1201, 0, 7, 0, .ro, 0x0, 64, 2, 1⟩
/-- QUE.CREDIT (R476). -/
def queCredit : Fld := ⟨0x1201, 1, 31, 8, .ro, 0x0, 64, 2, 1⟩
-- SO 0x1202: 128 words (R476)
/-- QUE.LOST_PKTS (R476). -/
def queLostPkts : Fld := ⟨0x1202, 0, 31, 0, .w1c, 0x0, 64, 2, 1⟩
/-- QUE.DROPPED (R476). -/
def queDropped : Fld := ⟨0x1202, 1, 31, 0, .w1c, 0x0, 64, 2, 1⟩
-- SO 0x1210: 2 words (R477)
/-- QUE.TEL_IP (R477). -/
def queTelIp : Fld := ⟨0x1210, 0, 31, 0, .rs, 0x0, 1, 1, 1⟩
/-- QUE.TEL_PORT (R477). -/
def queTelPort : Fld := ⟨0x1210, 1, 31, 16, .rs, 0x0, 1, 1, 1⟩
-- SO 0x1211: 128 words (R477)
/-- QUE.T_EN (R477). -/
def queTEn : Fld := ⟨0x1211, 0, 31, 31, .rs, 0x0, 16, 8, 1⟩
/-- QUE.T_DEST (R477). -/
def queTDest : Fld := ⟨0x1211, 0, 30, 29, .rs, 0x0, 16, 8, 1⟩
/-- QUE.T_K (R477). -/
def queTK : Fld := ⟨0x1211, 0, 28, 25, .rs, 0x1, 16, 8, 1⟩
/-- QUE.T_PERIOD (R477). -/
def queTPeriod : Fld := ⟨0x1211, 0, 15, 0, .rs, 0x28, 16, 8, 1⟩
/-- QUE.T_SEL1_HI (R477). -/
def queTSel1Hi : Fld := ⟨0x1211, 1, 31, 16, .rs, 0x0, 16, 8, 1⟩
/-- QUE.T_SEL1_LO (R477). -/
def queTSel1Lo : Fld := ⟨0x1211, 1, 15, 0, .rs, 0x0, 16, 8, 1⟩
/-- QUE.T_SEL2_HI (R477). -/
def queTSel2Hi : Fld := ⟨0x1211, 2, 31, 16, .rs, 0x0, 16, 8, 1⟩
/-- QUE.T_SEL2_LO (R477). -/
def queTSel2Lo : Fld := ⟨0x1211, 2, 15, 0, .rs, 0x0, 16, 8, 1⟩
/-- QUE.T_SEL3_HI (R477). -/
def queTSel3Hi : Fld := ⟨0x1211, 3, 31, 16, .rs, 0x0, 16, 8, 1⟩
/-- QUE.T_SEL3_LO (R477). -/
def queTSel3Lo : Fld := ⟨0x1211, 3, 15, 0, .rs, 0x0, 16, 8, 1⟩
/-- QUE.T_SEL4_HI (R477). -/
def queTSel4Hi : Fld := ⟨0x1211, 4, 31, 16, .rs, 0x0, 16, 8, 1⟩
/-- QUE.T_SEL4_LO (R477). -/
def queTSel4Lo : Fld := ⟨0x1211, 4, 15, 0, .rs, 0x0, 16, 8, 1⟩
/-- QUE.T_SEL5_HI (R477). -/
def queTSel5Hi : Fld := ⟨0x1211, 5, 31, 16, .rs, 0x0, 16, 8, 1⟩
/-- QUE.T_SEL5_LO (R477). -/
def queTSel5Lo : Fld := ⟨0x1211, 5, 15, 0, .rs, 0x0, 16, 8, 1⟩
/-- QUE.T_SEL6_HI (R477). -/
def queTSel6Hi : Fld := ⟨0x1211, 6, 31, 16, .rs, 0x0, 16, 8, 1⟩
/-- QUE.T_SEL6_LO (R477). -/
def queTSel6Lo : Fld := ⟨0x1211, 6, 15, 0, .rs, 0x0, 16, 8, 1⟩
/-- QUE.T_SEL7_HI (R477). -/
def queTSel7Hi : Fld := ⟨0x1211, 7, 31, 16, .rs, 0x0, 16, 8, 1⟩
/-- QUE.T_SEL7_LO (R477). -/
def queTSel7Lo : Fld := ⟨0x1211, 7, 15, 0, .rs, 0x0, 16, 8, 1⟩
-- SO 0x1300: 5 words (R493)
/-- ACQ.STORE (R493). -/
def acqStore : Fld := ⟨0x1300, 0, 31, 31, .rs, 0x1, 1, 1, 1⟩
/-- ACQ.WRAP (R493). -/
def acqWrap : Fld := ⟨0x1300, 0, 30, 30, .rs, 0x0, 1, 1, 1⟩
/-- ACQ.STAGES (R493). -/
def acqStages : Fld := ⟨0x1300, 0, 29, 28, .rs, 0x0, 1, 1, 1⟩
/-- ACQ.DIV (R493). -/
def acqDiv : Fld := ⟨0x1300, 0, 15, 0, .rs, 0x0, 1, 1, 1⟩
/-- ACQ.LEN (R493). -/
def acqLen : Fld := ⟨0x1300, 1, 20, 0, .rs, 0x400, 1, 1, 1⟩
/-- ACQ.PRE (R493). -/
def acqPre : Fld := ⟨0x1300, 2, 20, 0, .rs, 0x0, 1, 1, 1⟩
/-- ACQ.SEGS (R493). -/
def acqSegs : Fld := ⟨0x1300, 3, 31, 16, .rs, 0x0, 1, 1, 1⟩
/-- ACQ.BASE_MIB (R493). -/
def acqBaseMib : Fld := ⟨0x1300, 4, 31, 18, .rs, 0x0, 1, 1, 1⟩
/-- ACQ.SIZE_MIB (R493). -/
def acqSizeMib : Fld := ⟨0x1300, 4, 17, 4, .rs, 0x0, 1, 1, 1⟩
-- SO 0x1301: 16 words (R494)
/-- ACQ.C_EN (R494). -/
def acqCEn : Fld := ⟨0x1301, 0, 31, 31, .rs, 0x0, 16, 1, 1⟩
/-- ACQ.C_KIND (R494). -/
def acqCKind : Fld := ⟨0x1301, 0, 30, 28, .rs, 0x0, 16, 1, 1⟩
/-- ACQ.C_SRC (R494). -/
def acqCSrc : Fld := ⟨0x1301, 0, 23, 0, .rs, 0x0, 16, 1, 1⟩
-- SO 0x1302: 16 words (R494)
/-- ACQ.S_KIND (R494). -/
def acqSKind : Fld := ⟨0x1302, 0, 31, 28, .rs, 0x0, 4, 4, 1⟩
/-- ACQ.S_CHAN (R494). -/
def acqSChan : Fld := ⟨0x1302, 0, 27, 24, .rs, 0x0, 4, 4, 1⟩
/-- ACQ.S_COUNT (R494). -/
def acqSCount : Fld := ⟨0x1302, 0, 23, 16, .rs, 0x0, 4, 4, 1⟩
/-- ACQ.S_WITHIN (R494). -/
def acqSWithin : Fld := ⟨0x1302, 0, 15, 0, .rs, 0x0, 4, 4, 1⟩
/-- ACQ.S_A (R494). -/
def acqSA : Fld := ⟨0x1302, 1, 31, 0, .rs, 0x0, 4, 4, 1⟩
/-- ACQ.S_B (R494). -/
def acqSB : Fld := ⟨0x1302, 2, 31, 0, .rs, 0x0, 4, 4, 1⟩
/-- ACQ.S_C (R494). -/
def acqSC : Fld := ⟨0x1302, 3, 31, 0, .rs, 0x0, 4, 4, 1⟩
-- SO 0x1303: 8 words (R495)
/-- ACQ.H_EN (R495). -/
def acqHEn : Fld := ⟨0x1303, 0, 31, 31, .rs, 0x0, 4, 2, 1⟩
/-- ACQ.H_GATE (R495). -/
def acqHGate : Fld := ⟨0x1303, 0, 30, 30, .rs, 0x0, 4, 2, 1⟩
/-- ACQ.H_CHAN (R495). -/
def acqHChan : Fld := ⟨0x1303, 0, 27, 24, .rs, 0x0, 4, 2, 1⟩
/-- ACQ.H_SHIFT (R495). -/
def acqHShift : Fld := ⟨0x1303, 0, 4, 0, .rs, 0x0, 4, 2, 1⟩
/-- ACQ.H_LO (R495). -/
def acqHLo : Fld := ⟨0x1303, 1, 31, 0, .rs, 0x0, 4, 2, 1⟩
-- SO 0x1304: 4 words (R495)
/-- ACQ.A_EN (R495). -/
def acqAEn : Fld := ⟨0x1304, 0, 31, 31, .rs, 0x0, 2, 2, 1⟩
/-- ACQ.A_CHAN (R495). -/
def acqAChan : Fld := ⟨0x1304, 0, 27, 24, .rs, 0x0, 2, 2, 1⟩
/-- ACQ.A_SHIFT (R495). -/
def acqAShift : Fld := ⟨0x1304, 0, 4, 0, .rs, 0x0, 2, 2, 1⟩
/-- ACQ.A_LO (R495). -/
def acqALo : Fld := ⟨0x1304, 1, 31, 0, .rs, 0x0, 2, 2, 1⟩
-- SO 0x1305: 1 words (R496)
/-- ACQ.A_CLR (R496). -/
def acqAClr : Fld := ⟨0x1305, 0, 11, 10, .we, 0x0, 1, 1, 1⟩
/-- ACQ.A_HOLD (R496). -/
def acqAHold : Fld := ⟨0x1305, 0, 9, 8, .rw, 0x0, 1, 1, 1⟩
/-- ACQ.H_CLR (R496). -/
def acqHClr : Fld := ⟨0x1305, 0, 7, 4, .we, 0x0, 1, 1, 1⟩
/-- ACQ.H_HOLD (R496). -/
def acqHHold : Fld := ⟨0x1305, 0, 3, 0, .rw, 0x0, 1, 1, 1⟩
-- SO 0x1310: 3 words (R497)
/-- ACQ.STATE (R497). -/
def acqState : Fld := ⟨0x1310, 0, 31, 29, .ro, 0x0, 1, 1, 1⟩
/-- ACQ.STAGE (R497). -/
def acqStage : Fld := ⟨0x1310, 0, 28, 27, .ro, 0x0, 1, 1, 1⟩
/-- ACQ.NEXT_SEG (R497). -/
def acqNextSeg : Fld := ⟨0x1310, 0, 16, 0, .ro, 0x0, 1, 1, 1⟩
/-- ACQ.FILLED (R497). -/
def acqFilled : Fld := ⟨0x1310, 1, 31, 0, .ro, 0x0, 1, 1, 1⟩
/-- ACQ.SEG_SEQ (R497). -/
def acqSegSeq : Fld := ⟨0x1310, 2, 31, 0, .ro, 0x0, 1, 1, 1⟩
-- SO 0x1311: 4 words (R498)
/-- ACQ.OVERRUNS (R498). -/
def acqOverruns : Fld := ⟨0x1311, 0, 31, 0, .w1c, 0x0, 1, 1, 1⟩
/-- ACQ.TRIG_IGNORED (R498). -/
def acqTrigIgnored : Fld := ⟨0x1311, 1, 31, 0, .w1c, 0x0, 1, 1, 1⟩
/-- ACQ.TRUNCATED (R498). -/
def acqTruncated : Fld := ⟨0x1311, 2, 31, 0, .w1c, 0x0, 1, 1, 1⟩
/-- ACQ.HOLD_MISSED (R498). -/
def acqHoldMissed : Fld := ⟨0x1311, 3, 31, 0, .w1c, 0x0, 1, 1, 1⟩
-- SO 0x1312: 8 words (R498)
/-- ACQ.H_UNDER (R498). -/
def acqHUnder : Fld := ⟨0x1312, 0, 31, 0, .w1c, 0x0, 4, 2, 1⟩
/-- ACQ.H_OVER (R498). -/
def acqHOver : Fld := ⟨0x1312, 1, 31, 0, .w1c, 0x0, 4, 2, 1⟩

end F

/-- State objects 0x0002 to 0x0083 of the directory (R141). -/
def soTable0 : List SoDef := [
  ⟨0x0002, 1, 0, 1,
    [F.sysModeSeq, F.sysModePrev, F.sysModePend, F.sysModeCause, F.sysGuardPend, F.sysMode]⟩,
  ⟨0x0004, 3, 0, 1,
    [F.sysBootRereads, F.sysSlotACause, F.sysSlotBCause, F.sysSlotLoaded, F.sysSigned, F.sysCfgApplied, F.sysFlashWidth, F.sysFlashClock, F.sysFuseCorr, F.sysRepairUsed, F.sysFailBlockA, F.sysFailBlockB, F.sysImageSeq]⟩,
  ⟨0x0005, 1, 0, 1,
    [F.sysResetCount, F.sysResetRail, F.sysResetCause]⟩,
  ⟨0x0006, 5, 0, 1,
    [F.sysDieT, F.sysTWarn, F.sysTPeak]⟩,
  ⟨0x0010, 3, 0, 1,
    [F.sysVariant, F.sysCellLanes, F.sysDownPorts, F.sysTwinPresent, F.sysAcqLevel, F.sysLoopSlots, F.sysDramMaxGib, F.sysCellSlots, F.sysFwRelease, F.sysPatchLevel, F.sysSignedBoot, F.sysKeyLocked]⟩,
  ⟨0x0011, 4, 0, 1,
    [F.sysUid]⟩,
  ⟨0x0012, 8, 0, 1,
    [F.sysKeyHash]⟩,
  ⟨0x0020, 3, 2, 1,
    [F.cmdWindow, F.cmdCreditLimit, F.cmdDiscarded, F.cmdLastFraming]⟩,
  ⟨0x0021, 33, 2, 1,
    [F.cmdSLimit, F.cmdSAuth, F.cmdSOpen, F.cmdSBasket, F.cmdSPort, F.cmdSIdle]⟩,
  ⟨0x0022, 32, 2, 1,
    [F.cmdSIp, F.cmdSUdp]⟩,
  ⟨0x0023, 1, 2, 1,
    [F.cmdUdpPort, F.cmdNetIdle, F.cmdParentMaxAuth, F.cmdNetMaxAuth]⟩,
  ⟨0x0024, 6, 2, 1,
    [F.cmdNetIp, F.cmdNetMask, F.cmdNetGw, F.cmdNetMacHi, F.cmdNetEn, F.cmdNetMode, F.cmdNetMacLo, F.cmdVlanEn, F.cmdVlanPcp, F.cmdVlanId]⟩,
  ⟨0x0080, 1, 1, 1,
    [F.clkRelocks, F.clkBand, F.clkBandFromTable, F.clkRefActive, F.clkLocked, F.clkRamping, F.clkRefFallback, F.clkRefLostLocal, F.clkMonFail]⟩,
  ⟨0x0081, 1, 1, 1,
    [F.clkBandMode, F.clkRefSrc, F.clkRefSel]⟩,
  ⟨0x0082, 32, 1, 1,
    [F.clkBtValid, F.clkBtTmax, F.clkBtBand, F.clkBtCp]⟩,
  ⟨0x0083, 16, 1, 1,
    [F.clkRpLast, F.clkRpK, F.clkRpLen]⟩]

/-- State objects 0x0084 to 0x0212 of the directory (R141). -/
def soTable1 : List SoDef := [
  ⟨0x0084, 12, 1, 1,
    [F.clkDiv, F.clkDelay, F.clkEn, F.clkGated]⟩,
  ⟨0x0100, 8, 3, 1,
    [F.stgGen, F.stgVersion, F.stgArmAtLo, F.stgArmAtHi, F.stgOwner, F.stgArmed, F.stgChecked, F.stgNeedAuth, F.stgCount, F.stgPreempted, F.stgRefusedAt, F.stgLastAt]⟩,
  ⟨0x0101, 4, 3, 1,
    [F.stgModeReq, F.stgPrechargeDone, F.stgDischargeDone, F.stgPrechargeMax]⟩,
  ⟨0x0102, 4, 3, 1,
    [F.stgCkPass, F.stgCkTrunc, F.stgCkEntries, F.stgCkVersion, F.stgCkTime, F.stgCkWords]⟩,
  ⟨0x0103, 1024, 3, 1,
    [F.stgCkReport]⟩,
  ⟨0x0104, 64, 3, 1,
    [F.stgCommitLog]⟩,
  ⟨0x0105, 4, 3, 1,
    [F.stgRtSel, F.stgRtEn, F.stgRtLow, F.stgRtHigh, F.stgRtRecover, F.stgRtMax]⟩,
  ⟨0x0110, 512, 3, 1,
    [F.stgStKind, F.stgStA, F.stgStB, F.stgStC]⟩,
  ⟨0x0111, 2, 3, 1,
    [F.stgStepState, F.stgStepIdx, F.stgStepWait, F.stgStepFailVal]⟩,
  ⟨0x0200, 55, 4, 1,
    [F.laneState, F.laneRate, F.laneFarCaps, F.laneFarRole, F.laneRateLimited, F.laneRoleMismatch, F.laneEqDefault, F.laneLocked, F.laneAttempts, F.laneLockLosses]⟩,
  ⟨0x0201, 55, 4, 1,
    [F.laneLoopback, F.laneRateEn, F.laneEn]⟩,
  ⟨0x0202, 55, 4, 1,
    [F.laneEqRxinv, F.laneEqTxinv, F.laneEqCtle, F.laneEqPre, F.laneEqMain, F.laneEqPost]⟩,
  ⟨0x0203, 165, 4, 1,
    [F.laneBlocksBad, F.laneBlocksUnk, F.lanePrbsErr]⟩,
  ⟨0x0210, 1, 5, 1,
    [F.frmReplayTo, F.frmRetryMax, F.frmReasmTo]⟩,
  ⟨0x0211, 55, 5, 1,
    [F.frmTxNext, F.frmTxAcked, F.frmRxExpect, F.frmReplayFill, F.frmDouseSeen, F.frmPortCrossed]⟩,
  ⟨0x0212, 220, 5, 1,
    [F.frmRxBad, F.frmReplays, F.frmLate, F.frmRxVoid]⟩]

/-- State objects 0x0300 to 0x0405 of the directory (R141). -/
def soTable2 : List SoDef := [
  ⟨0x0300, 1, 6, 1,
    [F.timeAcquired, F.timeNetValid, F.timeHoldover, F.timeAcceptPend, F.timeNetRefused, F.timeMisaligned, F.timeSrcLost, F.timeSrcActive, F.timeRefuseCount, F.timeMapSteps]⟩,
  ⟨0x0301, 7, 6, 1,
    [F.timeFabricLo, F.timeFabricHi, F.timeRate, F.timeFreq, F.timeLastOfs, F.timeCycleOriginLo, F.timeCycleOriginHi]⟩,
  ⟨0x0302, 7, 6, 1,
    [F.timeMapN, F.timeMapF, F.timeSetNet, F.timeNetOfs]⟩,
  ⟨0x0303, 3, 6, 1,
    [F.timeJumpLimit, F.timeSlewLimit, F.timeSyncInt, F.timeSrc, F.timeAcceptNext]⟩,
  ⟨0x0304, 2, 6, 1,
    [F.timePtpDomain, F.timePtpPrio1, F.timePtpPrio2, F.timePtpClass, F.timePtpLogSync, F.timePtpLogAnn, F.timePtpLogDelay, F.timePtpAnnTo, F.timePtpEn, F.timePtpProfile, F.timePtpMaster, F.timePtpUdp, F.timePtpP2p, F.timePtpOnestep]⟩,
  ⟨0x0305, 110, 6, 1,
    [F.timeLaneDelay, F.timeLaneAsym, F.timeLaneOfs]⟩,
  ⟨0x0306, 8, 6, 1,
    [F.timeTpoMode, F.timeTpoNet, F.timeTpoInv, F.timeTpoWidth]⟩,
  ⟨0x0307, 4, 6, 1,
    [F.timeTciEdge, F.timeTciLost, F.timeTciFill]⟩,
  ⟨0x0308, 32, 6, 1,
    [F.timeTpoNext]⟩,
  ⟨0x0309, 128, 6, 1,
    [F.timeTciFifo]⟩,
  ⟨0x0400, 12, 7, 1,
    [F.modCarrierPeriod, F.modDabPeriod, F.modDead, F.modDabDead, F.modMinPulse, F.modLead, F.modMMax, F.modDMax, F.modSmp0En, F.modSmp0Ofs, F.modSmp1En, F.modSmp1Ofs, F.modHoldMax, F.modReinsertRamp, F.modRevMargin, F.modSmpGuard, F.modDabSpread, F.modReviseEn, F.modReviseThresh, F.modDischD, F.modCycleLen]⟩,
  ⟨0x0401, 24, 7, 1,
    [F.modArmEn, F.modArmRefSlot, F.modArmDabSlot, F.modArmDabEn, F.modArmBase, F.modCellVbase, F.modArmOfs]⟩,
  ⟨0x0402, 96, 7, 1,
    [F.modCState, F.modCCarrier, F.modCDab, F.modCHeld]⟩,
  ⟨0x0403, 8, 7, 1,
    [F.modClamps, F.modPulseWidened, F.modPulseDropped, F.modRevisions, F.modRevDropped, F.modHolds, F.modBypasses, F.modReinserts]⟩,
  ⟨0x0404, 192, 7, 1,
    [F.modCM, F.modCD]⟩,
  ⟨0x0405, 16, 7, 1,
    [F.modAActive, F.modADabM, F.modASat, F.modARef]⟩]

/-- State objects 0x0500 to 0x0904 of the directory (R141). -/
def soTable3 : List SoDef := [
  ⟨0x0500, 2, 8, 1,
    [F.loopSchedAt, F.loopOverruns, F.loopFpLate]⟩,
  ⟨0x0501, 8, 8, 1,
    [F.loopEFast, F.loopEFastSlot, F.loopELoad]⟩,
  ⟨0x0502, 32, 8, 1,
    [F.loopGWinner, F.loopGMembers, F.loopGSwitches]⟩,
  ⟨0x0600, 40, 8, 256,
    [F.loopEn, F.loopFast, F.loopPin, F.loopDEn, F.loopBqCount, F.loopDerate, F.loopLegEn, F.loopLeg, F.loopGroupEn, F.loopGroup, F.loopDiv, F.loopPhase, F.loopModes, F.loopIAction, F.loopRSel, F.loopFSel, F.loopFfSel, F.loopTrkSel, F.loopMaxSel, F.loopMinSel, F.loopKr, F.loopKf, F.loopKff, F.loopKp, F.loopKi, F.loopKt, F.loopKd, F.loopAd, F.loopRConst, F.loopOutMax, F.loopOutMin, F.loopIMax, F.loopIMin, F.loopIPreset, F.loopB0, F.loopB1, F.loopB2, F.loopA1, F.loopA2]⟩,
  ⟨0x0700, 32, 8, 256,
    [F.loopSOutHi, F.loopSOutLo, F.loopSIntHi, F.loopSIntLo, F.loopSArithSat, F.loopSGroupWon, F.loopSLimCross, F.loopSClipped, F.loopSHeld, F.loopSTracking, F.loopSEngine, F.loopEvalCount, F.loopOut, F.loopRaw, F.loopIntHi, F.loopIntLo, F.loopErr, F.loopDState, F.loopYPrev, F.loopW, F.loopBqState, F.loopLastAt, F.loopClipCount, F.loopSatCount, F.loopFpSkipped, F.loopSOverruns]⟩,
  ⟨0x0800, 60, 10, 1,
    [F.legEn, F.legModes, F.legAlign, F.legSrc, F.legBlank, F.legPrd, F.legPhase, F.legIntPre, F.legDtRise, F.legDtFall, F.legCbcMax, F.legIntSel, F.legCsLim, F.legCsSc, F.legMinOn, F.legTpDly, F.legTpEn, F.legDsatEn, F.legDsatPol, F.legPrime]⟩,
  ⟨0x0801, 36, 10, 1,
    [F.legDuty, F.legCmpaSh, F.legCmpbSh, F.legCmpa, F.legCmpb]⟩,
  ⟨0x0802, 12, 10, 1,
    [F.legState, F.legGh, F.legGl, F.legP, F.legTripped, F.legCut, F.legDsatIn, F.legCsLimIn, F.legCsScIn, F.legPump, F.legIntFlags, F.legTripSrc, F.legForceEn, F.legForceGh, F.legForceGl]⟩,
  ⟨0x0803, 36, 10, 1,
    [F.legCuts, F.legInterlocks, F.legCount, F.legLastLen]⟩,
  ⟨0x0804, 5, 10, 1,
    [F.legOv0On, F.legOv0Off, F.legOv0Trip, F.legOv0En, F.legOv0Brk, F.legBrkMinOn, F.legBrkTau, F.legBrkEn, F.legBrkHmax, F.legBrkHres, F.legOv1On, F.legOv1Off, F.legOv1Trip, F.legOv1En, F.legOv1Brk]⟩,
  ⟨0x0805, 3, 10, 1,
    [F.legBrkOn, F.legBrkInhib, F.legOv0Above, F.legOv1Above, F.legOvTripped, F.legBrkCount, F.legBrkHLo, F.legBrkHHi]⟩,
  ⟨0x0900, 96, 9, 1,
    [F.hmpUPop, F.hmpUInarm, F.hmpUArm]⟩,
  ⟨0x0901, 8, 9, 1,
    [F.hmpRedund, F.hmpMinCells]⟩,
  ⟨0x0902, 10, 9, 1,
    [F.hmpWv, F.hmpWt, F.hmpWw, F.hmpSpread, F.hmpKdBal, F.hmpDtrimMax, F.hmpVBand, F.hmpPDead, F.hmpKStride, F.hmpDFloor]⟩,
  ⟨0x0903, 5, 9, 1,
    [F.hmpSortCyc, F.hmpArmOob, F.hmpArmShort, F.hmpArmFloor, F.hmpPubCycle, F.hmpLedgerState, F.hmpCkptSector, F.hmpCkptBusy, F.hmpCkptFail, F.hmpRestoreNone, F.hmpCkptSeq, F.hmpCkptAge, F.hmpPlaceChanges]⟩,
  ⟨0x0904, 96, 9, 1,
    [F.hmpCKidx, F.hmpCJidx, F.hmpCRank2, F.hmpCIn]⟩]

/-- State objects 0x0905 to 0x0D01 of the directory (R141). -/
def soTable4 : List SoDef := [
  ⟨0x0905, 288, 9, 1,
    [F.hmpCShare, F.hmpCTrim, F.hmpCScore]⟩,
  ⟨0x0906, 256, 9, 1,
    [F.hmpPPlaced, F.hmpPEngine, F.hmpPOrder, F.hmpPStart]⟩,
  ⟨0x0907, 64, 9, 1,
    [F.hmpQChunks, F.hmpQPeak]⟩,
  ⟨0x0908, 8192, 9, 1,
    [F.hmpKUsed, F.hmpKQueue, F.hmpKPos]⟩,
  ⟨0x0910, 4, 9, 1,
    [F.hmpTwDt, F.hmpTwHyst, F.hmpTwTmw, F.hmpTwTmb, F.hmpTwEn, F.hmpCkptHours, F.hmpCkptNow, F.hmpLedgerClrAct, F.hmpLedgerClrSlot, F.hmpDWarn]⟩,
  ⟨0x0911, 128, 9, 1,
    [F.hmpDtEntry]⟩,
  ⟨0x0912, 384, 9, 1,
    [F.hmpDmgLo, F.hmpDmgHi, F.hmpCellTag, F.hmpLSat, F.hmpLWarn, F.hmpLDepth]⟩,
  ⟨0x0A00, 128, 9, 96,
    [F.hmpTallow]⟩,
  ⟨0x0B00, 128, 11, 1,
    [F.measEn, F.measOrder, F.measEdge, F.measFpEn, F.measOcCnt, F.measOsr, F.measFpOsr, F.measSkew, F.measScale, F.measOcHi, F.measOcLo]⟩,
  ⟨0x0B01, 32, 11, 1,
    [F.measValid, F.measHeld, F.measOc, F.measSat, F.measOcIn, F.measOutCount]⟩,
  ⟨0x0B02, 160, 11, 1,
    [F.measOut, F.measRaw, F.measFpOut, F.measAtLo, F.measAtHi]⟩,
  ⟨0x0B10, 16, 11, 1,
    [F.measSetFirst, F.measSetLast]⟩,
  ⟨0x0B11, 1, 11, 1,
    [F.measCsBad]⟩,
  ⟨0x0C00, 3, 12, 1,
    [F.calBusy, F.calBusyPage, F.calLastPage, F.calWrites, F.calPageBad]⟩,
  ⟨0x0D00, 3, 13, 1,
    [F.grpNodeAddr, F.grpStateInt, F.grpULostAct, F.grpUHold, F.grpChildTo, F.grpReturnRamp, F.grpBase]⟩,
  ⟨0x0D01, 8, 13, 1,
    [F.grpDLo, F.grpDHi, F.grpDBase]⟩]

/-- State objects 0x0D02 to 0x0F08 of the directory (R141). -/
def soTable5 : List SoDef := [
  ⟨0x0D02, 5, 13, 1,
    [F.grpUState, F.grpParentLost, F.grpCmdStale, F.grpRouteMiss, F.grpDState, F.grpDCap, F.grpDHealth, F.grpDHealthy, F.grpDTotal, F.grpDLosses]⟩,
  ⟨0x0D03, 6, 13, 1,
    [F.grpRepHi, F.grpRepLo]⟩,
  ⟨0x0D10, 15, 13, 1,
    [F.grpMbAt, F.grpMbSeq, F.grpMbPresent, F.grpMbQ]⟩,
  ⟨0x0D11, 15, 13, 1,
    [F.grpCfAt, F.grpCfSeq, F.grpCfPresent, F.grpCfQ]⟩,
  ⟨0x0D12, 16, 13, 1,
    [F.grpLastState]⟩,
  ⟨0x0D13, 64, 13, 1,
    [F.grpDRep]⟩,
  ⟨0x0E00, 1, 14, 1,
    [F.twinPaired, F.twinIndex, F.twinLease]⟩,
  ⟨0x0E01, 8, 14, 1,
    [F.twinRole, F.twinEligible, F.twinGenMatch, F.twinSelftestOk, F.twinDiverged, F.twinCopyFull, F.twinUHolder, F.twinDivRun, F.twinPartnerRole, F.twinTakeovers, F.twinEpoch, F.twinExpiryLo, F.twinExpiryHi, F.twinFlameGen, F.twinCfgSum, F.twinFlameSum, F.twinPilotAt]⟩,
  ⟨0x0E02, 6, 14, 1,
    [F.twinCompared, F.twinMismatch, F.twinUnverifiable, F.twinCopyMissed, F.twinDivergences, F.twinSliceFail]⟩,
  ⟨0x0E03, 48, 14, 1,
    [F.twinLMismatch]⟩,
  ⟨0x0F00, 32, 15, 1,
    [F.fltSet, F.fltLevel, F.fltAcked, F.fltCause, F.fltAtCeil, F.fltEscalations, F.fltRaises]⟩,
  ⟨0x0F01, 128, 15, 1,
    [F.fltMask]⟩,
  ⟨0x0F02, 128, 15, 1,
    [F.fltActive]⟩,
  ⟨0x0F03, 32, 15, 1,
    [F.fltBase, F.fltCeil]⟩,
  ⟨0x0F04, 4, 15, 1,
    [F.fltAny, F.fltTop, F.fltOutLow, F.fltCollErr, F.fltEvcArm, F.fltHistFill, F.fltCorr, F.fltHistSeq, F.fltHistBoot, F.fltNoticeLost]⟩,
  ⟨0x0F08, 320, 15, 1,
    [F.fltHist]⟩]

/-- State objects 0x0F10 to 0x1211 of the directory (R141). -/
def soTable6 : List SoDef := [
  ⟨0x0F10, 256, 15, 1,
    [F.fltRCommit, F.fltRAcq, F.fltRUp, F.fltRTwin, F.fltRIrq]⟩,
  ⟨0x0F20, 8, 15, 1,
    [F.fltEvPend]⟩,
  ⟨0x1000, 4, 16, 1,
    [F.safeGuardFilt, F.safeDiscMs, F.safeGuardHold, F.safeTestHours, F.safeTripMax, F.safeTripHold, F.safeCloseMs, F.safeTestUs, F.safeFbUs, F.safeLvcMs, F.safeLvcUsed, F.safeAckWin]⟩,
  ⟨0x1001, 5, 16, 1,
    [F.safeGuardClosed, F.safeGuardA, F.safeGuardB, F.safeRstIn, F.safeEdgeValid, F.safeTripActive, F.safeCloseActive, F.safeBkrClosed, F.safeSwOut, F.safeSwFb, F.safeSwOk, F.safeTestPend, F.safeTestRun, F.safeOutLow, F.safePreempts, F.safeTestAt, F.safeEdgeAt]⟩,
  ⟨0x1002, 1, 16, 1,
    [F.safeLvcFb, F.safeLvcClose]⟩,
  ⟨0x1100, 2, 17, 1,
    [F.memSscrubMs, F.memDscrubMin, F.memTDefault, F.memDscrubBatch]⟩,
  ⟨0x1101, 16, 17, 1,
    [F.memREn, F.memRT, F.memRBase, F.memRSize]⟩,
  ⟨0x1102, 5, 17, 1,
    [F.memDramOk, F.memSelfRef, F.memRanks, F.memDramMib, F.memScrubPaused, F.memDscrubLag, F.memDataPages, F.memSpassAt, F.memDpassAt]⟩,
  ⟨0x1103, 8, 17, 1,
    [F.memSCorr, F.memSUncorr, F.memDCorrPages, F.memDCorrBits, F.memDUncorr, F.memPartialRefused, F.memUnwrittenReads, F.memScrubCancelled]⟩,
  ⟨0x1104, 96, 17, 1,
    [F.memPValid, F.memPCleared, F.memPTag, F.memPPage, F.memPAtLo, F.memPAtHi]⟩,
  ⟨0x1105, 96, 17, 1,
    [F.memBRows, F.memBCols, F.memBCorr]⟩,
  ⟨0x1200, 64, 18, 1,
    [F.queCoolerMax]⟩,
  ⟨0x1201, 128, 18, 1,
    [F.queFill, F.quePkts, F.queCredit]⟩,
  ⟨0x1202, 128, 18, 1,
    [F.queLostPkts, F.queDropped]⟩,
  ⟨0x1210, 2, 18, 1,
    [F.queTelIp, F.queTelPort]⟩,
  ⟨0x1211, 128, 18, 1,
    [F.queTEn, F.queTDest, F.queTK, F.queTPeriod, F.queTSel1Hi, F.queTSel1Lo, F.queTSel2Hi, F.queTSel2Lo, F.queTSel3Hi, F.queTSel3Lo, F.queTSel4Hi, F.queTSel4Lo, F.queTSel5Hi, F.queTSel5Lo, F.queTSel6Hi, F.queTSel6Lo, F.queTSel7Hi, F.queTSel7Lo]⟩]

/-- State objects 0x1300 to 0x1312 of the directory (R141). -/
def soTable7 : List SoDef := [
  ⟨0x1300, 5, 19, 1,
    [F.acqStore, F.acqWrap, F.acqStages, F.acqDiv, F.acqLen, F.acqPre, F.acqSegs, F.acqBaseMib, F.acqSizeMib]⟩,
  ⟨0x1301, 16, 19, 1,
    [F.acqCEn, F.acqCKind, F.acqCSrc]⟩,
  ⟨0x1302, 16, 19, 1,
    [F.acqSKind, F.acqSChan, F.acqSCount, F.acqSWithin, F.acqSA, F.acqSB, F.acqSC]⟩,
  ⟨0x1303, 8, 19, 1,
    [F.acqHEn, F.acqHGate, F.acqHChan, F.acqHShift, F.acqHLo]⟩,
  ⟨0x1304, 4, 19, 1,
    [F.acqAEn, F.acqAChan, F.acqAShift, F.acqALo]⟩,
  ⟨0x1305, 1, 19, 1,
    [F.acqAClr, F.acqAHold, F.acqHClr, F.acqHHold]⟩,
  ⟨0x1310, 3, 19, 1,
    [F.acqState, F.acqStage, F.acqNextSeg, F.acqFilled, F.acqSegSeq]⟩,
  ⟨0x1311, 4, 19, 1,
    [F.acqOverruns, F.acqTrigIgnored, F.acqTruncated, F.acqHoldMissed]⟩,
  ⟨0x1312, 8, 19, 1,
    [F.acqHUnder, F.acqHOver]⟩]

/-- Every state object, in ascending order of identifier (R141). -/
def soTable : List SoDef :=
  soTable0 ++ soTable1 ++ soTable2 ++ soTable3 ++ soTable4 ++ soTable5 ++ soTable6 ++ soTable7

end Sys2Proof.Machine
end

