-- ==== Sys2Proof/Machine/Regs.lean ====
section
/-!
DEFINITION. Machine/Regs.lean: the words of the state objects: their keys, what a word reads as when nothing has
written it (R9: the Reset column), and reading and writing a field of a word table.
-/
namespace Sys2Proof.Machine

/-- The key of a word in the register table. -/
def wordKey (so word : Nat) : Nat := so * 65536 + word

/-- The identifier of the state object that holds instance i of a field. -/
def Fld.soAt (f : Fld) (i : Nat) : Nat := if f.soN = 1 then f.so else f.so + i

/-- The word index of instance i of a field. -/
def Fld.wordAt (f : Fld) (i : Nat) : Nat := if f.soN = 1 then f.word + f.stride * i else f.word

/-- The key of the word that holds instance i of a field. -/
def Fld.key (f : Fld) (i : Nat) : Nat := wordKey (f.soAt i) (f.wordAt i)

/-- The number of values of a field. -/
def Fld.size (f : Fld) : Nat := 2 ^ (f.hi - f.lo + 1)

/-- The largest value of a field. -/
def Fld.top (f : Fld) : Nat := f.size - 1

/-- Whether a field stands in a given word of its object. -/
def Fld.inWord (f : Fld) (word : Nat) : Bool :=
  decide (f.word ≤ word) && decide ((word - f.word) % f.stride = 0) && decide ((word - f.word) / f.stride < f.n)

/-- The state object of an identifier. -/
def soFind (so : Nat) : Option SoDef :=
  soTable.find? fun s => decide (s.so ≤ so) && decide (so < s.so + s.soN)

/-- The fields of a word. -/
def wordFlds (so word : Nat) : List Fld :=
  match soFind so with
  | some s => s.flds.filter (·.inWord word)
  | none => []

/-- The ROM ramp profile of R74: cycles passed of 16 less one, 40 reference cycles each, the last in word 3. -/
def romProfile (word : Nat) : Word :=
  match word with
  | 0 => 0x00010028 | 1 => 0x00030028 | 2 => 0x00070028 | 3 => 0x800B0028 | _ => 0

/-- The fixed dividers of R78, by output index. -/
def clkDivider (i : Nat) : Nat :=
  match i with
  | 0 => 250 | 1 => 100 | 2 => 100 | 3 => 50 | 4 => 40 | 5 => 32 | 6 => 20 | 7 => 16 | 8 => 16 | 9 => 8 | 10 => 8
  | 11 => 4 | _ => 0

/-- The base and ceiling levels of a class by default (R403): base in the tens, ceiling in the ones. -/
def classDefault (c : Nat) : Nat × Nat :=
  match c with
  | 0 => (1, 2) | 1 => (1, 1) | 2 => (3, 4) | 3 => (3, 4) | 4 => (3, 3) | 5 => (3, 3) | 6 => (2, 2) | 7 => (3, 3)
  | 8 => (1, 1) | 9 => (1, 1) | 10 => (2, 2) | 11 => (2, 2) | 12 => (1, 2) | 13 => (2, 2) | 14 => (1, 3)
  | 15 => (3, 3) | 16 => (3, 3) | 17 => (3, 3) | 18 => (1, 2) | 19 => (3, 3) | 20 => (3, 3) | 21 => (2, 2)
  | 22 => (1, 1) | 23 => (1, 1) | 24 => (2, 2) | 25 => (2, 2) | 26 => (2, 2) | 27 => (1, 1) | 28 => (4, 4)
  | 29 => (2, 2) | 30 => (3, 3) | 31 => (4, 4) | _ => (0, 0)

/-- The levels a class may be configured to (R403, the "allowed" column): lowest and highest. -/
def classAllowed (c : Nat) : Nat × Nat :=
  match c with
  | 0 => (0, 3) | 1 => (0, 2) | 2 => (3, 4) | 3 => (3, 3) | 4 => (3, 4) | 5 => (3, 4) | 6 => (2, 3) | 7 => (2, 4)
  | 8 => (0, 2) | 9 => (0, 2) | 10 => (2, 4) | 11 => (2, 3) | 12 => (1, 3) | 13 => (2, 4) | 14 => (1, 3)
  | 15 => (3, 4) | 16 => (3, 4) | 17 => (3, 4) | 18 => (0, 3) | 19 => (3, 4) | 20 => (2, 4) | 21 => (2, 3)
  | 22 => (0, 2) | 23 => (0, 2) | 24 => (2, 2) | 25 => (2, 2) | 26 => (2, 3) | 27 => (0, 2) | 28 => (4, 4)
  | 29 => (2, 4) | 30 => (3, 4) | 31 => (4, 4) | _ => (0, 0)

/-- The words whose reset value is not the same in every instance of a field. -/
def resetSpecial (so word : Nat) (w : Word) : Word :=
  if so = 0x0083 then romProfile word
  else if so = 0x0084 then putBits w 23 16 (clkDivider word)
  else if so = 0x0F03 then putBits (putBits w 6 4 (classDefault word).1) 2 0 (classDefault word).2
  else if so = 0x0F10 && word = 1 then putBits w 3 0 1
  else w

/-- The reset value of a word (R9), from the Reset column of its fields. -/
def resetWordOf (so word : Nat) : Word :=
  resetSpecial so word ((wordFlds so word).foldl (fun w f => putBits w f.hi f.lo f.reset) 0)

/-- The reset value at a key. -/
def resetWord (key : Nat) : Word := resetWordOf (key / 65536) (key % 65536)

/-- The table of register words: keys of `wordKey`, unlisted words at their reset value. -/
abbrev RegFile := List (Nat × Word)

/-- The word at an object and index. -/
def regWord (t : RegFile) (so word : Nat) : Word := tget resetWord t (wordKey so word)

/-- Write a whole word. -/
def regSetWord (t : RegFile) (so word : Nat) (v : Word) : RegFile := tset resetWord t (wordKey so word) v

/-- Instance i of a field. -/
def regGet (t : RegFile) (f : Fld) (i : Nat) : Nat := getBits (tget resetWord t (f.key i)) f.hi f.lo

/-- Write instance i of a field. -/
def regSet (t : RegFile) (f : Fld) (i v : Nat) : RegFile :=
  tset resetWord t (f.key i) (putBits (tget resetWord t (f.key i)) f.hi f.lo v)

/-- The bits of a word that fields of some access codes cover. -/
def accMask (so word : Nat) (p : Acc → Bool) : Word :=
  ((wordFlds so word).filter (fun f => p f.acc)).foldl (fun m f => m ||| maskBits f.hi f.lo) 0

/-- The bits of a word that no field covers (R8: reserved; they read 0). -/
def reservedMask (so word : Nat) : Word := ~~~ accMask so word (fun _ => true)

/-- Whether the object has this word. -/
def wordExists (so word : Nat) : Bool :=
  match soFind so with
  | some s => decide (word < s.words)
  | none => false

end Sys2Proof.Machine
end

