-- ==== Sys2Proof/Machine/State.lean ====
section
/-!
DEFINITION. Machine/State.lean: the state of the block as plain data: the register words of every state object, and
the state the spec gives the block behind them, unit by unit; and the state right after reset.
-/
namespace Sys2Proof.Machine

/-- A string of bytes: a packet, a reply, a frame payload, a page. -/
abbrev Bytes := List Byte

/-- How the block may stop. No meaning of this model faults: the block has no instruction that stops it. -/
inductive Fault where
  /-- Raised by no meaning; kept so that the outcome type is not empty of faults. Safe. -/
  | none
deriving DecidableEq, Repr

/-- Why a command has no outcome. -/
inductive Refusal where
  /-- Raised by an arm of exec whose meaning has not been written. Safe: nothing is claimed of it. -/
  | notModelled (mnemonic : String)
deriving DecidableEq, Repr

/-! ## Start-up (chapter 2) -/

/-- Where the device stands between power and Light (R42 to R60). -/
inductive BootStage where
  | waiting | sparkFuses | sparkPll | sparkRamp | sparkSram | stopped | kindle | light
deriving DecidableEq, Repr

/-- One directory entry of an image header (R51). -/
structure DirEntry where
  typ : Nat := 0
  flags : Nat := 0
  first : Nat := 0
  count : Nat := 0
  lastLen : Nat := 0
deriving DecidableEq, Repr

/-- A valid image header (R51). -/
structure ImgHdr where
  seq : Nat := 0
  length : Nat := 0
  readMode : Nat := 0
  dummy : Nat := 0
  readClock : Nat := 0
  romMatch : Nat := 0
  dir : List DirEntry := []
deriving DecidableEq, Repr

/-- Start-up progress: headers found and the payloads of their blocks, the slot being tried (true for B), the next block, the blocks so far, re-reads of the
block in hand, a verification awaited, DRAM training that failed. -/
structure Boot where
  stage : BootStage := .waiting
  headersRead : Nat := 0
  hdrA : Option ImgHdr := none
  hdrB : Option ImgHdr := none
  blockA : Bytes := []
  blockB : Bytes := []
  rereads : Nat := 0
  trying : Option Bool := none
  next : Nat := 0
  blocks : List (Nat × Bytes) := []
  accepted : Bool := false
  sigWait : Bool := false
  dramFailed : Bool := false
deriving DecidableEq, Repr

/-- The fuse array (R48): the words the board maker programs, and the vendor's as the first read of this part found them. -/
structure Fuse where
  signedBoot : Bool := false
  keyLocked : Bool := false
  keyHash : List Word := []
  part : Option FuseRead := none
deriving DecidableEq, Repr

/-- The update of an image slot through the 0xF_ group (R58, R115). -/
structure ImgUpdate where
  active : Bool := false
  slotB : Bool := false
  length : Nat := 0
  erased : Nat := 0
  failed : Bool := false
  written : List Nat := []
  programming : List (Nat × Bytes) := []
  finishing : Bool := false
  done : Bool := false
deriving DecidableEq, Repr

/-! ## Clocks (chapter 3) -/

/-- What the clock supervision knows beyond SO 0x0080: rails below warning, outputs out of range at the last count, the
local reference missing, how long lock has been lost, a relock and the band of the table it tries, the charge-pump code
loaded from the table (none: the fuse-trimmed current of R71), whether SAFE runs on the supervisor oscillator (R76), the
temperature warning given, since when the recovered reference has been good without a break (R69). -/
structure Clk where
  railsLow : Nat := 0
  monBad : Nat := 0
  localLost : Bool := false
  unlocked5ms : Bool := false
  relocking : Bool := false
  tableBand : Option Nat := none
  pumpCode : Option Nat := none
  safeOnSup : Bool := false
  tWarned : Bool := false
  refGoodFrom : Nat := 0
deriving DecidableEq, Repr

/-! ## Time (chapter 8) -/

/-- The fabric-time counter: fine ticks, the 32-bit fraction of R196, the next boundary and the index it has; the last offset sample
that the servo used, whether there was one, since when TIME.SRC names its source (R202, R203); the TIME_SYNC frames seen (R206); and
what the acquisition load has taken off the count (R199), which no interval sees. -/
structure Clock where
  now : Nat := 0
  frac : Nat := 0
  boundary : Nat := 0
  index : Nat := 0
  lastSampleAt : Nat := 0
  haveSample : Bool := false
  srcFrom : Nat := 0
  syncSeen : List Nat := []
  shift : Int := 0
deriving DecidableEq, Repr

/-- A programme of a time-pulse output (R216): the mode, whether in network timebase, start and period as sent, and the first firing in
fabric time. -/
structure TpoProg where
  mode : Nat := 0
  net : Bool := false
  start : Nat := 0
  period : Nat := 0
  first : Nat := 0
deriving DecidableEq, Repr

/-- A time-pulse output (R216, R217): whether a pulse is active and when it ends, the next firing in fabric time and in network time,
the period, a programme that waits for the end of the pulse. -/
structure Tpo where
  level : Bool := false
  endAt : Nat := 0
  next : Nat := 0
  nextNet : Nat := 0
  period : Nat := 0
  pending : Option TpoProg := none
deriving DecidableEq, Repr

/-- The time exchanges of a lane (R204 to R206): as initiator the SYNC_ID in use, when it was sent on, whether its exchange was valid;
as responder the SYNC_IDs answered and the last one; the departure of the TIME_SYNC, whether a response is awaited, whether it was sent
exactly once, the last valid delay samples. -/
structure LaneTime where
  syncId : Nat := 0
  sentAt : Nat := 0
  done : Bool := true
  answered : Nat := 0
  lastId : Option Nat := none
  t1 : Nat := 0
  pending : Bool := false
  clean : Bool := true
  delays : List Int := []
deriving DecidableEq, Repr

/-- The states of the PTP port (R208, IEEE 1588). -/
inductive PtpState where
  | initializing | listening | master | passive | uncalibrated | slave
deriving DecidableEq, Repr

/-- The PTP port (R208): its state, the best master heard with its rank and when its last Announce came; the Sync in hand; the delay
request in hand and the mean path delay; the peer-delay exchange in hand; the last offset; sequence numbers and the instants at which
its messages were last sent. -/
structure Ptp where
  state : PtpState := .initializing
  master : Nat := 0
  masterRank : List Nat := []
  announceAt : Nat := 0
  syncSeq : Nat := 0
  syncRx : Nat := 0
  syncOrigin : Nat := 0
  syncCorr : Int := 0
  awaitFollow : Bool := false
  delaySeq : Nat := 0
  delayTx : Nat := 0
  meanDelay : Int := 0
  haveDelay : Bool := false
  pdReqSeq : Nat := 0
  pdT1 : Nat := 0
  pdT2 : Nat := 0
  pdT4 : Nat := 0
  pdCorr : Int := 0
  offset : Int := 0
  txSeq : Nat := 0
  annSeq : Nat := 0
  syncAt : Option Nat := none
  annAt : Option Nat := none
  delayAt : Option Nat := none
deriving DecidableEq, Repr

/-! ## Packets, sessions and queues (chapters 4 and 18) -/

/-- Who a reply goes to, and what it echoes (R97): the source, the opcode, the tag, the session, the packet's CRC for
R112, the instant the interpreter took it, and for a packet out of MANAGE_REQ frames the lane, SRC and MSG_ID. -/
structure Ticket where
  src : Src := .host
  op : Nat := 0
  tag : Nat := 0
  session : Nat := 0
  crc : Nat := 0
  stamp : Nat := 0
  via : Option (Nat × Nat × Nat) := none
deriving DecidableEq, Repr

/-- What a parked packet waits for (R111). -/
inductive Park where
  | commit
  | mode (target : Nat)
  | calWrite (page : Nat)
  | forward (msgId : Nat)
  | credit (packet : Bytes)
deriving DecidableEq, Repr

/-- A parked packet. -/
structure Parked where
  ticket : Ticket := {}
  why : Park := .commit
deriving DecidableEq, Repr

/-- A session (R103 to R112). -/
structure Session where
  isOpen : Bool := false
  auth : Nat := 0
  ip : Nat := 0
  udp : Nat := 0
  lastAt : Nat := 0
  subs : Nat := 0
  kept : List (Nat × Nat × Bytes) := []
deriving DecidableEq, Repr

/-- A credit window (R107): packets taken and packets answered. -/
structure Window where
  taken : Nat := 0
  answered : Nat := 0
deriving DecidableEq, Repr

/-- What a frame of the network port carries (R93, R119, R208): a UDP datagram, an ARP request or reply, an ICMP echo reply, a PTP
message over Layer 2 or UDP. -/
inductive NetBody where
  | udp (ip port : Nat) (payload : Bytes)
  | arp (request : Bool) (ip : Nat)
  | icmp (ip : Nat) (payload : Bytes)
  | ptp (overUdp : Bool) (m : PtpMsg)
deriving DecidableEq, Repr

/-- A frame the network port sends: the destination MAC address, its IEEE 802.1Q tag, what it carries. -/
structure NetFrame where
  mac : Nat
  tag : Option Nat
  body : NetBody
deriving DecidableEq, Repr

/-- The host and network ports: windows (0 host, 1 to 16 network sessions 16 to 31, 17 parent), what the
host port last drove, the ARP entries (address, MAC, instant) and the addresses asked for, the frames sent at the present instant and
the link of the network port; whether a firmware fault strikes the packet executed next (R102). -/
structure Ports where
  windows : List (Nat × Window) := []
  arp : List (Nat × Nat × Nat) := []
  arpWait : List Nat := []
  netOut : List NetFrame := []
  internalDue : Bool := false
  linkUp : Bool := false
  hostOut : Bytes := []
deriving DecidableEq, Repr

/-- One 64-byte queue entry and its side-band mark (R463). -/
structure QEnt where
  bytes : Bytes := []
  last : Bool := false
deriving DecidableEq, Repr

/-- A queue (R463, R464): head and tail registers, the on-die spill, the Cooler pages in order, credit granted. -/
structure Queue where
  head : List QEnt := []
  sram : List QEnt := []
  cooler : List (Nat × List QEnt) := []
  tail : List QEnt := []
  chunks : List Nat := []
deriving DecidableEq, Repr

/-! ## Lanes and frames (chapters 6 and 7) -/

/-- A frame waiting for its first transmission: type, address, LOCAL, deadline, rank and member under R32 and R33, the instant before
which it does not leave (R239), the number of the revision it carries (R242; 0 for none), payload. -/
structure TxItem where
  ftype : Nat := 0
  addr : Nat := 0
  loc : Bool := false
  dl : Option Nat := none
  rank : Nat := 0
  member : Nat := 0
  notBefore : Nat := 0
  revision : Nat := 0
  payload : Bytes := []
deriving DecidableEq, Repr

/-- A frame held in the replay buffer (R178): its sequence number, whether it is now VOID, whether it has been sent more
than once, the end of its last transmission. -/
structure Sent where
  seq : Nat := 0
  item : TxItem := {}
  void : Bool := false
  resent : Bool := false
  endAt : Nat := 0
deriving DecidableEq, Repr

/-- What a lane transmits at a block boundary (R182). -/
inductive TxUnit where
  | train (block : Bytes)
  | idle
  | prbs (bits : List Bool)
  | looped
  | douse (block : Bytes)
  | ack (seq : Nat)
  | nak (seq : Nat)
  | frame (seq : Nat) (bytes : Bytes)
  | wakeBlocks (count : Nat)
  | sleepBlocks (count : Nat)
deriving DecidableEq, Repr

/-- A lane behind its status words (R151 to R182).
Bring-up: the last verified rate, the common mask, the rate proposed, the cut of R156, FALLBACK taken, the quiet time, a hunt at a
new rate; the instants at which the attempt, the present step, the quiet time, VERIFY's count, REHUNT, FAILED and a wake began; the
far end's blocks of this step counted, those of the present phase for HEARD, what VERIFY has shown; the COUNT of the next TRAIN
block, the blocks of the present kind still to send, READY being sent; UP below the top rate after FALLBACK, a restart due at the
next boundary (R157). Frames: those waiting and held, what acknowledgement is due, a frame cut by Douse that goes out again, the
unit last put on the line with its end, an ACK or NAK put inside it, the scrambler's last 58 bits before it, its unscrambled
blocks (true for a control block), the PRBS31 generator of loopback kind 4. -/
structure Lane where
  verified : Nat := 0
  mask : Nat := 0
  target : Nat := 7
  cut : Nat := 31
  fallback : Bool := false
  quiet : Bool := false
  atNew : Bool := false
  attemptAt : Nat := 0
  stepAt : Nat := 0
  quietAt : Nat := 0
  verifyFrom : Nat := 0
  rehuntAt : Nat := 0
  failedAt : Nat := 0
  wakeAt : Nat := 0
  seen : Nat := 0
  run : Nat := 0
  passed : Bool := false
  farHeard : Bool := false
  txCount : Nat := 0
  toSend : Nat := 0
  ready : Bool := false
  limited : Bool := false
  restartDue : Bool := false
  waking : Bool := false
  wait : List TxItem := []
  held : List Sent := []
  replay : List Nat := []
  retries : Nat := 0
  retrySeq : Nat := 0
  ackDue : Option Nat := none
  nakDue : Option Nat := none
  naked : Option Nat := none
  nakAt : Nat := 0
  douseLeft : Nat := 0
  douseLevel : Nat := 3
  again : Option Nat := none
  lastFrameAt : Nat := 0
  sending : Option TxUnit := none
  inset : Option TxUnit := none
  busyUntil : Nat := 0
  scram : BitVec 58 := 0
  line : List (Bool × Bytes) := []
  prbs : BitVec 31 := 0x7FFFFFFF
deriving DecidableEq, Repr

/-- A MANAGE message under reassembly (R175): its pair, whether it is a request, its lane, its unit slot, the instant of its
first segment, the segments it has and got. -/
structure Reasm where
  src : Nat := 0
  msgId : Nat := 0
  req : Bool := true
  lane : Nat := 0
  slot : Nat := 127
  at_ : Nat := 0
  segs : Nat := 0
  got : Nat := 0
  bytes : Bytes := []
deriving DecidableEq, Repr

/-! ## Basket, modes and steps (chapters 1 and 5) -/

/-- How a commit was armed (R139): the kind of the log. -/
inductive ArmKind where
  | now | at | light | input
deriving DecidableEq, Repr

/-- An armed commit: the instant, the kind, the session. -/
structure Armed where
  instant : Nat := 0
  kind : ArmKind := .now
  session : Nat := 0xFF
deriving DecidableEq, Repr

/-- The Basket (R120): staged words as (mask, value), the entries of the image that name nothing that can be staged (object, word, the
rule they fail), the armed commit, the CHECK report, the commit log. -/
structure Basket where
  words : List (Nat × (Word × Word)) := []
  badEntries : List (Nat × Nat × Nat) := []
  armed : Option Armed := none
  report : List (Nat × Nat × Nat × Nat) := []
  log : List (List Word) := []
deriving DecidableEq, Repr

/-- The mode machine behind SO 0x0002: the run mode held before, when the present mode was entered, the ride-through
count of boundaries inside, whether a fault changed the mode in the cycle that ends. -/
structure Modes where
  runBefore : Nat := 6
  enteredAt : Nat := 0
  insideFor : Nat := 0
  faultChanged : Bool := false
deriving DecidableEq, Repr

/-- A step sequence (R28): a return to HELD that is due, a STEP_CONTINUE taken, the first step still to start, the modulation, levels held as (slot, target, level), legs forced. -/
structure Steps where
  leave : Bool := false
  contReq : Bool := false
  startReq : Bool := false
  modulate : Bool := false
  levels : List (Nat × Nat × Nat) := []
  legs : List Nat := []
deriving DecidableEq, Repr

/-! ## Faults and events (chapter 16) -/

/-- A raise waiting for the classifier (R402): class, source bit, the DATA of R414. -/
structure Raise where
  cls : Nat := 0
  src : Nat := 0
  data : Nat := 0
deriving DecidableEq, Repr

/-- An event record (R413). -/
structure EvRec where
  source : Nat := 0
  cls : Nat := 0xFF
  level : Nat := 0xFF
  flags : Nat := 0
  seq : Nat := 0
  at_ : Nat := 0
  mask : Nat := 0
  data : Nat := 0
deriving DecidableEq, Repr

/-- The collector: raises to classify, the history (newest first), the instant and levels of the DOUSE blocks of the last
millisecond on U, the sources each class was last set by with the instant (R408), and the event sources raised in the SAFE cycle that
saw the last raise (R416). -/
structure Collector where
  raises : List Raise := []
  history : List EvRec := []
  douseUAt : Option Nat := none
  douseULevels : Nat := 0
  lastEv : List (Nat × (Nat × Nat)) := []
  raised : List Nat := []
  raisedIn : Nat := 0
deriving DecidableEq, Repr

/-! ## The safety island (chapter 17) -/

/-- A switch test in progress (R437): none, or the switch under test and the part of its test. -/
inductive SwitchTest where
  | idle
  | on (switch : Nat) (passed : Nat)
  | gap (switch : Nat) (passed : Nat)
deriving DecidableEq, Repr

/-- The start-up test of the door guard (R431). -/
inductive GuardTest where
  | idle | waitOpen | opening | waitClose | closing
deriving DecidableEq, Repr

/-- The island: the guard test and whether it is the start-up test, a stuck button, the demand in force (whether by SNUFFED,
whether BKR_AUX has still to read open, whether it failed to open), whether BKR_AUX has read closed in the close pulse, the
switch test, the switches and contactors whose fault stands, the watchdog, the contactor outputs, the first commit; and the instants
from which its intervals count: the guard's present reading, its discrepancy, the trip demand, BKR_AUX open, a trip that failed, the
close pulse, BKR_AUX closed in it, the step of the switch test, the period of the tests, the watchdog late, each LVC_ENn. -/
structure Island where
  guardTest : GuardTest := .idle
  startTest : Bool := false
  discrepancy : Bool := false
  stuckActive : Bool := false
  tripSnuffed : Bool := false
  tripWait : Bool := false
  tripFailed : Bool := false
  closeSeen : Bool := false
  test : SwitchTest := .idle
  switchFault : Nat := 0
  lvcMismatch : Nat := 0
  watchdogLate : Bool := false
  lvcEn : Nat := 0
  firstCommit : Bool := false
  guardFrom : Nat := 0
  discFrom : Nat := 0
  tripAt : Nat := 0
  openAt : Nat := 0
  failedAt : Nat := 0
  closeAt : Nat := 0
  closedAt : Nat := 0
  testFrom : Nat := 0
  periodFrom : Nat := 0
  lateAt : Nat := 0
  lvcAt : List Nat := [0, 0, 0, 0]
deriving DecidableEq, Repr

/-! ## Memory (chapter 18) -/

/-- A DRAM page as written (R453, R454): its data, TAG and strength, and whether it now decodes as uncorrectable. -/
structure Page where
  data : Bytes := []
  spare : Bytes := []
  tag : Nat := 0
  strength : Nat := 1
  poisoned : Bool := false
  test : Bool := false
deriving DecidableEq, Repr

/-- An entry of the poison list (R458). -/
structure Poison where
  page : Nat := 0
  tag : Nat := 0
  at_ : Nat := 0
  cleared : Bool := false
deriving DecidableEq, Repr

/-- The memories: pages written since Kindle, the poison list (newest first), the SRAM test window (data and check
byte of each word), recorded test locations, poisoned SRAM words, the last DRAM access of a queue or of Lantern (R40); whether the DRAM
scrubber catches up awake, since when its pass runs and the pages it has read in it (R461). -/
structure Mem where
  pages : List (Nat × Page) := []
  poison : List Poison := []
  window : List (Nat × (BitVec 64 × Byte)) := []
  tests : List Nat := []
  sramPoison : List (Nat × Nat) := []
  lastAccess : Nat := 0
  draining : Bool := false
  passFrom : Nat := 0
  passDone : Nat := 0
deriving DecidableEq, Repr

/-! ## Calibration (chapter 13) -/

/-- The calibration store (R354, R356): pages that differ from their factory content, write counts, the page being
written, and the pages in force. -/
structure Cal where
  pages : List (Nat × Bytes) := []
  counts : List (Nat × Nat) := []
  force : List (Nat × Bytes) := []
  broken : List Nat := []
  writing : Option (Nat × Bytes) := none
  apply : List Nat := []
deriving DecidableEq, Repr

/-! ## Cells and the edge scheduler (chapter 9) -/

/-- A leg or bridge as scheduled (R232): the last level sent, when it was reached, a transition carried into the next
window (R234). -/
structure Target where
  level : Nat := 0
  at_ : Option Int := none
  carried : Option (Int × Nat) := none
deriving DecidableEq, Repr

/-- An edge entry (R237): fabric time, LEG, LEVEL, REVISE; behind it the epoch of its schedule and the nominal instant of the
transition it belongs to, if any (R232, R233). -/
structure Edge where
  at_ : Int := 0
  leg : Nat := 0
  level : Nat := 0
  revise : Bool := false
  epoch : Int := 0
  nom : Option Int := none
deriving DecidableEq, Repr

/-- A cell slot behind its words: what Hamper gave it, its legs and bridges, its samples and markers, its last report, and
its place in bypass: stage 1 in the arm, 2 bypass pending, 3 bypassed, 4 reinserting; the classes that caused it, the epoch
at which it takes effect, epochs since without confirmation, a reinsertion accepted and its ramp (R246 to R249). A marker is its instant,
its value set and its kind: 0 that of MOD.SMP1_OFS, 1 that of MOD.SMP0_OFS, 2 the same once it has counted as missing (R245). -/
structure Cell where
  hshare : Int := 0
  share : Int := 0
  trim : Int := 0
  legA : Target := {}
  legB : Target := {}
  pri : Target := {}
  sec : Target := {}
  values : List (Nat × Int) := []
  sampleAt : Nat := 0
  u : Int := 0
  uAt : Nat := 0
  uFresh : Bool := false
  markers : List (Nat × Nat × Nat) := []
  edges : List Edge := []
  sampled : Bool := false
  health : Nat := 0
  reported : Bool := false
  stage : Nat := 1
  causes : Nat := 0
  effective : Option Nat := none
  epochs : Nat := 0
  warned : Bool := false
  reinsert : Bool := false
  ramp : Nat := 0
  dischargeDone : Bool := false
  healthReport : Bytes := []
deriving DecidableEq, Repr

/-- The edge scheduler: the epoch last expanded, whether a Douse was sent since switching last ran, whether the next
expansion is the first of its mode, whether a MODULATE 0 asks for OFF, the m and d of each slot and the saturation and v* of
each arm for the epoch expanded (shown once it begins, R253, R254), whether a clamp has been counted for that epoch and for the
one in progress (R227), EDGE_SCHEDULE frames by lane for both, the digests formed, the number of the last revision and of the last
one counted as dropped for a VOID frame (R242). -/
structure Sched where
  expanded : Nat := 0
  douseSent : Bool := false
  firstEpoch : Bool := false
  offNow : Bool := false
  nextCells : List (Nat × (Nat × Nat)) := []
  nextArms : List (Nat × (Nat × Nat)) := []
  clampedNext : Bool := false
  clampedNow : Bool := false
  counts : List (Nat × Nat) := []
  countsNow : List (Nat × Nat) := []
  digests : List (Nat × Nat) := []
  revision : Nat := 0
  revisionLost : Nat := 0
deriving DecidableEq, Repr

/-! ## The control engine (chapter 10) -/

/-- A loop slot behind its words: the committed LOOP.I_ACTION that waits to act once (R278), whether its next
evaluation resets it (R267), the last fast-path evaluations as (trigger, completion, output), newest first (R259). -/
structure Loop where
  action : Nat := 0
  fresh : Bool := false
  evals : List (Nat × Nat × Int) := []
deriving DecidableEq, Repr

/-- The state one evaluation carries from the one before (R260): the integrator in Q12.52, D, W, y_prev, the biquad states and
the output. -/
structure SlotState where
  integ : Int := 0
  dState : Int := 0
  w : Int := 0
  yPrev : Int := 0
  bq : List Int := []
  out : Int := 0
deriving DecidableEq, Repr

/-- What one evaluation forms (R260). -/
structure SlotEval where
  st : SlotState := {}
  err : Int := 0
  y : Int := 0
  raw : Int := 0
  lim : Int := 0
  upper : Int := 0
  lower : Int := 0
  sat : Bool := false
  cross : Bool := false
  intHi : Bool := false
  intLo : Bool := false
  clipped : Bool := false
  clipEvent : Bool := false
deriving DecidableEq, Repr

/-- An evaluation of a regular slot in the cycle of an index (R265): its engine, the slots of the same cycle it waits for, its
group, whether it belongs to the pre-schedule set; the instants at which it latched, ends and published; whether it tracks,
whether its overrun has been counted, what it formed. -/
structure Job where
  slot : Nat := 0
  cycle : Nat := 0
  engine : Nat := 0
  deps : List Nat := []
  group : Option Nat := none
  pre : Bool := false
  startAt : Option Nat := none
  endAt : Nat := 0
  doneAt : Option Nat := none
  tracking : Bool := false
  overran : Bool := false
  ev : SlotEval := {}
deriving DecidableEq, Repr

/-- An evaluation of a fast-path slot (R270 to R273): its engine, its trigger instant, when it takes the engine, when it publishes,
whether it has latched and what it formed. -/
structure FastJob where
  slot : Nat := 0
  engine : Nat := 0
  trigger : Nat := 0
  startAt : Nat := 0
  doneAt : Nat := 0
  latched : Bool := false
  tracking : Bool := false
  ev : SlotEval := {}
deriving DecidableEq, Repr

/-- A channel output on its way from the edge that completed its window to its publication (R349): when it is published, its output
instant, y and x. -/
structure ChanOut where
  chan : Nat := 0
  due : Nat := 0
  at_ : Nat := 0
  y : Int := 0
  x : Int := 0
deriving DecidableEq, Repr

/-- The loop engines: the channel outputs about to be published (R349); the two snapshots of R259 with the instants of their boundaries and the index of the cycle in hand; the
evaluations of the cycle, in Hamper's order on each engine, those of fast-path slots, and until when a fast-path evaluation
occupies each engine; the schedule point still to come, and the slots that had not published at it with the value they are read
at (R268); the groups resolved at least once; the words of slot definitions overwritten in the last CTRL cycle that saw a live
write, and in that of the last commit, as they were (R37, R277); engines whose failure is latched with whether the placement without them has been computed, engines withdrawn for good
(R296); triggers that wait (R270). -/
structure Engines where
  outs : List ChanOut := []
  snap : List (Nat × Int) := []
  snapAt : Nat := 0
  prev : List (Nat × Int) := []
  prevAt : Nat := 0
  snaps : Nat := 0
  cycle : Nat := 0
  jobs : List Job := []
  fast : List FastJob := []
  busy : List (Nat × Nat) := []
  schedAt : Option Nat := none
  late : List (Nat × Int) := []
  resolved : List Nat := []
  overwritten : List (Nat × Word) := []
  overwrittenIn : Nat := 0
  struck : List (Nat × Word) := []
  struckIn : Nat := 0
  failing : List (Nat × Bool) := []
  gone : List Nat := []
  triggers : List (Nat × Nat) := []
deriving DecidableEq, Repr

/-! ## Hamper and the Tallow ledger (chapter 11) -/

/-- One cell of a placement (R288 to R292). -/
structure Place where
  slot : Nat := 0
  arm : Nat := 0
  kidx : Nat := 0
  jidx : Nat := 0
  rank2 : Nat := 0
  share : Int := 0
  trim : Int := 0
  score : Int := 0
deriving DecidableEq, Repr

/-- The placement computed at a boundary and not yet published, the boundary's index, and the slots that the last published
one covers, each with its arm. -/
structure Hamper where
  next : Option (List Place) := none
  nextIndex : Nat := 0
  covered : List (Nat × Nat) := []
deriving DecidableEq, Repr

/-- The rainflow state of one cell slot (R299, R300): the residue, oldest first, the latest extreme, the direction
(0 none, 1 rising, 2 falling), and whether a SAMPLE of this control cycle has been taken. -/
structure Wear where
  residue : List Int := []
  extreme : Option Int := none
  dir : Nat := 0
  counted : Bool := false
deriving DecidableEq, Repr

/-- The ledger's clear request, the instants of the restore, of the last periodic checkpoint and of the last one done, the
hours of the chain, a checkpoint asked for with its sector, the copy being written, and when a failed one is retried
(R303 to R307). -/
structure Ledger where
  clear : Option Nat := none
  restoredAt : Nat := 0
  ckptAt : Nat := 0
  doneAt : Nat := 0
  hours : Nat := 0
  wanted : Option Nat := none
  copy : Option (Nat × Bytes) := none
  retryAt : Option (Nat × Nat) := none
deriving DecidableEq, Repr

/-! ## The local stage (chapter 12) -/

/-- A leg behind its words: whether its counter runs, the instants of its last zero event and of the first one since its start,
periods since its start, when each compare acted in this period, the gate requests, the pending turn-on after a dead time (true for
GH) with its instant, the end of the blanking window, whether priming is over, consecutive cut periods and when the present cut
began, since when GH is on, the first rising edge of the pump that runs and the falling edge at which it stops, the shadow compares
before the first write of a CTRL cycle with that cycle (R320). -/
structure Leg where
  counting : Bool := false
  zeroAt : Nat := 0
  startAt : Nat := 0
  periods : Nat := 0
  aDone : Option Nat := none
  bDone : Option Nat := none
  ghReq : Bool := false
  glReq : Bool := false
  dead : Option (Bool × Nat) := none
  blank : Option Nat := none
  primed : Bool := false
  cutRun : Nat := 0
  cutAt : Nat := 0
  ghSince : Option Nat := none
  pumpFrom : Option Nat := none
  pumpTill : Option Nat := none
  shadow : Option (Nat × Nat × Nat) := none
deriving DecidableEq, Repr

/-- The brake and the DC-link trip comparators (R333 to R335): since when BRK is high, the fine ticks it was high earlier in the
millisecond of the heating model, and the start of that millisecond. -/
structure Brake where
  onAt : Nat := 0
  onTicks : Nat := 0
  tickAt : Nat := 0
  trip0 : Bool := false
  trip1 : Bool := false
deriving DecidableEq, Repr

/-! ## Measurement channels (chapter 13) -/

/-- A sinc filter (R346): its integrators, one for each of its orders, and what each of its differentiators held at the last window's
end, all modulo 2^32; the windows still to complete before its result is whole (R348). -/
structure Sinc where
  integ : List Nat := []
  diff : List Nat := []
  toSettle : Nat := 0
deriving DecidableEq, Repr

/-- A channel behind its words: whether it runs, its main filter and its fast one (R346, R350), consecutive fast-path outputs outside
the window (R350). -/
structure Chan where
  running : Bool := false
  main : Sinc := {}
  fast : Sinc := {}
  ocRun : Nat := 0
deriving DecidableEq, Repr

/-! ## Groups and trees (chapter 14) -/

/-- A unit command: APPLY_AT, CMD_SEQ, PRESENT and the eleven quantities. -/
structure UCmd where
  applyAt : Nat := 0
  seq : Nat := 0
  present : Nat := 0
  values : List (Nat × Int) := []
deriving DecidableEq, Repr

/-- A child on a down port: its last report, the boundary index of its readmission, what was last sent to it. -/
structure Child where
  present : Nat := 0
  values : List (Nat × Int) := []
  reportAt : Nat := 0
  fresh : Bool := false
  readmit : Bool := false
  ramp : Nat := 0
  allNext : Bool := false
  sent : Option UCmd := none
  sentAt : Nat := 0
  seq : Nat := 0
deriving DecidableEq, Repr

/-- The group: the last accepted CMD_SEQ, a pending command, the instant of the last word from the parent and of its
loss, reports sent, the partner's view of session 32, the node that last sent a request down U, and the MGMT cycle of the last
UNIT_COMMAND accepted (R363). -/
structure Group where
  accepted : Option Nat := none
  pending : Option UCmd := none
  children : List (Nat × Child) := []
  heardAt : Nat := 0
  lostAt : Nat := 0
  ramping : Bool := false
  reportCycle : Nat := 0
  lastHealth : Nat := 0
  lastHealthy : Nat := 0
  lastTotal : Nat := 0
  partnerOpen : Bool := false
  parentNode : Nat := 0
  parentCycle : Option Nat := none
deriving DecidableEq, Repr

/-! ## The twin (chapter 15) -/

/-- A SAMPLE as received, for Pilot's replay (R389): slot, SAMPLE_AT, values, and whether it triggered. -/
structure Heard where
  slot : Nat := 0
  at_ : Nat := 0
  values : List Int := []
deriving DecidableEq, Repr

/-- A state copy under reception (R387): its cycle, chunk count and chunks. -/
structure Copy where
  cycle : Nat := 0
  chunks : Nat := 0
  got : List (Nat × Bytes) := []
deriving DecidableEq, Repr

/-- The twin logic: partner's WICK and frames, its report, the lease issued, what cells have shown, the copy and digests
in hand, the self-check, the report counters, Flame's rotating place. -/
structure Twin where
  wickAt : Option Nat := none
  wickExpiry : Nat := 0
  wickEpoch : Nat := 0
  frameAt : Option Nat := none
  reportAt : Option Nat := none
  report : Bytes := []
  ownReport : Bytes := []
  leaseOut : Bool := false
  cellEpoch : Nat := 0
  cellSeen : List (Nat × (Nat × Nat)) := []
  released : Bool := false
  finalCopy : Bool := false
  heard : List Heard := []
  copy : Option Copy := none
  digests : List (Nat × Nat) := []
  digestCycle : Nat := 0
  replayed : Option Nat := none
  waitRound : Bool := true
  inRound : Bool := false
  replaying : Bool := false
  holding : Bool := false
  rotNext : Nat := 0
  checking : Bool := false
  checkAt : Nat := 0
  checkResult : Nat := 0
  flameResult : Nat := 0
  divPending : Bool := false
  divEligible : Bool := false
  linkLost : Bool := false
  reportSeq : Nat := 0
  repCompared : Nat := 0
  repMismatch : Nat := 0
  repUnverified : Nat := 0
  slices : Nat := 0
  sliceFails : Nat := 0
  repCorrected : Nat := 0
  repLoopback : Nat := 0
  nextSlice : Nat := 0
  copyMode : Nat := 0
  revisions : Nat := 0
  cellInputs : List (Nat × (Nat × Nat)) := []
deriving DecidableEq, Repr

/-! ## Lantern (chapter 19) -/

/-- A stage latch: an event condition that has happened since its stage was last tested, with its instant and word. -/
structure Latch where
  at_ : Nat := 0
  word : Nat := 0
deriving DecidableEq, Repr

/-- A segment being recorded or drained: its place in the region and its half, the samples passed and those kept, its
header's fields. -/
structure Seg where
  index : Nat := 0
  seq : Nat := 0
  half : Nat := 0
  at_ : Nat := 0
  firstAt : Nat := 0
  preValid : Nat := 0
  taken : Nat := 0
  records : List (List Word) := []
  overrun : Bool := false
  trunc : Bool := false
  kind : Nat := 0
  gen : Nat := 0
  word : Nat := 0
deriving DecidableEq, Repr

/-- Lantern: the arm, samples since it, the instant of the last one, the stage under test with its count and primed edge,
latched events, the samples held before a trigger, the segment in hand and those draining, region segments written since
the arm, the histograms and maps, the start of a re-arm, and clears in progress. -/
structure Acq where
  armed : Bool := false
  firstAt : Nat := 0
  lastAt : Nat := 0
  samples : Nat := 0
  count : Nat := 0
  lastMet : Nat := 0
  primed : Bool := false
  latches : List (Nat × Latch) := []
  pre : List (List Word) := []
  half : Nat := 0
  seg : Option Seg := none
  drain : List Seg := []
  written : List Nat := []
  bins : List (Nat × Nat) := []
  saturated : List Nat := []
  rearmFrom : Nat := 0
  clearing : Nat := 0
deriving DecidableEq, Repr

/-! ## The whole block -/

/-- The block apart from its fuses and its command queue. `relays` lists the requests passed on to cells: cell lane, MSG_ID,
the lane they came on, their SRC. -/
structure Dev where
  regs : RegFile := []
  boot : Boot := {}
  upd : ImgUpdate := {}
  clk : Clk := {}
  clock : Clock := {}
  tpos : List (Nat × Tpo) := []
  tcis : List (Nat × List Nat) := []
  laneTimes : List (Nat × LaneTime) := []
  ptp : Ptp := {}
  ports : Ports := {}
  sessions : List (Nat × Session) := []
  parked : List Parked := []
  queues : List (Nat × Queue) := []
  lanes : List (Nat × Lane) := []
  reasm : List Reasm := []
  relays : List (Nat × Nat × Nat × Nat) := []
  nextMsg : Nat := 0
  basket : Basket := {}
  modes : Modes := {}
  steps : Steps := {}
  coll : Collector := {}
  island : Island := {}
  mem : Mem := {}
  cal : Cal := {}
  resetAt : Option Nat := none
  fresh : Nat := 0
  tap : Option AcTest := none
  cells : List (Nat × Cell) := []
  sched : Sched := {}
  loops : List (Nat × Loop) := []
  engines : Engines := {}
  hamper : Hamper := {}
  wear : List (Nat × Wear) := []
  ledger : Ledger := {}
  legs : List (Nat × Leg) := []
  brake : Brake := {}
  chans : List (Nat × Chan) := []
  group : Group := {}
  twin : Twin := {}
  acq : Acq := {}
  derate : Option Int := none
deriving DecidableEq, Repr

/-- The state of the block: the commands that wait, first in first out; the one-way fuses; everything else. -/
structure State where
  pending : List Instr := []
  fuse : Fuse := {}
  dev : Dev := {}
deriving DecidableEq, Repr

/-- The block right after reset: every register word at its Reset column or the value its log entry names, no command
waiting, nothing in any memory, queue or lane, the fuses not programmed by the board maker. -/
def State.reset : State := { pending := [], fuse := {}, dev := {} }

end Sys2Proof.Machine
end

