-- ==== Sys2Proof/Machine/Bytes.lean ====
section
/-!
DEFINITION. Machine/Bytes.lean: little-endian byte strings (R6), the CRC-32C of R172, check bytes (R147).
-/
namespace Sys2Proof.Machine

/-- A number as n bytes, low byte first (R6). -/
def le : Nat → Nat → Bytes
  | 0, _ => []
  | n + 1, v => BitVec.ofNat 8 v :: le n (v / 256)

/-- A byte string read as a number, low byte first. -/
def unle : Bytes → Nat
  | [] => 0
  | b :: t => b.toNat + 256 * unle t

/-- Byte i of a string, 0 beyond its end. -/
def byteAt (bs : Bytes) (i : Nat) : Nat := (bs.getD i 0).toNat

/-- n bytes from place i, as a number. -/
def leAt (bs : Bytes) (i n : Nat) : Nat := unle ((bs.drop i).take n)

/-- n bytes from place i, as a number, high byte first. -/
def beAt (bs : Bytes) (i n : Nat) : Nat := unle ((bs.drop i).take n).reverse

/-- n zero bytes. -/
def zeros (n : Nat) : Bytes := List.replicate n 0

/-- A string cut or filled with zeros to n bytes. -/
def padTo (n : Nat) (bs : Bytes) : Bytes := bs.take n ++ zeros (n - bs.length)

/-- One bit of the CRC-32C register (R172). -/
def crcBit (c : Nat) : Nat := if c % 2 = 1 then (c / 2) ^^^ 0x82F63B78 else c / 2

/-- One byte into the CRC-32C register (R172). -/
def crcByte (c : Nat) (b : Byte) : Nat :=
  crcBit (crcBit (crcBit (crcBit (crcBit (crcBit (crcBit (crcBit (c ^^^ b.toNat))))))))

/-- The CRC-32C of a byte string (R172). -/
def crc32c (bs : Bytes) : Nat := bs.foldl crcByte 0xFFFFFFFF ^^^ 0xFFFFFFFF

/-- The check byte of a control block: 0xFF XOR the sum of bytes 0 to 6 (R147). -/
def checkByte (bs : Bytes) : Byte := 0xFF ^^^ (bs.foldl (· + ·) 0)

/-- Whether every byte of a range is 0 (reserved bytes of a payload, R174). -/
def zeroRange (bs : Bytes) (i n : Nat) : Bool := ((bs.drop i).take n).all (· == 0)

/-- A word as four bytes. -/
def wordBytes (w : Word) : Bytes := le 4 w.toNat

/-- Words as bytes, in order. -/
def wordsBytes (ws : List Word) : Bytes := ws.flatMap wordBytes

/-- A string cut into pieces of n bytes (the last may be shorter), at most `fuel` of them. -/
def chunksOf (n : Nat) : Nat → Bytes → List Bytes
  | 0, _ => []
  | fuel + 1, bs => if bs.isEmpty then [] else bs.take n :: chunksOf n fuel (bs.drop n)

/-- All pieces of n bytes. -/
def cut (n : Nat) (bs : Bytes) : List Bytes := chunksOf n bs.length bs

/-- A byte string as words. -/
def bytesWords (bs : Bytes) : List Word := (cut 4 bs).map fun b => BitVec.ofNat 32 (unle b)

end Sys2Proof.Machine
end

