-- ==== Sys2Proof/Machine/Ops.lean ====
section
/-!
DEFINITION. Machine/Ops.lean: the named operations over registers, time, queues, lanes' waiting frames and event
sources that every family shares.
-/
namespace Sys2Proof.Machine

/-! ## Registers -/

/-- Instance i of a field of the block. -/
def Dev.rd (d : Dev) (f : Fld) (i : Nat := 0) : Nat := regGet d.regs f i

/-- The block with instance i of a field written. -/
def Dev.wr (d : Dev) (f : Fld) (v : Nat) (i : Nat := 0) : Dev := { d with regs := regSet d.regs f i v }

/-- Whether a one-bit field is set. -/
def Dev.on (d : Dev) (f : Fld) (i : Nat := 0) : Bool := d.rd f i != 0

/-- A counter incremented, saturating at its field's top (the W1C counters of R7). -/
def Dev.bump (d : Dev) (f : Fld) (i : Nat := 0) : Dev :=
  if d.rd f i < f.top then d.wr f (d.rd f i + 1) i else d

/-- A counter raised by n, saturating. -/
def Dev.bumpBy (d : Dev) (f : Fld) (n : Nat) (i : Nat := 0) : Dev := d.wr f (min f.top (d.rd f i + n)) i

/-- A counter incremented modulo its field. -/
def Dev.bumpWrap (d : Dev) (f : Fld) (i : Nat := 0) : Dev := d.wr f ((d.rd f i + 1) % f.size) i

/-- A 64-bit value kept in two words, low word first. -/
def Dev.rd64 (d : Dev) (lo hi : Fld) (i : Nat := 0) : Nat := d.rd lo i + 2 ^ 32 * d.rd hi i

/-- Write a 64-bit value kept in two words, low word first. -/
def Dev.wr64 (d : Dev) (lo hi : Fld) (v : Nat) (i : Nat := 0) : Dev :=
  (d.wr lo (v % 2 ^ 32) i).wr hi (v / 2 ^ 32 % 2 ^ 32) i

/-- A 64-bit value kept in instances i and i + 1 of a field. -/
def Dev.rdPair (d : Dev) (f : Fld) (i : Nat := 0) : Nat := d.rd f i + 2 ^ 32 * d.rd f (i + 1)

/-- Write a 64-bit value into instances i and i + 1 of a field. -/
def Dev.wrPair (d : Dev) (f : Fld) (v : Nat) (i : Nat := 0) : Dev :=
  (d.wr f (v % 2 ^ 32) i).wr f (v / 2 ^ 32 % 2 ^ 32) (i + 1)

/-- A whole word of an object, as a number. -/
def Dev.word (d : Dev) (so w : Nat) : Nat := (regWord d.regs so w).toNat

/-- Write a whole word of an object. -/
def Dev.setWord (d : Dev) (so w v : Nat) : Dev := { d with regs := regSetWord d.regs so w (BitVec.ofNat 32 v) }

/-- A whole word of an object as a signed number. -/
def Dev.sword (d : Dev) (so w : Nat) : Int := s32 (d.word so w)

/-- A saturating counter that is a whole word of an object. -/
def Dev.bumpWord (d : Dev) (so w : Nat) : Dev :=
  if d.word so w < 4294967295 then d.setWord so w (d.word so w + 1) else d

/-- Clear every instance of a field in a list of places. -/
def Dev.clearAll (d : Dev) (f : Fld) (places : List Nat) : Dev := places.foldl (fun d i => d.wr f 0 i) d

/-! ## Tables of units -/

def Dev.lane (d : Dev) (l : Nat) : Lane := tget (fun _ => {}) d.lanes l

def Dev.setLane (d : Dev) (l : Nat) (x : Lane) : Dev := { d with lanes := tset (fun _ => {}) d.lanes l x }

def Dev.queue (d : Dev) (q : Nat) : Queue := tget (fun _ => {}) d.queues q

def Dev.setQueue (d : Dev) (q : Nat) (x : Queue) : Dev := { d with queues := tset (fun _ => {}) d.queues q x }

def Dev.session (d : Dev) (s : Nat) : Session := tget (fun _ => {}) d.sessions s

def Dev.setSession (d : Dev) (s : Nat) (x : Session) : Dev :=
  { d with sessions := tset (fun _ => {}) d.sessions s x }

def Dev.window (d : Dev) (w : Nat) : Window := tget (fun _ => {}) d.ports.windows w

def Dev.setWindow (d : Dev) (w : Nat) (x : Window) : Dev :=
  { d with ports := { d.ports with windows := tset (fun _ => {}) d.ports.windows w x } }

/-- A session closes (R106): its kept replies and subscriptions go; a Basket it owns keeps its contents and has no owner. -/
def Dev.closeSession (d : Dev) (s : Nat) : Dev :=
  let d := d.setSession s {}
  if d.rd F.stgOwner = s then d.wr F.stgOwner 0xFF else d

/-- The value the spec leaves open at this point, fresh at every use (log entry 14). -/
def Dev.free (d : Dev) : Word × Dev := (Config.freeWord d.fresh, { d with fresh := d.fresh + 1 })

/-! ## Presence (R2, R13, R64, R143) -/

def Dev.cellLanes (d : Dev) : Nat := d.rd F.sysCellLanes
def Dev.downPorts (d : Dev) : Nat := d.rd F.sysDownPorts
def Dev.hasTwin (d : Dev) : Bool := d.on F.sysTwinPresent
def Dev.cellSlots (d : Dev) : Nat := d.rd F.sysCellSlots
def Dev.loopSlots (d : Dev) : Nat := d.rd F.sysLoopSlots
def Dev.acqLevel (d : Dev) : Nat := d.rd F.sysAcqLevel

/-- The lane indices of R143. -/
def laneU : Nat := 48
def laneD (n : Nat) : Nat := 49 + n
def laneT (n : Nat) : Nat := 53 + n

/-- Whether the variant has a lane (R143). -/
def Dev.lanePresent (d : Dev) (l : Nat) : Bool :=
  if l < 48 then decide (l < d.cellLanes)
  else if l = 48 then decide (0 < d.cellLanes)
  else if l < 53 then decide (l - 49 < d.downPorts)
  else if l < 55 then d.hasTwin
  else false

/-- Whether the unit map populates a cell slot the variant has (R13). -/
def Dev.populated (d : Dev) (s : Nat) : Bool := decide (s < d.cellSlots) && d.on F.hmpUPop s

/-- The cell slots populated. -/
def Dev.populatedSlots (d : Dev) : List Nat := (List.range 96).filter d.populated

/-- Whether DRAM was trained and its opcodes are served (R452). -/
def Dev.hasDram (d : Dev) : Bool := d.on F.memDramOk

/-! ## Fabric time (R196 to R200) -/

def Dev.now (d : Dev) : Nat := d.clock.now

/-- Whether fabric time runs: from the first EDGE cycle of Light, and while the PLL is locked (R196, R200). -/
def Dev.timeRuns (d : Dev) : Bool := decide (d.boot.stage = .light) && d.on F.clkLocked

/-- The fabric-time counter moved to an instant; an instant already passed counts as the present one (log entry 3). The frames that the
network port sent before it are gone. -/
def Dev.reach (d : Dev) (t : Nat) : Dev :=
  { d with clock := { d.clock with now := max d.clock.now t }
           ports := { d.ports with netOut := if d.clock.now < t then [] else d.ports.netOut } }

/-- One EDGE cycle (R196): 8 × (1 + RATE × 2^−32) fine ticks, the fraction kept. -/
def Dev.edgeTick (d : Dev) : Dev :=
  let sum : Int := (8 * 2 ^ 32 : Int) + 8 * s32 (d.rd F.timeRate) + d.clock.frac
  { d with clock := { d.clock with now := d.clock.now + sum.toNat / 2 ^ 32, frac := sum.toNat % 2 ^ 32 } }

/-- Fine ticks of one millisecond, microsecond and EDGE and CTRL cycle. -/
def ticksMs : Nat := 10000000
def ticksUs : Nat := 10000
def ticksSec : Nat := 10000000000
def ticksEdge : Nat := 8
def ticksCtrl : Nat := 16

/-- The time the fabric counter has counted, the acquisition load of R199 left out: what intervals are measured in. -/
def Dev.up (d : Dev) : Nat := ((d.clock.now : Int) + d.clock.shift).toNat

/-- Whether a span of fine ticks has passed since an instant of Dev.up. The count may run 100 ppm slow against the clock that an interval
is counted in (R196). -/
def Dev.spent (d : Dev) (since span : Nat) : Bool := decide (since + span * 9999 / 10000 ≤ d.up)

/-- Whether an interval of the safety island in ticks of 1 µs has passed (R427). Fabric time cannot tell while it does not run or while
SAFE runs on the supervisor oscillator: the event then comes when the island says. -/
def Dev.islandSpent (d : Dev) (since ticks : Nat) : Bool :=
  !(decide (d.boot.stage = .light) && d.on F.clkLocked) || d.clk.safeOnSup || d.spent since (10000 * ticks)

/-- The fine ticks that n CTRL cycles take at the slew in force (R196). -/
def Dev.ctrlTicks (d : Dev) (n : Nat) : Nat := ((16 * n : Nat) + Int.fdiv ((16 * n : Nat) * s32 (d.rd F.timeRate)) (2 ^ 32)).toNat

/-- The CTRL cycles from the one of an instant to that of the present, at the slew in force (R196). -/
def Dev.ctrlSince (d : Dev) (t : Nat) : Nat :=
  let one := (2 ^ 32 + s32 (d.rd F.timeRate)).toNat
  ((d.clock.now / 16 - t / 16) * 2 ^ 32 + one / 2) / one

/-- Whether the CTRL cycle of an instant has come. -/
def Dev.ctrlDue (d : Dev) (t : Nat) : Bool := decide (t / 16 ≤ d.clock.now / 16)

/-- The control cycle in fine ticks (R198, R251). -/
def Dev.cycle (d : Dev) : Nat := 8 * d.rd F.modCycleLen

/-- The cycle origin (R198). -/
def Dev.origin (d : Dev) : Nat := d.rd64 F.timeCycleOriginLo F.timeCycleOriginHi

/-- The first boundary at or after an instant (R198). -/
def Dev.boundaryCeil (d : Dev) (x : Nat) : Nat :=
  if x ≤ d.origin then d.origin
  else if d.cycle = 0 then x
  else d.origin + (x - d.origin + d.cycle - 1) / d.cycle * d.cycle

/-- The index of the boundary at an instant (R130, R198). -/
def Dev.boundaryIndex (d : Dev) (x : Nat) : Nat := if d.cycle = 0 then 0 else (x - d.origin) / d.cycle

/-- Network time of a fabric instant, ns (R212). -/
def Dev.toNet (d : Dev) (f : Nat) : Nat :=
  let n : Int := d.rdPair F.timeMapN
  let m : Int := d.rdPair F.timeMapF
  (n + Int.fdiv ((f : Int) - m) 10).toNat

/-- Fabric instant of a network time, ns (R212). -/
def Dev.toFabric (d : Dev) (ns : Nat) : Nat :=
  let n : Int := d.rdPair F.timeMapN
  let m : Int := d.rdPair F.timeMapF
  (m + ((ns : Int) - n) * 10).toNat

/-- A 32-bit time compared with the low word of fabric time as a signed value modulo 2^32 (R99, R179): negative when
the time has passed. -/
def timeLeft (time now : Nat) : Int := (BitVec.ofNat 32 time - BitVec.ofNat 32 now).toInt

/-! ## Modes (R18, R30) -/

/-- The operating modes, in the order of their codes (chapter 1). -/
inductive Mode where
  | spark | kindle | held | precharge | pilot | runForm | runFollow | rideThrough | derated | service | calibrate
  | discharge | dark | snuffed
deriving DecidableEq, Repr

/-- The code of a mode in SYS.MODE. -/
def modeCode : Mode → Nat
  | .spark => 1 | .kindle => 2 | .held => 3 | .precharge => 4 | .pilot => 5 | .runForm => 6 | .runFollow => 7
  | .rideThrough => 8 | .derated => 9 | .service => 10 | .calibrate => 11 | .discharge => 12 | .dark => 13
  | .snuffed => 14

/-- The mode of a code; codes 0x0 and 0xF are not used (chapter 1). -/
def modeOf (n : Nat) : Option Mode :=
  [Mode.spark, .kindle, .held, .precharge, .pilot, .runForm, .runFollow, .rideThrough, .derated, .service, .calibrate,
    .discharge, .dark, .snuffed].find? (fun m => modeCode m == n)

/-- The mode in force. -/
def Dev.mode (d : Dev) : Mode := (modeOf (d.rd F.sysMode)).getD .spark

/-- The switching modes of R18. -/
def Mode.switching : Mode → Bool
  | .precharge | .runForm | .runFollow | .rideThrough | .derated | .service | .calibrate | .discharge => true
  | _ => false

/-- The modes in which the node runs the power stage: the run modes, RIDE_THROUGH and DERATED. -/
def Mode.running : Mode → Bool
  | .runForm | .runFollow | .rideThrough | .derated => true
  | _ => false

/-! ## Queues (R463 to R467) -/

/-- A packet as entries of 64 bytes (R463). -/
def packetEntries (p : Bytes) : List QEnt :=
  let pieces := cut 64 p
  let n := pieces.length
  pieces.zipIdx.map fun (b, i) => { bytes := b, last := i + 1 == n }

/-- The 64 bytes of an entry; beyond the packet's end they are left open (log entry 47). -/
def QEnt.whole (e : QEnt) : Bytes := e.bytes ++ (List.range (64 - e.bytes.length)).map (Config.entryFill e.bytes)

/-- Entries a packet occupies (R463). -/
def entriesOf (len : Nat) : Nat := (len + 63) / 64

/-- Entries held (QUE.FILL). -/
def Queue.fill (q : Queue) : Nat :=
  q.head.length + q.sram.length + (q.cooler.map (fun p => p.2.length)).sum + q.tail.length

/-- Every entry in order. -/
def Queue.entries (q : Queue) : List QEnt :=
  q.head ++ q.sram ++ q.cooler.flatMap (·.2) ++ q.tail

/-- The on-die spill a queue has (R464): 64 entries for queues 0 to 18. -/
def queueSram (q : Nat) : Nat := if q < 19 then 64 else 0

/-- A queue's capacity (R464); the Cooler counts only with DRAM. -/
def Dev.queueCapacity (d : Dev) (q : Nat) : Nat :=
  32 + queueSram q + (if d.hasDram then 16384 * d.rd F.queCoolerMax q else 0)

/-- Whether a queue has credit for n more entries (R465). -/
def Dev.queueRoom (d : Dev) (q n : Nat) : Bool := decide ((d.queue q).fill + n ≤ d.queueCapacity q)

/-- The chunks of every queue, for the free pool of R297. -/
def Dev.chunksHeld (d : Dev) : List Nat := d.queues.flatMap fun e => e.2.chunks

/-- The whole chunks of the trained DRAM (R297, R453). -/
def Dev.chunkCount (d : Dev) : Nat := d.rd F.memDataPages / 1024

/-- Chunks in the Cooler pool: the sum of the maxima (R297). -/
def Dev.poolSize (d : Dev) : Nat := ((List.range 64).map fun q => d.rd F.queCoolerMax q).sum

/-- The free pool chunk with the highest address, for a queue below its maximum (R297). -/
def Dev.freeChunk (d : Dev) (q : Nat) : Option Nat :=
  if d.rd F.queCoolerMax q ≤ (d.queue q).chunks.length then none
  else
    let pool := (List.range (min d.poolSize d.chunkCount)).map fun i => d.chunkCount - 1 - i
    pool.find? fun c => !(d.chunksHeld.contains c)

/-- The strength code with which a page is written (R455). -/
def Dev.strengthOf (d : Dev) (page : Nat) : Nat :=
  let inReg (r : Nat) : Bool :=
    d.on F.memREn r && decide (d.rd F.memRBase r * 1048576 ≤ page * 1024)
      && decide (page * 1024 < (d.rd F.memRBase r + d.rd F.memRSize r) * 1048576)
  match (List.range 8).find? inReg with
  | some r => d.rd F.memRT r
  | none => d.rd F.memTDefault

/-- Write a whole DRAM page (R455 to R457): encoded at the strength of its region, the written bit set. Any access wakes the device
(R40). -/
def Dev.writePage (d : Dev) (page tag : Nat) (data : Bytes) : Dev :=
  { d with mem := { d.mem with
      pages := tset (fun _ => {}) d.mem.pages page
        { data := padTo 1024 data, tag := tag, strength := d.strengthOf page } } }.wr F.memSelfRef 0

/-- An access of a queue or of Lantern, which starts the idle count of R40 again. -/
def Dev.dramUsed (d : Dev) : Dev := { d with mem := { d.mem with lastAccess := d.up } }.wr F.memSelfRef 0

/-- Spill the 16 entries of a full tail (R463): queues 0 to 18 first on die, then the Cooler. -/
def Dev.spill (d : Dev) (q : Nat) : Dev :=
  let x := d.queue q
  if x.cooler.isEmpty && decide (x.sram.length + 16 ≤ queueSram q) then
    d.setQueue q { x with sram := x.sram ++ x.tail, tail := [] }
  else
    let chunkUse := x.chunks.getLast?
    let pageIn (c : Nat) : Option Nat :=
      ((List.range 1024).map (1024 * c + ·)).find? fun p => x.cooler.all fun e => e.1 < p || e.1 / 1024 != c
    let put (d : Dev) (x : Queue) (page : Nat) : Dev :=
      (d.setQueue q { x with cooler := x.cooler ++ [(page, x.tail)], tail := [] }).dramUsed.writePage page 1
        (x.tail.flatMap QEnt.whole)
    match chunkUse.bind pageIn with
    | some page => put d x page
    | none =>
      match d.freeChunk q with
      | some c =>
        let d := put d { x with chunks := x.chunks ++ [c] } (1024 * c)
        d.wr F.hmpQPeak (max (d.rd F.hmpQPeak q) (x.chunks.length + 1)) q
      | none => d

/-- One entry into a queue (R463): straight to the head while nothing is spilled and the head has room, else to the
tail, which spills when it holds 16. -/
def Dev.putEntry (d : Dev) (q : Nat) (e : QEnt) : Dev :=
  let x := d.queue q
  if x.sram.isEmpty && x.cooler.isEmpty && x.tail.isEmpty && decide (x.head.length < 16) then
    d.setQueue q { x with head := x.head ++ [e] }
  else
    let d := d.setQueue q { x with tail := x.tail ++ [e] }
    if 16 ≤ x.tail.length + 1 then d.spill q else d

/-- A whole packet into a queue. -/
def Dev.putPacket (d : Dev) (q : Nat) (p : Bytes) : Dev := (packetEntries p).foldl (fun d e => d.putEntry q e) d

/-- With nothing spilled, entries pass from the tail to a head with room (R463). -/
def Queue.settle (q : Queue) : Queue :=
  if q.sram.isEmpty && q.cooler.isEmpty then
    { q with head := q.head ++ q.tail.take (16 - q.head.length), tail := q.tail.drop (16 - q.head.length) }
  else q

/-- The entries of the first whole packet of an entry list. -/
def firstPacket : List QEnt → Option (List QEnt × List QEnt)
  | [] => none
  | e :: t => if e.last then some ([e], t) else (firstPacket t).map fun (a, b) => (e :: a, b)

/-- The packets an entry list holds complete. -/
def packetCount (es : List QEnt) : Nat := (es.filter (·.last)).length

/-- The complete packets of an entry list, as bytes, at most `fuel` of them. -/
def packetsOf : Nat → List QEnt → List Bytes
  | 0, _ => []
  | fuel + 1, es =>
    match firstPacket es with
    | some (a, b) => (a.flatMap (·.bytes)) :: packetsOf fuel b
    | none => []

/-- Every complete packet of a queue, oldest first. -/
def Queue.packets (q : Queue) : List Bytes := packetsOf q.fill q.entries

/-- Remove n entries from the front of a queue: from the head, then the spill in order; drained chunks return (R297). -/
def Queue.dropEntries : Nat → Queue → Queue
  | 0, q => q
  | n + 1, q =>
    match q.head with
    | _ :: t => Queue.dropEntries n { q with head := t }.settle
    | [] =>
      match q.sram with
      | _ :: t => Queue.dropEntries n { q with sram := t }.settle
      | [] =>
        match q.cooler with
        | (p, _ :: e :: es) :: rest => Queue.dropEntries n { q with cooler := (p, e :: es) :: rest }.settle
        | (p, _) :: rest =>
          let chunks := if rest.any (fun x => x.1 / 1024 == p / 1024) then q.chunks
            else q.chunks.filter (· != p / 1024)
          Queue.dropEntries n { q with cooler := rest, chunks := chunks }.settle
        | [] => { q with tail := q.tail.drop (n + 1) }

/-- Take the oldest complete packet from a queue. -/
def Dev.takePacket (d : Dev) (q : Nat) : Option (Bytes × Dev) :=
  let x := d.queue q
  match firstPacket x.entries with
  | none => none
  | some (es, _) => some (es.flatMap (·.bytes), d.setQueue q (x.dropEntries es.length))

/-! ## Frames that wait (R33, R176 to R182) -/

/-- Whether a frame goes before another: a higher rank, or in one rank a member with the lower port number (R32, R33). -/
def TxItem.before (x y : TxItem) : Bool := decide (x.rank < y.rank) || (x.rank == y.rank && decide (x.member < y.member))

/-- Place a frame among those waiting, behind every frame that it does not go before (R33, R182). -/
def insertItem (x : TxItem) : List TxItem → List TxItem
  | [] => [x]
  | y :: t => if x.before y then x :: y :: t else y :: insertItem x t

/-- Queue a frame on a lane. -/
def Dev.queueFrame (d : Dev) (l : Nat) (x : TxItem) : Dev :=
  d.setLane l { d.lane l with wait := insertItem x (d.lane l).wait }

/-- Whether a lane carries frames: UP, LP_IDLE or REHUNT (R151). -/
def Dev.laneState (d : Dev) (l : Nat) : Nat := d.rd F.laneState l
def Dev.laneUp (d : Dev) (l : Nat) : Bool := d.laneState l == 7
def Dev.laneLinked (d : Dev) (l : Nat) : Bool := [7, 8, 9].contains (d.laneState l)

/-- The lane for a frame to the partner: T0, or T1 while T0 is not UP (R298, R418). -/
def Dev.twinLane (d : Dev) : Nat := if d.laneUp 53 then 53 else if d.laneUp 54 then 54 else 53

/-- The node's own address (R14). -/
def Dev.nodeAddr (d : Dev) : Nat := d.rd F.grpNodeAddr

/-! ## Event records, notices and event sources (R413 to R419) -/

/-- An event record as 40 bytes (R413). -/
def EvRec.bytes (e : EvRec) : Bytes :=
  [BitVec.ofNat 8 e.source, BitVec.ofNat 8 e.cls, BitVec.ofNat 8 e.level, BitVec.ofNat 8 e.flags]
    ++ le 4 e.seq ++ le 8 e.at_ ++ le 16 e.mask ++ le 8 e.data

/-- The window of a session, and of a source (R107): 0 the host port, 1 to 16 sessions 16 to 31, 17 the parent, 18
sessionless packets of the network port (log entry 15). -/
def windowOf (src : Src) (session : Nat) : Nat :=
  match src with
  | .host => 0
  | .net _ => if session < 16 || 31 < session then 18 else session - 15
  | .parent => 17

/-- The size of a window (R107, R57): the host port 2 from Kindle and 16 from Light, the others 4. -/
def Dev.windowSize (d : Dev) (w : Nat) : Nat :=
  if w = 0 then (if d.boot.stage = .light then 16 else 2) else 4

/-- CREDIT_LIMIT of a window (R107). -/
def Dev.creditLimit (d : Dev) (w : Nat) : Nat := ((d.window w).answered + d.windowSize w) % 256

/-- A packet of the shape of R96 and R97, with its CRC-32C. -/
def buildPacket (op flags tag len b6 b7 w : Nat) (data : Bytes) : Bytes :=
  let body := le 1 op ++ le 1 flags ++ le 2 tag ++ le 2 len ++ le 1 b6 ++ le 1 b7 ++ le 4 w ++ data
  body ++ le 4 (crc32c body)

/-- The window and the reply queue of an open session (R107, R463): the host port 0 and 0, the parent 17 and 1, network sessions 1 to 16
and 2 to 17. -/
def sessionWindow (n : Nat) : Nat := if n < 16 then 0 else if n < 32 then n - 15 else 17
def sessionQueue (n : Nat) : Nat := if n < 16 then 0 else if n < 32 then n - 14 else 1

/-- Notices that wait in a queue: replies with OPCODE 0x8F (R110). -/
def Queue.notices (q : Queue) : Nat := (q.packets.filter fun p => byteAt p 0 == 0x8F).length

/-- The words staged (STG.COUNT). -/
def Dev.stagedCount (d : Dev) : Nat := d.basket.words.length

/-- Fine ticks of the preload: 0.4 ns a word (R128). -/
def Dev.preloadTicks (d : Dev) : Nat := 4 * d.stagedCount

/-- Arm the Basket (R129, R130): the instant, the kind, the session. -/
def Dev.arm (d : Dev) (instant : Nat) (kind : ArmKind) (session : Nat) : Dev :=
  ({ d with basket := { d.basket with armed := some { instant := instant, kind := kind, session := session } } }
    |>.wr F.stgArmed 1).wr64 F.stgArmAtLo F.stgArmAtHi instant

/-- Disarm: no instant is armed. -/
def Dev.unarm (d : Dev) : Dev :=
  ({ d with basket := { d.basket with armed := none } }.wr F.stgArmed 0).wr64 F.stgArmAtLo F.stgArmAtHi 0

/-- A raise of a commit input (R419): it arms the Basket for the first boundary after preload when every condition
holds, and FLT.EVC_ARM clears. -/
def Dev.commitInput (d : Dev) : Dev :=
  if d.on F.fltEvcArm && d.on F.stgChecked && decide (0 < d.stagedCount) && d.basket.armed.isNone then
    (d.arm (d.boundaryCeil (d.now + d.preloadTicks + 1)) .input (d.rd F.stgOwner)).wr F.fltEvcArm 0
  else d

/-- The EVENT frame that carries a record (R174, R418): SRC, slot 127, 0, the record. -/
def Dev.eventItem (d : Dev) (e : EvRec) : TxItem :=
  { ftype := 0x0F, rank := 2, loc := true, payload := le 2 d.nodeAddr ++ [127, 0] ++ e.bytes }

/-- An event that Lantern's stages may wait for is latched for the next sample (R480): `hit` gives the matched word of each
stage it meets. -/
def Dev.acqLatch (d : Dev) (at_ : Nat) (hit : Nat → Option Nat) : Dev :=
  if d.acq.armed then
    let new := (List.range 4).filterMap fun k => (hit k).map fun w => (k, ({ at_ := at_, word := w } : Latch))
    { d with acq := { d.acq with latches := d.acq.latches ++ new } }
  else d

/-- The cycle of SAFE, 20 ns, in which fabric time stands (R78). -/
def Dev.safeCycle (d : Dev) : Nat := d.clock.now / 200

/-- A source raised in the present SAFE cycle (R416): a clear of its bit in the same cycle leaves it set. -/
def Dev.noteRaise (d : Dev) (s : Nat) : Dev :=
  let others := if d.coll.raisedIn = d.safeCycle then d.coll.raised.filter (· != s) else []
  { d with coll := { d.coll with raised := s :: others, raisedIn := d.safeCycle } }

/-- What every raise of a source does besides notices (R416, R418, R419): its pending bit, the routed records, the
commit input. -/
def Dev.raiseBase (d : Dev) (e : EvRec) : Dev :=
  let s := e.source
  let d := d.noteRaise s
  let d := d.wr F.fltEvPend (d.rd F.fltEvPend (s / 32) ||| 2 ^ (s % 32)) (s / 32)
  let d := d.acqLatch e.at_ fun k =>
    if d.rd F.acqSKind k = 6 && d.rd F.acqSA k % 256 = s && d.on F.fltRAcq s then some s else none
  let d := if d.on F.fltRUp s && d.laneLinked laneU then d.queueFrame laneU (d.eventItem e) else d
  let d := if d.on F.fltRTwin s && (d.laneLinked 53 || d.laneLinked 54) then
      d.queueFrame d.twinLane { d.eventItem e with loc := false, addr := 0xFFFF } else d
  if d.on F.fltRCommit s then d.commitInput else d

/-! ## The network port's frames (R119) -/

/-- Whether the network port sends and answers (R76, R119). -/
def Dev.netRuns (d : Dev) : Bool := d.on F.cmdNetEn && d.ports.linkUp && d.on F.clkLocked && decide (d.boot.stage = .light)

/-- The IEEE 802.1Q tag of the frames that Filua sends: CMD.VLAN_PCP and CMD.VLAN_ID with CMD.VLAN_EN set, else none. -/
def Dev.netTag (d : Dev) : Option Nat :=
  if d.on F.cmdVlanEn then some (d.rd F.cmdVlanPcp * 2 ^ 13 + d.rd F.cmdVlanId) else none

/-- A frame sent under a given tag, where the port sends. -/
def Dev.netSendTag (d : Dev) (mac : Nat) (tag : Option Nat) (body : NetBody) : Dev :=
  if d.netRuns then { d with ports := { d.ports with netOut := d.ports.netOut ++ [{ mac := mac, tag := tag, body := body }] } } else d

/-- A frame sent as the port is configured. -/
def Dev.netSend (d : Dev) (mac : Nat) (body : NetBody) : Dev := d.netSendTag mac d.netTag body

/-- The broadcast MAC address. -/
def macBroadcast : Nat := 2 ^ 48 - 1

/-- The address that ARP resolves for a destination: its own, or the gateway's outside the subnet. -/
def Dev.nextHop (d : Dev) (ip : Nat) : Nat :=
  let mask := d.word 0x0024 1
  if ip &&& mask = d.word 0x0024 0 &&& mask then ip else d.word 0x0024 2

/-- The MAC address to which frames for a destination go, once it is resolved. -/
def Dev.macFor (d : Dev) (ip : Nat) : Option Nat :=
  (d.ports.arp.find? fun e => e.1 == d.nextHop ip).map fun e => e.2.1

/-- An ARP request for a destination that is not resolved; what is for it waits in its queue. -/
def Dev.arpAsk (d : Dev) (ip : Nat) : Dev :=
  let hop := d.nextHop ip
  if hop = 0 || !d.netRuns then d
  else
    let wait := if d.ports.arpWait.contains hop then d.ports.arpWait else d.ports.arpWait ++ [hop]
    { d with ports := { d.ports with arpWait := wait } }.netSend macBroadcast (.arp true hop)

/-- The notices of a network session leave for its bound address (R110, R463), oldest first, as many as given. -/
def Dev.drainSession : Nat → Nat → Dev → Dev
  | 0, _, d => d
  | fuel + 1, n, d =>
    let x := d.session n
    if !d.netRuns then d
    else match d.macFor x.ip, d.takePacket (sessionQueue n) with
      | some mac, some (p, d') => Dev.drainSession fuel n (d'.netSend mac (.udp x.ip x.udp p))
      | none, some _ => d.arpAsk x.ip
      | _, none => d

/-- The notices that wait for network sessions, once something changed for the port. -/
def Dev.drainSessions (d : Dev) : Dev := (List.range 16).foldl (fun d i => Dev.drainSession 8 (16 + i) d) d

/-- One notice for a session (R110, R417): queued within the session's limit, else counted lost; that of a network session leaves
as soon as its destination is resolved. -/
def Dev.notice (d : Dev) (s : Nat) (e : EvRec) : Dev :=
  let host := decide (s < 16)
  let q := sessionQueue s
  let limit := if host then 64 else 8
  if (d.queue q).notices < limit && d.queueRoom q 1 then
    let p := buildPacket 0x8F 0x09 0 40 0 (d.creditLimit (sessionWindow s)) (d.now % 2 ^ 32) e.bytes
    let d := d.putPacket q p
    if host then d.raiseBase { source := 0x01, at_ := d.now }
    else if s < 32 then Dev.drainSession 8 s d else d
  else d.bump F.fltNoticeLost

/-- The sessions subscribed to a source. -/
def Dev.subscribers (d : Dev) (s : Nat) : List Nat :=
  (d.sessions.filter fun e => e.2.isOpen && e.1 != 0 && e.2.subs.testBit s).map (·.1)

/-- A raise of an event source with its record (R416 to R419). -/
def Dev.raiseRec (d : Dev) (e : EvRec) : Dev :=
  (d.subscribers e.source).foldl (fun d s => d.notice s e) (d.raiseBase e)

/-- A raise of an event source: the record carries the fabric time of the raise and the DATA its chapter states. -/
def Dev.raise (d : Dev) (source : Nat) (data : Nat := 0) : Dev :=
  d.raiseRec { source := source, at_ := d.now, data := data }

/-- A raise of a fault class, waiting for the classifier (R402, R403). -/
def Dev.fault (d : Dev) (cls src : Nat) (data : Nat := 0) : Dev :=
  { d with coll := { d.coll with raises := d.coll.raises ++ [{ cls := cls, src := src, data := data }] } }

/-- Whether source s of class c stands in FLT.MASK (R408). -/
def Dev.maskBit (d : Dev) (c s : Nat) : Bool := (d.rd F.fltMask (4 * c + s / 32)).testBit (s % 32)

/-- Whether some class stands at a level or above (R23). -/
def Dev.anyAt (d : Dev) (level : Nat) : Bool :=
  (List.range 32).any fun c => d.on F.fltSet c && decide (level ≤ d.rd F.fltLevel c)

end Sys2Proof.Machine
end

