-- ==== Sys2Proof/Machine/Edges.lean ====
section
/-!
DEFINITION. Machine/Edges.lean: the modulator's arithmetic (chapter 9): modulation index, carrier and DAB transitions,
dead time, minimum pulse, markers, and the edge entries of one cell and one epoch.
-/
namespace Sys2Proof.Machine

def Dev.cell (d : Dev) (s : Nat) : Cell := tget (fun _ => {}) d.cells s

def Dev.setCell (d : Dev) (s : Nat) (x : Cell) : Dev := { d with cells := tset (fun _ => {}) d.cells s x }

/-- Levels of R237. -/
def lvOff : Nat := 0
def lvLow : Nat := 1
def lvHigh : Nat := 2
def lvPos : Nat := 3
def lvNeg : Nat := 4

/-- Targets of R237. -/
def tgLegA : Nat := 0x00
def tgLegB : Nat := 0x01
def tgBridge : Nat := 0x40
def tgPri : Nat := 0x41
def tgSec : Nat := 0x42
def tgNop : Nat := 0x7E
def tgMarker : Nat := 0x7F

/-- A link voltage no lower than 0.1 pu (R227). -/
def floorU (u : Int) : Int := max u 1677722

/-- The modulation index of a cell, unclamped (R227), Q8.24: v* × 10 × ARM_BASE × w / (u × CELL_VBASE). -/
def indexOf (v w u : Int) (armBase cellVbase : Nat) : Int :=
  roundDivI (v * 10 * armBase * w) (floorU u * cellVbase)

/-- The carrier phase of index k of N (R229): round(k × Tc / 2N), ties upward. -/
def carrierPhase (k n tc : Nat) : Nat := if n = 0 then 0 else (k * tc + n) / (2 * n)

/-- A transition time within a carrier period (R231): (q24 × Tc / 4) with 16 fractional bits, to the nearest tick. -/
def carrierTime (q24 : Int) (tc : Nat) : Int := Int.fdiv (Int.fdiv (q24 * tc) 1024 + 32768) 65536

/-- A nominal transition: when, and to which level. -/
abbrev Trans := Int × Nat

/-- The nominal transitions of a leg in one carrier period from a valley (R231): leg A for m, leg B for −m. -/
def periodTrans (valley m : Int) (tc : Nat) : List Trans :=
  [(valley + carrierTime (oneQ24 + m) tc, lvLow), (valley + carrierTime (3 * oneQ24 - m) tc, lvHigh)]

/-- The valley at or before an instant. -/
def valleyBefore (base e : Int) (tc : Nat) : Int := if tc = 0 then e else base + Int.fdiv (e - base) tc * tc

/-- The level a leg has at an instant (R229, R231). -/
def legLevelAt (base e m : Int) (tc : Nat) : Nat :=
  let v := valleyBefore base e tc
  if v + carrierTime (oneQ24 + m) tc ≤ e && e < v + carrierTime (3 * oneQ24 - m) tc then lvLow else lvHigh

/-- The nominal transitions of a leg that fall after e and before e + c (R231). -/
def legTrans (base e : Int) (c : Nat) (m : Int) (tc : Nat) : List Trans :=
  if tc = 0 then []
  else
    let v := valleyBefore base e tc
    let periods : Nat := c / tc + 2
    ((List.range periods).flatMap fun (i : Nat) => periodTrans (v + (i : Int) * (tc : Int)) m tc).filter
      fun x => decide (e < x.1) && decide (x.1 < e + c)

/-- Insert an item into a list kept in rising order of a key. -/
def insertBy {α : Type} (key : α → Int) (x : α) : List α → List α
  | [] => [x]
  | y :: t => if key x < key y then x :: y :: t else y :: insertBy key x t

/-- A list in rising order of a key, equal keys in their order. -/
def sortBy {α : Type} (key : α → Int) (xs : List α) : List α := xs.foldl (fun acc x => insertBy key x acc) []

/-- Drop transitions that do not change the level. -/
def changes (level : Nat) : List Trans → List Trans
  | [] => []
  | (t, l) :: rest => if l = level then changes level rest else (t, l) :: changes l rest

/-- What opens a window for a target (R232, R234): a carried transition, else a boundary transition at e when the
level defined there differs from the last; then the nominal transitions. -/
def openWindow (tg : Target) (e : Int) (atE : Nat) (nominal : List Trans) : List Trans :=
  match tg.carried with
  | some (t, l) => changes tg.level (sortBy (·.1) ((max t e, l) :: (if l = atE then [] else [(max t e, atE)]) ++ nominal))
  | none => changes tg.level ((e, atE) :: nominal)

/-- The result of the minimum-pulse rule: transitions kept, widened and dropped pulses, a transition carried over. -/
structure Pulses where
  kept : List Trans := []
  widened : Nat := 0
  dropped : Nat := 0
  carried : Option Trans := none
deriving DecidableEq, Repr

/-- The minimum-pulse rule (R234), in time order: `prev` is the last transition kept or sent, `first` whether the next
transition is the first of the window. -/
def minPulse (p : Nat) (e : Int) (c : Nat) : Nat → Option Int → Bool → List Trans → Pulses → Pulses
  | 0, _, _, _, r => r
  | _ + 1, _, _, [], r => r
  | fuel + 1, prev, first, (t0, l) :: rest, r =>
    let tooSoon := match prev with | some q => first && decide (t0 - q < p) | none => false
    let t1 := if tooSoon then prev.getD 0 + p else t0
    let r := if tooSoon then { r with widened := r.widened + 1 } else r
    if e + c ≤ t1 then { r with carried := some (t1, l) }
    else
      match rest with
      | [] => { r with kept := r.kept ++ [(t1, l)] }
      | (t2, l2) :: rest2 =>
        let w := t2 - t1
        if 2 * w < p then minPulse p e c fuel prev first rest2 { r with dropped := r.dropped + 1 }
        else if w < p then
          let a := t1 - Int.fdiv (p - w) 2
          let stays := decide (a < e) || (match prev with | some q => decide (a - q < p) | none => false)
          let a := if stays then t1 else a
          minPulse p e c fuel (some a) false ((a + p, l2) :: rest2)
            { r with kept := r.kept ++ [(a, l)], widened := r.widened + 1 }
        else minPulse p e c fuel (some t1) false rest { r with kept := r.kept ++ [(t1, l)] }

/-- The entries of one transition (R233): a dead-time pair between two levels, else one entry; no earlier than e. -/
def transEntries (leg level : Nat) (x : Trans) (dead : Nat) (e : Int) : List Edge :=
  if level = lvOff || x.2 = lvOff then [{ at_ := x.1, leg := leg, level := x.2, nom := some x.1 }]
  else
    let a := max e (x.1 - ((dead / 2 : Nat) : Int))
    [{ at_ := a, leg := leg, level := lvOff, nom := some x.1 }, { at_ := a + dead, leg := leg, level := x.2, nom := some x.1 }]

/-- No two entries of a target share a time (R238): of two in a row the later one stands. -/
def oneAtATime : List Edge → List Edge
  | [] => []
  | x :: t => match t with
    | y :: _ => if x.at_ = y.at_ && x.leg == y.leg then oneAtATime t else x :: oneAtATime t
    | [] => [x]

/-- The entries of a run of transitions from a level, as they come. -/
def runRaw (leg dead : Nat) (e : Int) : Nat → List Trans → List Edge
  | _, [] => []
  | level, x :: t => transEntries leg level x dead e ++ runRaw leg dead e x.2 t

/-- The entries of a run of transitions from a level (R233, R238). -/
def runEntries (leg dead : Nat) (e : Int) (level : Nat) (ts : List Trans) : List Edge := oneAtATime (runRaw leg dead e level ts)

/-- A target after a run of transitions. -/
def Target.after (tg : Target) (kept : List Trans) (carried : Option Trans) : Target :=
  match kept.getLast? with
  | some x => { level := x.2, at_ := some x.1, carried := carried }
  | none => { tg with carried := carried }

/-- One H-bridge leg over a window (R231 to R234): its entries, itself after, pulses widened and dropped. -/
def expandLeg (leg : Nat) (tg : Target) (base e : Int) (c : Nat) (m : Int) (tc dead minp : Nat) :
    List Edge × Target × Nat × Nat :=
  let nominal := openWindow tg e (legLevelAt base e m tc) (legTrans base e c m tc)
  let r := minPulse minp e c (nominal.length + 2) tg.at_ true nominal {}
  (runEntries leg dead e tg.level r.kept, tg.after r.kept r.carried, r.widened, r.dropped)

/-- The transitions of a DAB bridge in a window (R235): n periods from an offset, each time taken modulo c. -/
def bridgeTrans (e : Int) (c n td : Nat) (offset : Int) : List Trans :=
  let one (r : Nat) : List Trans :=
    [(e + Int.emod (offset + (r : Int) * td) c, lvPos),
     (e + Int.emod (offset + ((td / 2 : Nat) : Int) + (r : Int) * td) c, lvNeg)]
  sortBy (·.1) ((List.range n).flatMap one)

/-- One DAB bridge over a window (R232, R233, R235). -/
def expandBridge (leg : Nat) (tg : Target) (e : Int) (c n td : Nat) (offset : Int) (dead : Nat) : List Edge × Target :=
  let ts := bridgeTrans e c n td offset
  let atE := match ts.head? with
    | some x => if x.1 = e then x.2 else ((ts.getLast?).map (·.2)).getD tg.level
    | none => tg.level
  let run := changes tg.level ((e, atE) :: ts.filter fun x => decide (e < x.1))
  (runEntries leg dead e tg.level run, tg.after run none)

/-- A target sent to OFF at e (R244): an entry unless it is OFF already. -/
def expandOff (leg : Nat) (tg : Target) (e : Int) : List Edge × Target :=
  if tg.level = lvOff then ([], { tg with carried := none })
  else ([{ at_ := e, leg := leg, level := lvOff, nom := some e }], { level := lvOff, at_ := some e, carried := none })

/-- The DAB offset of index j of M (R235): round(j × Td / 2M), or 0 without spread. -/
def dabOffset (j m td spread : Nat) : Nat := if spread = 0 || m = 0 then 0 else (j * td + m) / (2 * m)

/-- A marker's time (R236): delayed to the guard after any entry of the cell it follows too closely. -/
def markerTime (guard : Nat) (edges : List Edge) : Nat → Int → Int
  | 0, t => t
  | fuel + 1, t =>
    match edges.find? fun x => decide (x.at_ ≤ t) && decide (t - x.at_ < guard) with
    | some x => markerTime guard edges fuel (x.at_ + guard)
    | none => t

/-- The markers of an epoch (R236): both enabled sampling offsets, value set 0 (log entry 20). -/
def Dev.markers (d : Dev) (e : Int) (edges : List Edge) : List (Edge × Bool) :=
  let guard := d.rd F.modSmpGuard * 1000
  let place (es : List Edge) (ofs : Nat) : Edge :=
    { at_ := markerTime guard es (es.length + 1) (e + ofs), leg := tgMarker, level := 0 }
  let m0 := if d.on F.modSmp0En then [(place edges (d.rd F.modSmp0Ofs), true)] else []
  let m1 := if d.on F.modSmp1En then [(place (edges ++ m0.map (·.1)) (d.rd F.modSmp1Ofs), false)] else []
  m0 ++ m1

/-- An edge entry as 8 bytes (R237). -/
def Edge.bytes (x : Edge) (slot : Nat) (e : Int) : Bytes :=
  [BitVec.ofNat 8 (x.leg + 128 * (slot % 2)), BitVec.ofNat 8 x.level] ++ le 2 (if x.revise then 1 else 0)
    ++ le 4 (x.at_ - e).toNat

/-- The payload of an EDGE_SCHEDULE frame (R174, R238). -/
def schedulePayload (e : Nat) (wick index : Nat) (cont : Bool) (entries : List (Nat × Edge)) : Bytes :=
  le 8 e ++ le 4 wick ++ [BitVec.ofNat 8 entries.length, if cont then 1 else 0] ++ le 2 index
    ++ entries.flatMap fun x => x.2.bytes x.1 e

/-- Pieces of n items. -/
def piecesOf {α : Type} (n : Nat) : Nat → List α → List (List α)
  | 0, _ => []
  | fuel + 1, xs => if xs.isEmpty then [] else xs.take n :: piecesOf n fuel (xs.drop n)

/-- The payloads of a lane's schedule (R238): sorted by offset then LEG, at most 30 entries a frame, CONT on all but
the last; a schedule with no entries gets one NOP. -/
def lanePayloads (e wick index : Nat) (entries : List (Nat × Edge)) : List Bytes :=
  let legOf (x : Nat × Edge) : Int := ((x.2.leg + 128 * (x.1 % 2) : Nat) : Int)
  let sorted := sortBy (fun x : Nat × Edge => x.2.at_) (sortBy legOf entries)
  let all := if sorted.isEmpty then [(0, ({ at_ := e, leg := tgNop } : Edge))] else sorted
  let frames := piecesOf 30 all.length all
  frames.zipIdx.map fun (f, i) => schedulePayload e wick index (decide (i + 1 < frames.length)) f

/-- Blocks of a frame (R169): one SOF and its data blocks. -/
def frameBlocks (dl : Bool) (len : Nat) : Nat := 1 + ((if dl then 4 else 0) + len + 4 + 7) / 8

/-- Block time of a rate code (R144), hundredths of a fine tick. -/
def blockTime (rate : Nat) : Nat :=
  match rate with | 0 => 51200 | 1 => 25600 | 2 => 12800 | 3 => 6400 | 4 => 5120 | _ => 51200

/-- Fine ticks a frame takes on a lane at a rate. -/
def frameTicks (rate : Nat) (dl : Bool) (len : Nat) : Nat := (frameBlocks dl len * blockTime rate + 99) / 100

/-- The lead of a schedule (R239): max(MOD.LEAD, 300 ns + the time of its frames). -/
def Dev.leadTicks (d : Dev) (lane : Nat) (payloads : List Bytes) : Nat :=
  max (d.rd F.modLead * 10)
    (3000 + (payloads.map fun p => frameTicks (d.rd F.laneRate lane) true p.length).sum)

end Sys2Proof.Machine
end

