-- ==== Sys2Proof/Machine/Loops.lean ====
section
/-!
DEFINITION. Machine/Loops.lean: the control engine (chapter 10): signals, snapshots, one evaluation of a loop slot, the
regular slots of a cycle with competition and placement, and the fast path.
-/
namespace Sys2Proof.Machine

/-! ## Signals (R258, R259) -/

def Dev.loop (d : Dev) (s : Nat) : Loop := tget (fun _ => {}) d.loops s

def Dev.setLoop (d : Dev) (s : Nat) (x : Loop) : Dev := { d with loops := tset (fun _ => {}) d.loops s x }

/-- The class and the index of a selector (R258). -/
def selClass (sel : Nat) : Nat := sel / 8192
def selIndex (sel : Nat) : Nat := sel % 8192

/-- A value of the latest valid SAMPLE of a cell, or the held one (R258). -/
def Dev.cellValue (d : Dev) (slot j : Nat) : Int := tget (fun _ => 0) (d.cell slot).values j

/-- Whether a cell is active by its MOD.C_STATE: 1, 4 or 5. -/
def Dev.isActive (d : Dev) (slot : Nat) : Bool := [1, 4, 5].contains (d.rd F.modCState slot)

/-- The cell slots of an arm. -/
def Dev.armSlots (d : Dev) (arm : Nat) : List Nat :=
  d.populatedSlots.filter fun s => d.on F.hmpUInarm s && d.rd F.hmpUArm s == arm

/-- The active cells of an arm, in slot order. -/
def Dev.activeOf (d : Dev) (arm : Nat) : List Nat := (d.armSlots arm).filter d.isActive

/-- The greatest of a list. -/
def maxList : List Int → Option Int
  | [] => none
  | x :: t => some (t.foldl max x)

/-- The least of a list. -/
def minList : List Int → Option Int
  | [] => none
  | x :: t => some (t.foldl min x)

/-- The arm current: value 1 of the active cell with the lowest carrier index (R258). -/
def Dev.armCurrent (d : Dev) (arm : Nat) : Int :=
  match minList ((d.activeOf arm).map fun s => ((d.rd F.modCCarrier s : Nat) : Int)) with
  | none => Config.emptyAggregate (5 * 8192 + arm * 8 + 4)
  | some k => match (d.activeOf arm).find? fun s => decide (((d.rd F.modCCarrier s : Nat) : Int) = k) with
    | some s => d.cellValue s 1
    | none => 0

/-- An arm aggregate (R258, class 5). -/
def Dev.armSignal (d : Dev) (arm k : Nat) : Int :=
  let us := (d.activeOf arm).map fun s => d.cellValue s 0
  let empty := Config.emptyAggregate (5 * 8192 + arm * 8 + k)
  match k with
  | 0 => sat32 us.sum
  | 1 => if us.isEmpty then empty else roundDiv us.sum us.length
  | 2 => (maxList us).getD empty
  | 3 => (minList us).getD empty
  | 4 => d.armCurrent arm
  | 5 => s32 (d.rd F.modARef arm)
  | _ => 0

/-- The published output of a fast-path slot as read at an instant (R259): the latest evaluation triggered no later
than SCHED_AT before, or the one before it when that one has not completed; and whether it was late. -/
def fastOutput (evals : List (Nat × Nat × Int)) (t schedTicks : Nat) : Int × Bool :=
  let old := evals.filter fun e => decide (e.1 + schedTicks ≤ t)
  match old with
  | [] => (0, false)
  | e :: rest => if e.2.1 ≤ t then (e.2.2, false) else (((rest.head?).map fun x => x.2.2).getD 0, true)

/-- Fine ticks of LOOP.SCHED_AT. -/
def Dev.schedTicks (d : Dev) : Nat := 16 * d.rd F.loopSchedAt

/-- A slot's output as latched at an instant (R259). -/
def Dev.slotSignal (d : Dev) (slot t : Nat) : Int :=
  if d.on F.loopFast slot then (fastOutput (d.loop slot).evals t d.schedTicks).1 else s32 (d.rd F.loopOut slot)

/-- A channel output as a class-2 signal (R258, R352). -/
def Dev.chanSignal (d : Dev) (n : Nat) : Int := s32 (d.rd F.measOut n)

/-- A quantity of the command in force as a class-4 signal (R258, R363). -/
def Dev.commandSignal (d : Dev) (i : Nat) : Int := s32 (d.rd F.grpCfQ i)

/-- The present value of a signal (R258). -/
def Dev.signal (d : Dev) (sel t : Nat) : Int :=
  let i := selIndex sel
  match selClass sel with
  | 1 => d.slotSignal i t
  | 2 => d.chanSignal i
  | 3 => d.cellValue (i / 64) (i % 64)
  | 4 => d.commandSignal i
  | 5 => d.armSignal (i / 8) (i % 8)
  | _ => 0

/-- The enabled slots. -/
def Dev.enabledSlots (d : Dev) : List Nat := (List.range d.loopSlots).filter fun s => d.on F.loopEn s

/-- The enabled arms. -/
def Dev.enabledArms (d : Dev) : List Nat := (List.range 8).filter fun a => d.on F.modArmEn a

/-- Every selector a snapshot holds (R258). -/
def Dev.signalSelectors (d : Dev) : List Nat :=
  d.enabledSlots.map (8192 + ·)
    ++ ((List.range 32).filter fun n => d.on F.measEn n).map (2 * 8192 + ·)
    ++ d.populatedSlots.flatMap (fun s => (List.range 60).map fun j => 3 * 8192 + s * 64 + j)
    ++ (List.range 11).map (4 * 8192 + ·)
    ++ d.enabledArms.flatMap fun a => (List.range 6).map fun k => 5 * 8192 + a * 8 + k

/-- Step 5 of R12: every signal latched; the snapshot before is kept too (R259). -/
def Dev.latchSnapshot (d : Dev) : Dev :=
  let t := d.now
  let snap := (d.signalSelectors.map fun sel => (sel, d.signal sel t)).filter fun e => decide (e.2 ≠ 0)
  let late := d.enabledSlots.filter fun s => d.on F.loopFast s && (fastOutput (d.loop s).evals t d.schedTicks).2
  let d := { d with engines := { d.engines with
    prev := d.engines.snap, prevAt := d.engines.snapAt, snap := snap, snapAt := t, snaps := min 2 (d.engines.snaps + 1) } }
  late.foldl (fun d _ => (d.bump F.loopFpLate).raise 0x2C) d

/-- A signal of a snapshot. -/
def snapSignal (snap : List (Nat × Int)) (sel : Nat) : Int := ((snap.find? fun e => e.1 == sel).map (·.2)).getD 0

/-! ## Fixed-point arithmetic (R261) -/

/-- A value with whether something saturated. -/
abbrev Sat := Int × Bool

/-- A sum of products in the Q12.52 accumulator, saturating at each addition. -/
def macc : List (Int × Int) → Int → Sat
  | [], acc => (acc, false)
  | (a, b) :: t, acc =>
    let s := acc + a * b
    let r := macc t (sat64 s)
    (r.1, r.2 || decide (sat64 s ≠ s))

/-- A Q12.52 result in Q8.24, rounded and saturated. -/
def toQ24 (x : Sat) : Sat :=
  let r := q52to24 x.1
  (sat32 r, x.2 || decide (sat32 r ≠ r))

/-! ## One evaluation (R260 to R263) -/

/-- A slot's state, out of SO 0x0700 (R284). -/
def Dev.slotState (d : Dev) (s : Nat) : SlotState :=
  let so := 0x0700 + s
  { integ := d.sword so 4 * 2 ^ 28 + (d.word so 5 : Nat), dState := d.sword so 7, w := d.sword so 9,
    yPrev := d.sword so 8, bq := (List.range 16).map fun k => d.sword so (10 + k), out := d.sword so 2 }

/-- The signals one evaluation reads. -/
structure SlotIn where
  r : Int := 0
  f : Int := 0
  ff : Int := 0
  track : Option Int := none
  maxSig : Option Int := none
  minSig : Option Int := none
  derate : Int := 0x01000000
deriving DecidableEq, Repr

/-- One biquad section, direct form I (R260 step 3): its output and its four states after. -/
def biquad (b0 b1 b2 a1 a2 x x1 x2 y1 y2 : Int) : Sat × List Int :=
  let r := toQ24 (macc [(b0, x), (b1, x1), (b2, x2), (-a1, y1), (-a2, y2)] 0)
  (r, [x, x1, r.1, y1])

/-- The biquad chain of a slot. -/
def biquads (coef : Nat → Int) (st : List Int) : Nat → Nat → Int → Sat × List Int
  | 0, _, x => ((x, false), [])
  | n + 1, q, x =>
    let v (k : Nat) : Int := st.getD (4 * q + k) 0
    let (y, s1) := biquad (coef (20 + 5 * q)) (coef (21 + 5 * q)) (coef (22 + 5 * q)) (coef (23 + 5 * q))
      (coef (24 + 5 * q)) x (v 0) (v 1) (v 2) (v 3)
    let (z, s2) := biquads coef st n (q + 1) y.1
    ((z.1, y.2 || z.2), s1 ++ s2)

/-- One evaluation of a slot (R260 to R263, R267, R276, R278): `coef w` is word w of its definition, `fresh` the reset
of R267, `action` the committed LOOP.I_ACTION. -/
def evalSlot (coef : Nat → Int) (bqCount : Nat) (dEn derateOn fresh : Bool) (action : Nat) (st0 : SlotState)
    (i : SlotIn) : SlotEval :=
  let iMax := coef 16
  let iMin := if coef 16 < coef 17 then coef 16 else coef 17
  let lo := iMin * 2 ^ 28
  let hi := iMax * 2 ^ 28
  let st := if fresh then
      { integ := clampI lo hi (coef 18 * 2 ^ 28), dState := 0, w := 0, yPrev := 0, bq := [], out := st0.out }
    else st0
  let clips := !fresh && action == 0 && decide (clampI lo hi st.integ ≠ st.integ)
  let integ := if action = 0 then clampI lo hi st.integ else st.integ
  let e := toQ24 (macc [(coef 5, i.r), (-(coef 6), i.f)] 0)
  let (y, bq) := biquads coef st.bq bqCount 0 e.1
  let dy := y.1 - st.yPrev
  let dS : Sat := if dEn then toQ24 (macc [(coef 12, st.dState), (coef 11, sat32 dy)] 0) else (0, false)
  let dSat := dEn && (dS.2 || decide (sat32 dy ≠ dy))
  let rest := macc [(coef 8, y.1), (coef 7, i.ff)] (dS.1 * 2 ^ 28)
  let target : Option Int := match i.track with
    | some v => some v
    | none => if action = 1 then some st.out else none
  let wanted : Sat :=
    match target with
    | some v => (sat64 (v * 2 ^ 28 - rest.1), decide (sat64 (v * 2 ^ 28 - rest.1) ≠ v * 2 ^ 28 - rest.1))
    | none =>
      if action = 2 then (coef 18 * 2 ^ 28, false)
      else macc [(coef 9, y.1), (coef 10, st.w)] integ
  let newI := clampI lo hi wanted.1
  let actClip := action != 0 && i.track.isNone && decide (newI ≠ wanted.1)
  let total := macc [(coef 8, y.1), (coef 7, i.ff)] (sat64 (newI + dS.1 * 2 ^ 28))
  let raw := toQ24 total
  let up0 := match i.maxSig with | some v => min (coef 14) v | none => coef 14
  let lo0 := match i.minSig with | some v => max (coef 15) v | none => coef 15
  let upS : Sat := if derateOn then (sat32 (roundDiv (up0 * i.derate) (2 ^ 24)), false) else (up0, false)
  let loS : Sat := if derateOn then (sat32 (roundDiv (lo0 * i.derate) (2 ^ 24)), false) else (lo0, false)
  let src := match i.track with | some v => v | none => raw.1
  let cross := decide (upS.1 < loS.1)
  let lim := if cross then upS.1 else clampI loS.1 upS.1 src
  { st := { integ := newI, dState := dS.1, w := 0, yPrev := y.1, bq := bq, out := lim }
    err := e.1, y := y.1, raw := raw.1, lim := lim, upper := upS.1, lower := loS.1
    sat := e.2 || y.2 || dSat || wanted.2 || raw.2
    cross := cross, intHi := decide (newI = hi), intLo := decide (newI = lo), clipped := clips
    clipEvent := clips || actClip }

/-- A flag as a number. -/
def flag (b : Bool) : Nat := if b then 1 else 0

/-- An evaluation latches (R260 step 1, R284): LOOP.EVAL_COUNT advances and LOOP.LAST_AT shows the instant. -/
def Dev.latched (d : Dev) (s : Nat) : Dev :=
  ((d.bumpWrap F.loopEvalCount s).setWord (0x0700 + s) 26 (d.now % 2 ^ 32)).setWord (0x0700 + s) 27 (d.now / 2 ^ 32 % 2 ^ 32)

/-- Publish an evaluation (R260 step 9, R261, R284): the state words, the counters and events, and the result `out` with its
back-calculation term, whose own saturation counts with the others; a tracking evaluation leaves W at 0. -/
def Dev.publish (d : Dev) (s engine : Nat) (x : SlotEval) (out : Int) (won tracking : Bool) : Dev :=
  let so := 0x0700 + s
  let w : Int := if tracking then 0 else sat32 (out - x.raw)
  let sat := x.sat || (!tracking && decide (w ≠ out - x.raw))
  let d := (((((((((d.wr F.loopSOutHi (flag (decide (x.upper < x.raw))) s).wr F.loopSOutLo
    (flag (decide (x.raw < x.lower))) s).wr F.loopSIntHi (flag x.intHi) s).wr F.loopSIntLo (flag x.intLo) s).wr
    F.loopSArithSat (flag sat) s).wr F.loopSGroupWon (flag won) s).wr F.loopSLimCross (flag x.cross) s).wr
    F.loopSClipped (flag x.clipped) s).wr F.loopSTracking (flag tracking) s).wr F.loopSEngine engine s
  let words : List (Nat × Nat) :=
    [(2, u32 out), (3, u32 x.raw), (4, u32 (Int.fdiv x.st.integ (2 ^ 28))), (5, (Int.emod x.st.integ (2 ^ 28)).toNat),
     (6, u32 x.err), (7, u32 x.st.dState), (8, u32 x.st.yPrev), (9, u32 w)]
      ++ (List.range 16).map fun k => (10 + k, u32 (x.st.bq.getD k 0))
  let d := words.foldl (fun d e => d.setWord so e.1 e.2) d
  let d := if x.clipped then d.bumpWord so 28 else d
  let d := if sat then d.bumpWord so 29 else d
  if x.clipEvent then d.raise 0x28 else d

/-! ## What a slot needs and reads -/

/-- The mode bit of R283 for LOOP.MODES and LEG.MODES; none outside the switching modes. -/
def modeBit (m : Mode) : Option Nat :=
  match m with
  | .precharge => some 0 | .runForm => some 1 | .runFollow => some 2 | .rideThrough => some 3 | .derated => some 4
  | .service => some 5 | .calibrate => some 6 | .discharge => some 7 | _ => none

/-- The mode the slots go by (R267): the mode in force, and in PILOT the one in Flame's latest copy. -/
def Dev.loopMode (d : Dev) : Mode :=
  if d.mode = .pilot || d.twin.replaying then (modeOf d.twin.copyMode).getD .pilot else d.mode

/-- Whether the mode has a slot's bit (R267). -/
def Dev.slotInMode (d : Dev) (s : Nat) : Bool :=
  match modeBit d.loopMode with
  | some b => (d.rd F.loopModes s).testBit b
  | none => false

/-- The derate ratio of R24 in Q8.24, rounded toward zero: the least healthy-to-required ratio of the arms short; 1
outside DERATED. In a replay it is the ratio of the state copy (R389). -/
def Dev.derateRatio (d : Dev) : Int :=
  match d.derate with
  | some r => r
  | none =>
  if d.mode = .derated then
    (d.enabledArms.map fun a =>
      let healthy := (d.activeOf a).length
      let need := d.rd F.hmpRedund a
      if healthy < need then ((healthy * 2 ^ 24 / need : Nat) : Int) else oneQ24).foldl min oneQ24
  else oneQ24

/-- Whether a slot is an enabled regular slot. -/
def Dev.regular (d : Dev) (s : Nat) : Bool := decide (s < d.loopSlots) && d.on F.loopEn s && !d.on F.loopFast s

/-- The selectors a slot reads. -/
def Dev.slotSels (d : Dev) (s : Nat) : List Nat :=
  [d.rd F.loopRSel s, d.rd F.loopFSel s, d.rd F.loopFfSel s, d.rd F.loopTrkSel s, d.rd F.loopMaxSel s,
   d.rd F.loopMinSel s]

/-- The lower-numbered regular slots of a set that a slot reads (R259). -/
def Dev.slotDeps (d : Dev) (dueSet : List Nat) (s : Nat) : List Nat :=
  ((d.slotSels s).filter fun x => selClass x == 1).map selIndex |>.filter fun p =>
    decide (p < s) && dueSet.contains p

/-- The occupancy of a regular evaluation (R279), CTRL cycles. -/
def Dev.slotCost (d : Dev) (s : Nat) : Nat := 12 + 5 * d.rd F.loopBqCount s + 2 * d.rd F.loopDEn s

/-- The latency of a fast-path evaluation from its trigger (R273), CTRL cycles: total and engine occupancy. -/
def Dev.fastCost (d : Dev) (s : Nat) : Nat × Nat :=
  let cellFed := selClass (d.rd F.loopFSel s) != 2
  let total := match cellFed, d.on F.loopLegEn s with
    | true, false => 22 | false, true => 14 | true, true => 17 | false, false => 19
  (total, if cellFed then total - 3 else total)

/-- The group of a slot, if it has one (R269). -/
def Dev.groupOf (d : Dev) (s : Nat) : Option Nat := if d.on F.loopGroupEn s then some (d.rd F.loopGroup s) else none

/-- The inputs of an evaluation, given how the feedback and how every other selector reads. -/
def Dev.slotIn (d : Dev) (s : Nat) (feed read : Nat → Int) (derate : Int) : SlotIn :=
  let opt (x : Nat) : Option Int := if selClass x = 0 then none else some (read x)
  { r := if selClass (d.rd F.loopRSel s) = 0 then s32 (d.rd F.loopRConst s) else read (d.rd F.loopRSel s)
    f := feed (d.rd F.loopFSel s), ff := read (d.rd F.loopFfSel s)
    track := if d.slotInMode s then none else opt (d.rd F.loopTrkSel s)
    maxSig := opt (d.rd F.loopMaxSel s), minSig := opt (d.rd F.loopMinSel s), derate := derate }

/-- Words with older values put back where a list has them. -/
def restoreWords (old : List (Nat × Word)) (r : RegFile) : RegFile := old.foldl (fun r e => tset resetWord r e.1 e.2) r

/-- The definition words as an evaluation latches them now (R37, R277): a word that a live write overwrote in this CTRL cycle
still reads as it was, and for a fast-path evaluation so does a word that a commit replaced in it. -/
def Dev.latchView (d : Dev) (fast : Bool) : Dev :=
  let live := if d.engines.overwrittenIn = d.now / 16 then d.engines.overwritten else []
  let struck := if d.engines.struckIn = d.now / 16 then d.engines.struck else []
  let old := if fast then struck ++ live else live.filter fun e => !(struck.any fun x => x.1 == e.1)
  if old.isEmpty then d else { d with regs := restoreWords old d.regs }

/-- The value a slot forms now, and its loop record after: the reset and the action are spent. -/
def Dev.evalAt (d : Dev) (s : Nat) (fast : Bool) (feed read : Nat → Int) (derate : Int) : SlotEval × Dev :=
  let l := d.loop s
  let v := d.latchView fast
  let x := evalSlot (fun w => v.sword (0x0600 + s) w) (min 4 (v.rd F.loopBqCount s)) (v.on F.loopDEn s)
    (v.on F.loopDerate s) l.fresh l.action (d.slotState s) (v.slotIn s feed read derate)
  (x, d.setLoop s { l with fresh := false, action := 0 })

/-- A word of a slot definition is about to be overwritten by a live write (R37): its old value is kept for the CTRL cycle. -/
def Dev.noteOverwrite (d : Dev) (so word : Nat) : Dev :=
  let c := d.now / 16
  let olds := if d.engines.overwrittenIn = c then d.engines.overwritten else []
  let k := wordKey so word
  let olds := if olds.any fun e => e.1 == k then olds else olds ++ [(k, regWord d.regs so word)]
  { d with engines := { d.engines with overwritten := olds, overwrittenIn := c } }

/-- The strobe of a commit replaces words of slot definitions (R277): their old values are kept for the CTRL cycle. -/
def Dev.noteStrobe (d : Dev) (keys : List Nat) : Dev :=
  let slotKeys := keys.filter fun k => decide (0x0600 ≤ k / 65536) && decide (k / 65536 < 0x0700)
  { d with engines := { d.engines with
      struck := slotKeys.map fun k => (k, tget resetWord d.regs k), struckIn := d.now / 16 } }

/-! ## The local stage's commands (R318) -/

/-- The compare values of a duty (R318). -/
def dutyCompares (prd minOn : Nat) (centre : Bool) (duty : Int) : Nat × Nat :=
  let q := clampI 0 oneQ24 duty
  let on0 := (q.toNat * (prd + 1) + 2 ^ 23) / 2 ^ 24
  let on1 := if on0 < minOn then 0 else on0
  let on := if prd + 1 < on1 + minOn then prd + 1 else on1
  if centre then
    let c := (prd + 1) / 2
    (c - on / 2, c + on - on / 2)
  else (0, on)

def Dev.leg (d : Dev) (n : Nat) : Leg := tget (fun _ => {}) d.legs n

def Dev.setLeg (d : Dev) (n : Nat) (x : Leg) : Dev := { d with legs := tset (fun _ => {}) d.legs n x }

/-- The shadow compares of a leg are about to be written: a zero event of the same CTRL cycle still copies the old ones (R320). -/
def Dev.noteShadow (d : Dev) (n : Nat) : Dev :=
  let c := d.clock.now / 16
  match (d.leg n).shadow with
  | some x => if x.1 = c then d
    else d.setLeg n { d.leg n with shadow := some (c, d.rd F.legCmpaSh n, d.rd F.legCmpbSh n) }
  | none => d.setLeg n { d.leg n with shadow := some (c, d.rd F.legCmpaSh n, d.rd F.legCmpbSh n) }

/-- A slot's output written as the shadow command of a leg (R318): the duty and the shadow compares, with LEG.SRC 0. -/
def Dev.writeDuty (d : Dev) (leg : Nat) (duty : Int) : Dev :=
  if d.on F.legSrc leg then d
  else
    let (a, b) := dutyCompares (d.rd F.legPrd leg) (d.rd F.legMinOn leg) (d.on F.legAlign leg) duty
    (((d.noteShadow leg).wr F.legDuty (u32 (clampI 0 oneQ24 duty)) leg).wr F.legCmpaSh a leg).wr F.legCmpbSh b leg

/-- A published output to its leg (R260 step 9). -/
def Dev.sink (d : Dev) (s : Nat) (out : Int) : Dev :=
  if d.on F.loopLegEn s then d.writeDuty (d.rd F.loopLeg s) out else d

/-! ## The regular slots of a cycle (R264 to R269) -/

/-- Whether a regular slot is due at a control-cycle index (R264). -/
def Dev.due (d : Dev) (s k : Nat) : Bool := d.regular s && decide (k % (d.rd F.loopDiv s + 1) = d.rd F.loopPhase s)

/-- Whether a due slot is evaluated: its mode bit, or tracking (R267). -/
def Dev.evaluates (d : Dev) (s : Nat) : Bool := d.slotInMode s || selClass (d.rd F.loopTrkSel s) != 0

/-- The pre-schedule set (R266): the arm reference and DAB slots of enabled arms, and what they read, directly or through
others. A slot reads only lower-numbered ones, so one pass from the highest down finds them all. -/
def Dev.preSchedule (d : Dev) (dueSet : List Nat) : List Nat :=
  let roots := d.enabledArms.flatMap fun a =>
    [d.rd F.modArmRefSlot a] ++ (if d.on F.modArmDabEn a then [d.rd F.modArmDabSlot a] else [])
  dueSet.reverse.foldl (fun set s =>
    if roots.contains s || set.any (fun p => (d.slotDeps dueSet p).contains s) then s :: set else set) []

/-- An overrun of a slot on an engine (R268). -/
def Dev.overrun (d : Dev) (s engine : Nat) : Dev :=
  ((((d.bump F.loopOverruns).bumpWord (0x0700 + s) 31)).raise 0x29).fault 12 engine s

/-- The evaluations due in the cycle of index k, in Hamper's order (R264, R265, R295). -/
def Dev.dueJobs (d : Dev) (k : Nat) : List Job :=
  let due := d.enabledSlots.filter fun s => d.due s k && d.evaluates s
  let pre := d.preSchedule due
  (sortBy (fun s : Nat => ((d.rd F.hmpPOrder s : Nat) : Int)) due).map fun s =>
    { slot := s, cycle := k, engine := d.rd F.hmpPEngine s, deps := d.slotDeps due s
      group := if d.slotInMode s then d.groupOf s else none, pre := pre.contains s }

/-- Whether an evaluation has neither published nor been dropped. -/
def Job.isOpen (j : Job) : Bool := j.doneAt.isNone

/-- A job replaced by what it has become. -/
def Dev.putJob (d : Dev) (old new : Job) : Dev :=
  { d with engines := { d.engines with jobs := d.engines.jobs.map fun j => if j = old then new else j } }

/-- An evaluation that does not take place, or has published: its readers wait no longer. -/
def Dev.closeJob (d : Dev) (j : Job) : Dev := d.putJob j { j with doneAt := some d.now }

/-- An evaluation's overrun counted once (R268, log entry 125). -/
def Dev.overrunJob (d : Dev) (j : Job) : Dev :=
  if j.overran then d else (d.overrun j.slot j.engine).putJob j { j with overran := true }

/-- Step 5 of R12: the snapshot, the held flags, the slots due, the evaluations of the last cycle that have not ended counted as
overruns and put before the new ones on their engines (R268), and the schedule point (R266). -/
def Dev.openCycle (d : Dev) (k : Nat) : Dev :=
  let d := d.latchSnapshot
  let d := d.enabledSlots.foldl (fun d s => d.wr F.loopSHeld (flag (!d.slotInMode s)) s) d
  let d := (d.engines.jobs.filter Job.isOpen).foldl Dev.overrunJob d
  let left := d.engines.jobs.filter Job.isOpen
  let kept := d.engines.jobs.filter fun j => left.any fun r => r.cycle == j.cycle
  { d with engines := { d.engines with
      cycle := k, jobs := kept ++ d.dueJobs k, schedAt := some (d.now + d.schedTicks), late := [] } }

/-- Until when an engine is taken by evaluations that have latched (R265, R272). -/
def Engines.freeAt (g : Engines) (e : Nat) : Nat :=
  ((g.jobs.filter fun j => j.engine == e && j.startAt.isSome).map (·.endAt)).foldl max (tget (fun _ => 0) g.busy e)

/-- When an evaluation may latch (R265): what stands before it on its engine has ended, what it reads has published. -/
def Engines.readyAt (g : Engines) (j : Job) : Option Nat :=
  let before := g.jobs.takeWhile (· != j)
  let deps := g.jobs.filter fun p => p.cycle == j.cycle && j.deps.contains p.slot
  if j.startAt.isSome || !j.isOpen then none
  else if before.any fun p => p.isOpen && ((p.engine == j.engine && p.startAt.isNone) || p.slot == j.slot) then none
  else if deps.any Job.isOpen then none
  else some ((deps.filterMap (·.doneAt)).foldl max (max g.snapAt (g.freeAt j.engine)))

/-- When a group of a cycle is resolved (R269): 2 CTRL cycles after its last due member has ended. -/
def Engines.resolveAt (g : Engines) (cycle grp : Nat) : Option Nat :=
  let ms := g.jobs.filter fun j => j.cycle == cycle && j.group == some grp && j.isOpen
  if ms.isEmpty || ms.any (·.startAt.isNone) then none else some ((ms.map (·.endAt)).foldl max 0 + 32)

/-- What the control engine does next: a channel output is published (R349), a regular slot outside every group publishes, a group is resolved, a fast-path slot
publishes, the schedule point passes, a fast-path evaluation latches, a regular one does. -/
inductive EngStep where
  | output (o : ChanOut)
  | publish (j : Job)
  | resolve (cycle grp : Nat)
  | fastDone (f : FastJob)
  | schedule
  | fastStart (f : FastJob)
  | start (j : Job)
deriving DecidableEq, Repr

/-- Every step the engine has before it, with its instant; of two at one instant the one listed first comes first. -/
def Engines.steps (g : Engines) : List (Nat × EngStep) :=
  let running := g.jobs.filter fun j => j.isOpen && j.startAt.isSome
  g.outs.map (fun o => (o.due, EngStep.output o))
    ++ (running.filter fun j => j.group.isNone).map (fun j => (j.endAt, EngStep.publish j))
    ++ running.filterMap (fun j => j.group.bind fun grp => (g.resolveAt j.cycle grp).map fun t => (t, EngStep.resolve j.cycle grp))
    ++ (g.fast.filter (·.latched)).map (fun f => (f.doneAt, EngStep.fastDone f))
    ++ g.schedAt.toList.map (fun t => (t, EngStep.schedule))
    ++ (g.fast.filter fun f => !f.latched).map (fun f => (f.startAt, EngStep.fastStart f))
    ++ g.jobs.filterMap fun j => (g.readyAt j).map fun t => (t, EngStep.start j)

/-- The earliest of some steps. -/
def earliest : List (Nat × EngStep) → Option (Nat × EngStep)
  | [] => none
  | x :: t => match earliest t with
    | some y => if y.1 < x.1 then some y else some x
    | none => some x

/-- An engine that evaluates nothing (R296): its failure is latched, and no placement without it is in force yet. -/
def Dev.engineDown (d : Dev) (e : Nat) : Bool := (d.engines.failing.map (·.1)).contains e

/-- A regular evaluation latches (R260, R265): on an engine that is down it is missed and overruns (R296); a slot that the mode now
holds is not evaluated (R267). A lower-numbered slot due in the cycle reads as published, everything else from the snapshot. -/
def Dev.startJob (d : Dev) (j : Job) : Dev :=
  if d.engineDown j.engine then
    (if j.overran then d.closeJob j
      else (d.overrun j.slot j.engine).putJob j { j with overran := true, doneAt := some d.now })
  else if !d.evaluates j.slot then d.closeJob j
  else
    let snap := if j.cycle = d.engines.cycle then d.engines.snap else d.engines.prev
    let read (sel : Nat) : Int :=
      if selClass sel = 1 && j.deps.contains (selIndex sel) then s32 (d.rd F.loopOut (selIndex sel)) else snapSignal snap sel
    let tracking := !d.slotInMode j.slot
    let (ev, d) := d.evalAt j.slot false read read d.derateRatio
    (d.latched j.slot).putJob j { j with
      startAt := some d.now, endAt := d.now + 16 * d.slotCost j.slot, tracking := tracking, ev := ev
      group := if tracking then none else j.group }

/-- A regular slot outside every group publishes. -/
def Dev.publishJob (d : Dev) (j : Job) : Dev :=
  ((d.publish j.slot j.engine j.ev j.ev.lim false j.tracking).sink j.slot j.ev.lim).closeJob j

/-- A group is resolved (R269): the lowest result, on a tie of the lowest slot, is every member's. -/
def Dev.resolveGroup (d : Dev) (cycle grp : Nat) : Dev :=
  let ms := d.engines.jobs.filter fun j => j.cycle == cycle && j.group == some grp && j.isOpen
  match minList (ms.map fun j => j.ev.lim) with
  | none => d
  | some u =>
    let winner := ((ms.filter fun j => decide (j.ev.lim = u)).map (·.slot)).foldl min 65535
    let before := d.rd F.loopGWinner grp
    let again := d.engines.resolved.contains grp
    let d := d.wr F.loopGWinner winner grp
    let d := if again then d else { d with engines := { d.engines with resolved := d.engines.resolved ++ [grp] } }
    let d := if again && before != winner then (d.bump F.loopGSwitches grp).raise 0x2B else d
    ms.foldl (fun d j => ((d.publish j.slot j.engine j.ev u (j.slot == winner) false).sink j.slot u).closeJob j) d

/-- The schedule point (R266, R268): the slots of the pre-schedule set that have not published overrun, and are read at their
last published value. -/
def Dev.schedulePoint (d : Dev) : Dev :=
  let missed := d.engines.jobs.filter fun j => j.pre && j.cycle == d.engines.cycle && j.isOpen
  let late := missed.map fun j => (j.slot, s32 (d.rd F.loopOut j.slot))
  missed.foldl Dev.overrunJob { d with engines := { d.engines with schedAt := none, late := late } }

/-- A slot's output as the edge scheduler reads it at the schedule point t (R259, R266, R268). A fast-path output that comes late
is counted. -/
def Dev.slotAtSchedule (d : Dev) (s t : Nat) : Int × Dev :=
  if d.on F.loopFast s then
    let r := fastOutput (d.loop s).evals t d.schedTicks
    (r.1, if r.2 then (d.bump F.loopFpLate).raise 0x2C else d)
  else match d.engines.late.find? fun x => x.1 == s with
    | some x => (x.2, d)
    | none => (s32 (d.rd F.loopOut s), d)

/-! ## The fast path (R270 to R273) -/

/-- Triggers of fast-path slots that a signal feeds: they wait for their FAST_PATH_TRIGGER command. -/
def Dev.trigger (d : Dev) (isFed : Nat → Bool) (instant : Nat) : Dev :=
  let slots := d.enabledSlots.filter fun s => d.on F.loopFast s && isFed (d.rd F.loopFSel s)
  { d with engines := { d.engines with triggers := d.engines.triggers ++ slots.map fun s => (s, instant) } }

/-- The engine a fast-path slot is pinned to, or moved to (R270, R296). -/
def Dev.engineOfFast (d : Dev) (s : Nat) : Option Nat :=
  (List.range 8).find? fun e => d.on F.loopEFast e && d.rd F.loopEFastSlot e == s

/-- The snapshot of the control cycle that contains an instant, if it is one of the two kept (R271). -/
def Dev.snapshotFor (d : Dev) (instant : Nat) : Option (List (Nat × Int)) :=
  if 1 ≤ d.engines.snaps && decide (d.engines.snapAt ≤ instant) then some d.engines.snap
  else if 2 ≤ d.engines.snaps && decide (d.engines.prevAt ≤ instant) then some d.engines.prev
  else none

/-- The trigger instant of a slot's last evaluation (R271). -/
def Dev.lastTrigger (d : Dev) (s : Nat) : Option Nat :=
  match (d.engines.fast.filter fun f => f.slot == s && !f.latched).getLast? with
  | some f => some f.trigger
  | none => ((d.loop s).evals.head?).map (·.1)

/-- A trigger of a fast-path slot (R270, R271, R296): its evaluation takes the pinned engine once the value is extracted (R273),
or it is skipped and counted. -/
def Dev.fastTrigger (d : Dev) (s instant : Nat) : Dev :=
  let skip := d.bumpWord (0x0700 + s) 30
  let tooSoon := match d.lastTrigger s with
    | some x => decide (instant < x + 10000)
    | none => false
  match d.engineOfFast s with
  | none => d.wr F.loopSHeld 1 s
  | some e =>
    if d.engineDown e || tooSoon || (d.snapshotFor instant).isNone then skip
    else if !d.evaluates s then d
    else
      let cost := d.fastCost s
      let f : FastJob := { slot := s, engine := e, trigger := instant, startAt := d.now + 16 * (cost.1 - cost.2)
                           doneAt := d.now + 16 * cost.1 }
      { d with engines := { d.engines with fast := d.engines.fast ++ [f] } }

/-- The evaluations of a fast-path slot that a read can still ask for (R259): those no older than the widest LOOP.SCHED_AT and two
cycles, and the two before them. -/
def keepEvals (cut : Nat) (es : List (Nat × Nat × Int)) : List (Nat × Nat × Int) :=
  es.filter (fun e => decide (cut ≤ e.1)) ++ (es.filter fun e => decide (e.1 < cut)).take 2

/-- A fast-path evaluation latches (R271, R272): it pre-empts the regular slot running on its engine, which ends later by as much.
The feedback is the signal that triggered it; everything else comes from the snapshot of the cycle of its trigger. -/
def Dev.startFast (d : Dev) (f : FastJob) : Dev :=
  let others := d.engines.fast.filter (· != f)
  if d.engineDown f.engine then ({ d with engines := { d.engines with fast := others } }).bumpWord (0x0700 + f.slot) 30
  else if !d.evaluates f.slot then { d with engines := { d.engines with fast := others } }
  else
    let snap := (d.snapshotFor f.trigger).getD d.engines.prev
    let tracking := !d.slotInMode f.slot
    let len := f.doneAt - f.startAt
    let jobs := d.engines.jobs.map fun j =>
      if j.engine == f.engine && j.isOpen && j.startAt.isSome && decide (d.now < j.endAt) then { j with endAt := j.endAt + len } else j
    let (ev, d) := d.evalAt f.slot true (fun sel => d.signal sel d.now) (snapSignal snap) d.derateRatio
    let l := d.loop f.slot
    let evals := keepEvals (d.now - 2 * d.cycle - 16 * 65536) ((f.trigger, f.doneAt, ev.lim) :: l.evals)
    let d := (d.latched f.slot).setLoop f.slot { l with evals := evals }
    { d with engines := { d.engines with
        jobs := jobs, fast := others ++ [{ f with latched := true, tracking := tracking, ev := ev }]
        busy := tset (fun _ => 0) d.engines.busy f.engine f.doneAt } }

/-- A fast-path evaluation publishes (R273). -/
def Dev.publishFast (d : Dev) (f : FastJob) : Dev :=
  let d := { d with engines := { d.engines with fast := d.engines.fast.filter (· != f) } }
  (d.publish f.slot f.engine f.ev f.ev.lim false f.tracking).sink f.slot f.ev.lim

/-- A channel output is published (R348, R349, R358): it triggers the fast-path slots that the channel feeds. -/
def Dev.publishOutput (d : Dev) (o : ChanOut) : Dev :=
  let d := { d with engines := { d.engines with outs := d.engines.outs.filter (· != o) } }
  let d := ((d.wr F.measOut (u32 o.y) o.chan).wr F.measRaw (u32 o.x) o.chan).wr64 F.measAtLo F.measAtHi o.at_ o.chan
  let d := d.bumpWrap F.measOutCount o.chan
  let d := if d.on F.measValid o.chan then d else (d.wr F.measValid 1 o.chan).raise 0x59
  d.trigger (fun sel => sel == 2 * 8192 + o.chan) o.at_

/-! ## Placement of the loop slots (R295, R296) -/

/-- A unit of placement: its slots in ascending order, whether it is a group. -/
structure PUnit where
  slots : List Nat := []
  group : Bool := false
deriving DecidableEq, Repr

/-- A slot as placed. -/
structure Placed where
  slot : Nat := 0
  engine : Nat := 0
  order : Nat := 0
  start : Nat := 0
  fin : Nat := 0
  pub : Nat := 0
deriving DecidableEq, Repr

/-- The units of a set of regular slots, in ascending order of their lowest slot. -/
def Dev.placeUnits (d : Dev) (slots : List Nat) : List PUnit :=
  slots.filterMap fun s =>
    match d.groupOf s with
    | some g =>
      let ms := slots.filter fun p => d.groupOf p == some g
      if ms.head? = some s then some { slots := ms, group := true } else none
    | none => some { slots := [s] }

/-- Place the slots of a unit one after another from a start (R295 step 2). -/
def Dev.placeRun (d : Dev) (engine : Nat) : List Nat → Nat → Nat → List Placed
  | [], _, _ => []
  | s :: t, order, start =>
    let fin := start + d.slotCost s
    { slot := s, engine := engine, order := order, start := start, fin := fin, pub := fin }
      :: d.placeRun engine t (order + 1) fin

/-- Place one unit on the engine on which it ends earliest (R295 steps 4 and 5). -/
def Dev.placeUnit (d : Dev) (engines pinned all : List Nat) (done : List Placed) (u : PUnit) : List Placed :=
  let deps := u.slots.flatMap fun s => d.slotDeps all s
  let ready := ((done.filter fun p => deps.contains p.slot).map (·.pub)).foldl max 0
  let free (e : Nat) : Nat := ((done.filter fun p => p.engine == e).map (·.fin)).foldl max 0
  let len := (u.slots.map d.slotCost).sum
  let best := engines.foldl (fun (b : Option Nat) e =>
    match b with
    | none => some e
    | some x =>
      let te := max ready (free e) + len
      let tx := max ready (free x) + len
      if te < tx then some e
      else if tx < te then some x
      else if pinned.contains e && !pinned.contains x then some x
      else some e) none
  match best with
  | none => done
  | some e =>
    let order := (done.filter fun p => p.engine == e).length
    let run := d.placeRun e u.slots order (max ready (free e))
    let resolve := (run.map (·.fin)).foldl max 0 + 2
    done ++ if u.group then run.map fun p => { p with pub := resolve } else run

/-- Place units, each once every slot it reads has been placed (R295). -/
def Dev.placeAll (d : Dev) (engines pinned all : List Nat) : Nat → List PUnit → List Placed → List Placed
  | 0, _, done => done
  | _ + 1, [], done => done
  | fuel + 1, u0 :: rest, done =>
    let left := u0 :: rest
    let placed := done.map (·.slot)
    let ok (u : PUnit) : Bool :=
      u.slots.all fun s => (d.slotDeps all s).all fun p => placed.contains p || u.slots.contains p
    let u := (left.find? ok).getD u0
    d.placeAll engines pinned all fuel (left.filter (fun x => decide (x ≠ u))) (d.placeUnit engines pinned all done u)

/-- The pinned fast-path slots with their engines, those of withdrawn engines moved (R296). -/
def Dev.pins (d : Dev) (gone : List Nat) : List (Nat × Nat) :=
  let fast := d.enabledSlots.filter fun s => d.on F.loopFast s
  let stay := fast.filter fun s => !gone.contains (d.rd F.loopPin s)
  let moved := fast.filter fun s => gone.contains (d.rd F.loopPin s)
  moved.foldl (fun (acc : List (Nat × Nat)) s =>
    match (List.range 8).find? fun e => !gone.contains e && !(acc.any fun x => x.2 == e) with
    | some e => acc ++ [(s, e)]
    | none => acc) (stay.map fun s => (s, d.rd F.loopPin s))

/-- The placement of the regular slots on the engines that remain (R295). -/
def Dev.placement (d : Dev) (gone : List Nat) : List Placed :=
  let regs := (List.range d.loopSlots).filter d.regular
  let engines := (List.range 8).filter fun e => !gone.contains e
  let pinned := (d.pins gone).map (·.2)
  let pre := d.preSchedule regs
  let units := d.placeUnits regs
  let first := units.filter fun u => u.slots.any pre.contains
  let rest := units.filter fun u => !u.slots.any pre.contains
  d.placeAll engines pinned regs (units.length + 1) (first ++ rest) []

/-- LOOP.G_MEMBERS of every group (R269, R282): the enabled slots that have joined it. -/
def Dev.countMembers (d : Dev) : Dev :=
  let gs := ((List.range d.loopSlots).filter fun s => d.on F.loopEn s).filterMap d.groupOf
  (List.range 32).foldl (fun d g => d.wr F.loopGMembers (min 8 (gs.filter (· == g)).length) g) d

/-- Put a placement in force (R295, R312, R282); a change is counted and raises event source 0x36. -/
def Dev.setPlacement (d : Dev) (gone : List Nat) : Dev :=
  let ps := d.placement gone
  let pins := d.pins gone
  let wordOf (s : Nat) : Nat :=
    match ps.find? fun p => p.slot == s with
    | some p => 2 ^ 31 + p.engine * 2 ^ 28 + min 255 p.order * 2 ^ 20 + min 65535 p.start
    | none => 0
  let eWord (e : Nat) : Nat :=
    let load := min 65535 ((ps.filter fun p => p.engine == e).map fun p => d.slotCost p.slot).sum
    match pins.find? fun x => x.2 == e with
    | some x => 2 ^ 31 + x.1 * 2 ^ 23 + load
    | none => load
  let slots := List.range d.loopSlots
  let changed := slots.any fun s => d.word 0x0906 s != wordOf s
  let d := slots.foldl (fun d s => d.setWord 0x0906 s (wordOf s)) d
  let d := (List.range 8).foldl (fun d e => d.setWord 0x0501 e (eWord e)) d
  if changed then (d.bump F.hmpPlaceChanges).raise 0x36 else d

/-- The placement in force at a boundary (R295, R296): on the engines that remain once those whose placement has been computed are
withdrawn, for the configuration as the boundary's commit left it. -/
def Dev.placeLoops (d : Dev) : Dev :=
  let ready := (d.engines.failing.filter (·.2)).map (·.1)
  let gone := d.engines.gone ++ ready.filter fun e => !d.engines.gone.contains e
  let d := { d with engines := { d.engines with gone := gone, failing := d.engines.failing.filter fun x => !x.2 } }
  (d.setPlacement gone).countMembers

/-- Engines whose failure is latched: the placement without them is computed at this boundary and takes effect at the next (R296). -/
def Dev.withdrawEngines (d : Dev) : Dev :=
  { d with engines := { d.engines with failing := d.engines.failing.map fun (x : Nat × Bool) => (x.1, true) } }

end Sys2Proof.Machine
end

