-- ==== Sys2Proof/Machine/Hamper.lean ====
section
/-!
DEFINITION. Machine/Hamper.lean: placement of the cells (R287 to R294), and the Tallow ledger with its checkpoints
(R299 to R307).
-/
namespace Sys2Proof.Machine

/-! ## Healthy counts (R287) -/

/-- A bit mask of the arms that satisfy a test. -/
def armMask (p : Nat → Bool) : Nat := ((List.range 8).filter p).foldl (fun m a => m + 2 ^ a) 0

/-- HMP.ARM_SHORT and HMP.ARM_FLOOR from the healthy cells of every enabled arm (R287). -/
def Dev.checkArms (d : Dev) : Dev :=
  let healthy (a : Nat) : Nat := (d.activeOf a).length
  (d.wr F.hmpArmShort (armMask fun a => d.on F.modArmEn a && decide (healthy a < d.rd F.hmpRedund a))).wr F.hmpArmFloor
    (armMask fun a => d.on F.modArmEn a && decide (healthy a < d.rd F.hmpMinCells a))

/-! ## Placing the cells (R288 to R292) -/

/-- The cells a placement of an arm covers (R288). -/
def Dev.placeCells (d : Dev) (arm : Nat) : List Nat :=
  if d.mode.switching then d.activeOf arm
  else (d.armSlots arm).filter fun s => (d.cell s).stage == 1 || (d.cell s).stage == 4

/-- A cell's damage in Q8.24 of a life, saturated (R288). -/
def Dev.damage (d : Dev) (s : Nat) : Int := min 2147483647 ((d.rd64 F.hmpDmgLo F.hmpDmgHi s / 512 : Nat) : Int)

/-- A mean that rounds toward zero. -/
def meanOf (xs : List Int) : Int := if xs.isEmpty then 0 else Int.tdiv xs.sum xs.length

/-- A Q8.24 quotient that rounds toward zero. -/
def divQ (a b : Int) : Int := if b = 0 then 0 else sat32 (Int.tdiv (a * 2 ^ 24) b)

/-- The carrier indices formed fresh for an arm (R292): the order of ((p × K_STRIDE) mod N, p). -/
def freshIndices (stride : Nat) (slots : List Nat) : List (Nat × Nat) :=
  let n := slots.length
  let key (p : Nat) : Int := (((p * stride) % n * n + p : Nat) : Int)
  let order := sortBy (fun x : Nat × Nat => key x.2) slots.zipIdx
  order.zipIdx.map fun x => (x.1.1, x.2)

/-- The direction of R289. -/
def Dev.direction (d : Dev) (arm : Nat) : Int :=
  let p := mulQ24 (s32 (d.rd F.modARef arm)) (d.armCurrent arm)
  let dead : Int := d.rd F.hmpPDead
  if dead ≤ p then 1 else if p ≤ -dead then -1 else 0

/-- Whether an arm is out of balance, and the scores of its cells (R289). -/
def Dev.scores (d : Dev) (arm : Nat) (cells : List Nat) : Bool × List (Nat × Int) :=
  let u (s : Nat) : Int := d.cellValue s 0
  let mu := max 1677722 (meanOf (cells.map u))
  let mt := meanOf (cells.map fun s => d.cellValue s 4)
  let md := meanOf (cells.map d.damage)
  let floor := max md (d.rd F.hmpDFloor : Nat)
  let v (s : Nat) : Int := divQ (u s - mu) mu
  let t (s : Nat) : Int := d.cellValue s 4 - mt
  let z (s : Nat) : Int := divQ (d.damage s - md) floor
  let dir := d.direction arm
  let oob := cells.any fun s => decide ((d.rd F.hmpVBand : Int) < (v s).natAbs)
  let wv := s32 (d.rd F.hmpWv)
  let wt := if oob then 0 else s32 (d.rd F.hmpWt)
  let ww := if oob then 0 else s32 (d.rd F.hmpWw)
  (oob, cells.map fun s => (s, (toQ24 (macc [(dir * v s, wv), (t s, wt), (z s, ww)] 0)).1))

/-- Twice the rank of a score among the scores of its arm (R290). -/
def rankTwice (scores : List (Nat × Int)) (x : Int) : Nat :=
  2 * (scores.filter fun e => decide (e.2 < x)).length + (scores.filter fun e => decide (e.2 = x)).length - 1

/-- The share of a rank (R290), rounded toward zero. -/
def shareOf (n rank2 : Nat) (spread : Int) : Int :=
  if n ≤ 1 then oneQ24
  else Int.tdiv (oneQ24 * (n - 1) + spread * ((n : Int) - 1 - rank2)) ((n : Int) * (n - 1))

/-- Shares made to sum to exactly 1.0: the residue goes to the one with the lowest carrier index (R290). -/
def settleShares (shares : List (Nat × Nat × Int)) (takes : Nat → Bool) : List (Nat × Int) :=
  let residue := oneQ24 - (shares.map fun x => x.2.2).sum
  let lowest := minList ((shares.filter fun x => takes x.1).map fun x => ((x.2.1 : Nat) : Int))
  shares.map fun x =>
    (x.1, if takes x.1 && decide (lowest = some ((x.2.1 : Nat) : Int)) then x.2.2 + residue else x.2.2)

/-- The DAB index of a slot (R292): active DAB-enabled cells of the node with a lower slot number. -/
def dabIndex (dabCells : List Nat) (s : Nat) : Nat := (dabCells.filter fun p => decide (p < s)).length

/-- The placement of one arm (R288 to R292), and whether it is out of balance. -/
def Dev.placeArm (d : Dev) (dabCells : List Nat) (arm : Nat) : Bool × List Place :=
  let cells := d.placeCells arm
  let n := cells.length
  let (oob, sc) := d.scores arm cells
  let idx := if d.mode.switching then cells.map fun s => (s, d.rd F.modCCarrier s)
    else freshIndices (d.rd F.hmpKStride) cells
  let kOf (s : Nat) : Nat := ((idx.find? fun e => e.1 == s).map (·.2)).getD 0
  let mu := max 1677722 (meanOf (cells.map fun s => d.cellValue s 0))
  let lim : Int := d.rd F.hmpDtrimMax
  let raw := sc.map fun e => (e.1, kOf e.1, shareOf n (rankTwice sc e.2) (d.rd F.hmpSpread))
  let shares := settleShares raw fun _ => true
  (oob, sc.map fun e =>
    { slot := e.1, arm := arm, kidx := kOf e.1, jidx := dabIndex dabCells e.1, rank2 := rankTwice sc e.2
      share := ((shares.find? fun x => x.1 == e.1).map (·.2)).getD 0
      trim := if d.on F.modArmDabEn arm then
          clampI (-lim) lim (toQ24 (macc [(d.cellValue e.1 0 - mu, s32 (d.rd F.hmpKdBal))] 0)).1 else 0
      score := e.2 })

/-- The cells of the node whose arm schedules DAB edges, among those a placement covers. -/
def Dev.dabPlaced (d : Dev) : List Nat :=
  (d.enabledArms.filter fun a => d.on F.modArmDabEn a).flatMap d.placeCells

/-- Start a placement at a boundary (R288): formed from this boundary's values, published at the next. -/
def Dev.startPlacement (d : Dev) (k : Nat) : Dev :=
  let all := d.enabledArms.map fun a => (a, d.placeArm d.dabPlaced a)
  let oobNew := armMask fun a => all.any fun (x : Nat × Bool × List Place) => x.1 == a && x.2.1
  let rises := d.enabledArms.filter fun a => oobNew.testBit a && !(d.rd F.hmpArmOob).testBit a
  let n := (all.map fun x => x.2.2.length).sum
  let places : List Place := all.flatMap fun x => x.2.2
  let d := { d with hamper := { d.hamper with next := some places, nextIndex := k } }
  let d := (d.wr F.hmpArmOob oobNew).wr F.hmpSortCyc (min 255 (16 + (n + 1) / 2))
  rises.foldl (fun d _ => d.raise 0x30) d

/-- The carrier indices that a placement is published with (R292): in a switching mode those the modulator has in force then, as compacted
since (R230), else those formed fresh. -/
def Dev.publishedIndices (d : Dev) (ps : List Place) : List Place :=
  if d.mode.switching then ps.map fun p => { p with kidx := d.rd F.modCCarrier p.slot }
  else
    let fresh := d.enabledArms.flatMap fun a =>
      freshIndices (d.rd F.hmpKStride) ((ps.filter fun p => p.arm == a).map (·.slot))
    ps.map fun p => { p with kidx := ((fresh.find? fun e => e.1 == p.slot).map (·.2)).getD p.kidx }

/-- Publish the placement of the boundary before (R288, R311): slots bypass-pending since are left out (R230). -/
def Dev.publishPlacement (d : Dev) : Dev :=
  match d.hamper.next with
  | none => d
  | some ps =>
    let ps := d.publishedIndices (ps.filter fun p => (d.cell p.slot).stage == 1 || (d.cell p.slot).stage == 4)
    let d := (List.range d.cellSlots).foldl (fun d s =>
      match ps.find? fun p => p.slot == s with
      | some p =>
        let d := d.setWord 0x0904 s (p.kidx * 2 ^ 24 + p.jidx * 2 ^ 16 + p.rank2 % 256 * 2 ^ 8 + 1)
        let d := ((d.wr F.hmpCShare (u32 p.share) s).wr F.hmpCTrim (u32 p.trim) s).wr F.hmpCScore (u32 p.score) s
        d.setCell s { d.cell s with hshare := p.share, trim := p.trim }
      | none => (((d.setWord 0x0904 s 0).wr F.hmpCShare 0 s).wr F.hmpCTrim 0 s).wr F.hmpCScore 0 s) d
    let d := { d with hamper := { d.hamper with covered := ps.map fun (p : Place) => (p.slot, p.arm) } }
    d.wr F.hmpPubCycle (d.hamper.nextIndex % 2 ^ 32)

/-! ## The Tallow ledger (R299 to R303) -/

def Dev.wearOf (d : Dev) (s : Nat) : Wear := tget (fun _ => {}) d.wear s

def Dev.setWear (d : Dev) (s : Nat) (x : Wear) : Dev := { d with wear := tset (fun _ => {}) d.wear s x }

/-- The bin of a cycle (R301): 16 m + b. -/
def Dev.wearBin (d : Dev) (dT tMean2 : Int) : Nat :=
  let b := min 15 (Int.toNat (Int.fdiv dT (max 1 (d.rd F.hmpTwDt * 4 : Nat))))
  let base : Int := 16 * sN 8 (d.rd F.hmpTwTmb)
  let m := clampI 0 7 (Int.fdiv (tMean2 - 2 * base) (max 1 (2 * (d.rd F.hmpTwTmw * 4) : Nat)))
  16 * m.toNat + b

/-- Count half cycles of a slot in a bin (R301, R302): the counter, the damage and the warnings. -/
def Dev.countCycle (d : Dev) (s halves : Nat) (dT tMean2 : Int) : Dev :=
  let bin := d.wearBin dT tMean2
  let so := 0x0A00 + s
  let sum := d.word so bin + halves
  let d := d.setWord so bin (min 4294967295 sum)
  let d := if 4294967295 ≤ sum && !d.on F.hmpLSat s then (d.wr F.hmpLSat 1 s).raise 0x37 else d
  let dmg := min (2 ^ 64 - 1) (d.rd64 F.hmpDmgLo F.hmpDmgHi s + halves * d.rd F.hmpDtEntry bin)
  let d := d.wr64 F.hmpDmgLo F.hmpDmgHi dmg s
  if d.rd F.hmpDWarn * 512 ≤ dmg && !d.on F.hmpLWarn s then (d.wr F.hmpLWarn 1 s).raise 0x35 else d

/-- The four-point rule (R300), until it no longer applies; the residue is newest first here. -/
def Dev.fourPoint (d : Dev) (s : Nat) : Nat → List Int → Dev × List Int
  | 0, r => (d, r)
  | fuel + 1, s4 :: s3 :: s2 :: s1 :: rest =>
    let inner := (s2 - s3).natAbs
    if inner ≤ (s1 - s2).natAbs && decide (inner ≤ (s3 - s4).natAbs) then
      (d.countCycle s 2 inner (s2 + s3)).fourPoint s fuel (s4 :: s1 :: rest)
    else (d, s4 :: s3 :: s2 :: s1 :: rest)
  | _ + 1, r => (d, r)

/-- Push a reversal (R300): past a depth of 32 the oldest range counts as a half cycle first. -/
def Dev.pushReversal (d : Dev) (s : Nat) (x : Int) : Dev :=
  let r := (d.wearOf s).residue
  let (d, r) := match r with
    | a :: b :: rest => if 32 ≤ r.length then (d.countCycle s 1 (a - b).natAbs (a + b), b :: rest) else (d, r)
    | _ => (d, r)
  let (d, newest) := d.fourPoint s 40 (x :: r.reverse)
  (d.setWear s { d.wearOf s with residue := newest.reverse }).wr F.hmpLDepth (min 32 newest.length) s

/-- Track in a new direction from a value. -/
def Dev.startDir (d : Dev) (s : Nat) (x : Int) (dir : Nat) : Dev :=
  d.setWear s { d.wearOf s with extreme := some x, dir := dir }

/-- One temperature into the rainflow count (R299), in 1/16 K: the first value starts it with no direction; an extreme
left by more than the hysteresis is pushed, and tracking goes on in the new direction. -/
def Dev.wearSample (d : Dev) (s : Nat) (x : Int) : Dev :=
  let w := d.wearOf s
  let hyst : Int := (d.rd F.hmpTwHyst * 4 : Nat)
  match w.extreme with
  | none => d.setWear s { w with extreme := some x }
  | some e =>
    if w.dir != 2 && decide (hyst < e - x) then (d.pushReversal s e).startDir s x 2
    else if w.dir != 1 && decide (hyst < x - e) then (d.pushReversal s e).startDir s x 1
    else if (w.dir == 1 && decide (e < x)) || (w.dir == 2 && decide (x < e)) then d.setWear s { w with extreme := some x }
    else d

/-- Value 4 of a SAMPLE into the ledger (R299): the first valid one of each control cycle, of a populated slot. -/
def Dev.ledgerSample (d : Dev) (s : Nat) (temp : Int) : Dev :=
  if d.rd F.hmpLedgerState = 2 && d.on F.hmpTwEn && d.populated s && !(d.wearOf s).counted then
    let d := d.setWear s { d.wearOf s with counted := true }
    d.wearSample s (roundDiv (temp * 1600) (2 ^ 24))
  else d

/-- A new control cycle: every slot may count again. -/
def Dev.ledgerCycle (d : Dev) : Dev :=
  (d.wear.map (·.1)).foldl (fun d s => d.setWear s { d.wearOf s with counted := false }) d

/-- Clear a slot's ledger (R303). -/
def Dev.clearLedger (d : Dev) (s : Nat) : Dev :=
  let d := (List.range 128).foldl (fun d c => d.setWord (0x0A00 + s) c 0) d
  let d := (List.range 4).foldl (fun d w => d.setWord 0x0912 (4 * s + w) 0) d
  d.setWear s { counted := (d.wearOf s).counted }

/-- The boundary's part of the ledger: a clear asked for (R303), and the copy of a checkpoint asked for (R305). -/
def Dev.ledgerClearStep (d : Dev) : Dev :=
  match d.ledger.clear with
  | some s => { d with ledger := { d.ledger with clear := none } }.clearLedger s
  | none => d

/-- Clear every residue (R313). -/
def Dev.clearResidues (d : Dev) : Dev :=
  (d.wear.map (·.1)).foldl (fun d s =>
    (d.setWear s { d.wearOf s with residue := [], extreme := none, dir := 0 }).wr F.hmpLDepth 0 s) d

/-! ## Checkpoints (R304 to R307) -/

/-- A block of R51: 252 bytes of payload and their CRC-32C. -/
def blockOf (payload : Bytes) : Bytes :=
  let p := padTo 252 payload
  p ++ le 4 (crc32c p)

/-- Whether a block's CRC is right. -/
def blockGood (b : Bytes) : Bool := decide (b.length = 256) && decide (leAt b 252 4 = crc32c (b.take 252))

/-- Network time as seconds (6 bytes) and nanoseconds (4); 0 when not valid. -/
def Dev.netStamp (d : Dev) : Bytes :=
  if d.on F.timeNetValid then
    let ns := d.toNet d.now
    le 6 (ns / 1000000000) ++ le 4 (ns % 1000000000)
  else zeros 10

/-- A signed number as 4 bytes. -/
def le32s (z : Int) : Bytes := le 4 (u32 z)

/-- The three blocks of a slot in a checkpoint (R306). -/
def Dev.ckptSlot (d : Dev) (s : Nat) : Bytes :=
  let c (i : Nat) : Bytes := le 4 (d.word (0x0A00 + s) i)
  let w := d.wearOf s
  let third := c 126 ++ c 127 ++ le 8 (d.rd64 F.hmpDmgLo F.hmpDmgHi s) ++ le 4 (d.rd F.hmpCellTag s)
    ++ le 1 w.residue.length
    ++ le 1 (d.rd F.hmpLSat s + 2 * d.rd F.hmpLWarn s + 4 * flag (d.populated s)) ++ le 2 s
    ++ padTo 128 (w.residue.flatMap le32s) ++ le32s (w.extreme.getD 0) ++ le 1 w.dir
  blockOf ((List.range 63).flatMap c) ++ blockOf ((List.range 63).flatMap fun i => c (63 + i)) ++ blockOf third

/-- Hours of counting in the chain so far (R306). -/
def Dev.ledgerHours (d : Dev) : Nat := d.ledger.hours + (d.now - d.ledger.restoredAt) / (3600 * ticksSec)

/-- A whole checkpoint (R306). -/
def Dev.checkpoint (d : Dev) : Bytes :=
  let head := [0x54, 0x41, 0x4C, 0x57] ++ le 2 1 ++ le 2 d.cellSlots ++ le 4 (d.rd F.hmpCkptSeq + 1)
    ++ le 2 d.nodeAddr ++ le 2 0 ++ (List.range 4).flatMap (fun w => le 4 (d.word 0x0011 w)) ++ d.netStamp ++ le 2 0
    ++ le 8 d.now ++ le 4 (d.rd F.stgGen) ++ le 4 d.ledgerHours
  blockOf head ++ (List.range d.cellSlots).flatMap d.ckptSlot

/-- Start a checkpoint (R305): the sector after the one last written or restored, or after a failed one. -/
def Dev.startCheckpoint (d : Dev) (sector : Nat) : Dev :=
  if (d.rd F.hmpLedgerState = 2 || d.rd F.hmpLedgerState = 3) && !d.on F.hmpCkptBusy then
    { d with ledger := { d.ledger with wanted := some (sector % 16), retryAt := none } }.wr F.hmpCkptBusy 1
  else d

/-- The copy of a checkpoint asked for, taken at a boundary (R305). -/
def Dev.checkpointCopy (d : Dev) : Dev :=
  match d.ledger.wanted with
  | some s => { d with ledger := { d.ledger with wanted := none, copy := some (s, d.checkpoint) } }
  | none => d

/-- Whether checkpoint bytes are a valid checkpoint of this node (R307). -/
def Dev.ckptValid (d : Dev) (bs : Bytes) : Bool :=
  decide (bs.length = 256 * (1 + 3 * d.cellSlots)) && (cut 256 bs).all blockGood
    && bs.take 4 == [0x54, 0x41, 0x4C, 0x57] && leAt bs 4 2 == 1 && leAt bs 6 2 == d.cellSlots
    && leAt bs 12 2 == d.nodeAddr

/-- One slot restored from a checkpoint. -/
def Dev.restoreSlot (d : Dev) (bs : Bytes) (s : Nat) : Dev :=
  let base := 256 * (1 + 3 * s)
  let third := (bs.drop (base + 512)).take 256
  let counter (i : Nat) : Nat :=
    if i < 63 then leAt bs (base + 4 * i) 4 else if i < 126 then leAt bs (base + 256 + 4 * (i - 63)) 4
    else leAt third (4 * (i - 126)) 4
  let d := (List.range 128).foldl (fun d i => d.setWord (0x0A00 + s) i (counter i)) d
  let d := d.wr64 F.hmpDmgLo F.hmpDmgHi (leAt third 8 8) s
  let depth := min 32 (byteAt third 20)
  let d := (((d.wr F.hmpCellTag (leAt third 16 4) s).wr F.hmpLSat (byteAt third 21 % 2) s).wr F.hmpLWarn
    (byteAt third 21 / 2 % 2) s).wr F.hmpLDepth depth s
  let residue := (List.range depth).map fun i => s32 (leAt third (24 + 4 * i) 4)
  let dir := byteAt third 156
  let ext := s32 (leAt third 152 4)
  d.setWear s { residue := residue, extreme := if dir = 0 && ext = 0 then none else some ext, dir := dir }

/-- The ledger's state once restored: counting, or disabled (R310). -/
def Dev.ledgerRuns (d : Dev) : Dev :=
  d.wr F.hmpLedgerState (if d.on F.hmpTwEn then 2 else 3)

/-- The restore completes (R307): from a checkpoint, or from zero. -/
def Dev.restoreLedger (d : Dev) (found : Option (Nat × Bytes)) : Dev :=
  let d := { d with ledger := { d.ledger with restoredAt := d.now, ckptAt := d.now, doneAt := d.now } }
  match found with
  | some (sector, bs) =>
    if d.ckptValid bs then
      let d := (List.range d.cellSlots).foldl (fun d s => d.restoreSlot bs s) d
      let d := { d with ledger := { d.ledger with hours := leAt bs 56 4 } }
      ((d.wr F.hmpCkptSector (sector % 16)).wr F.hmpCkptSeq (leAt bs 8 4)).ledgerRuns
    else ((d.wr F.hmpRestoreNone 1).ledgerRuns).raise 0x34
  | none => ((d.wr F.hmpRestoreNone 1).ledgerRuns).raise 0x34

/-- A checkpoint finishes (R305): written, or failed with a retry in the next sector an hour later. -/
def Dev.checkpointDone (d : Dev) (ok : Bool) : Dev :=
  match d.ledger.copy with
  | none => d
  | some (sector, bs) =>
    let d := { d with ledger := { d.ledger with copy := none } }.wr F.hmpCkptBusy 0
    if ok then
      let d := { d with ledger := { d.ledger with doneAt := d.now, retryAt := none } }
      ((d.wr F.hmpCkptSector sector).wr F.hmpCkptSeq (leAt bs 8 4)).raise 0x32
    else
      let d := { d with ledger := { d.ledger with retryAt := some ((sector + 1) % 16, d.now) } }
      (d.wr F.hmpCkptFail 1).raise 0x33

end Sys2Proof.Machine
end

