-- ==== Sys2Proof/Machine/Schedule.lean ====
section
/-!
DEFINITION. Machine/Schedule.lean: the edge scheduler (chapter 9): held samples, bypass and reinsertion, shares, the
expansion of an epoch, its frames and digests, revisions.
-/
namespace Sys2Proof.Machine

/-! ## Cell states (R253) -/

/-- Whether this unit sends schedules (R18, R238, R384): a switching mode, role 0 or 1. -/
def Dev.sends (d : Dev) : Bool := decide (d.rd F.twinRole ≤ 1) && decide (d.mode ≠ .pilot)

/-- The arm of a slot, if it belongs to an enabled one. -/
def Dev.armOf (d : Dev) (s : Nat) : Option Nat :=
  if d.populated s && d.on F.hmpUInarm s && d.on F.modArmEn (d.rd F.hmpUArm s) then some (d.rd F.hmpUArm s) else none

/-- The mode that shapes the schedules: the mode in force, in PILOT Flame's. -/
def Dev.schedMode (d : Dev) : Mode := d.loopMode

/-- MOD.C_STATE of a slot from its place in bypass; the words of a slot that the unit map does not populate read 0 (R13, R253). -/
def Dev.showCell (d : Dev) (s : Nat) : Dev :=
  let c := d.cell s
  let v := if (d.armOf s).isNone then 0
    else if !d.schedMode.switching then 6
    else if c.stage = 1 then (if d.rd F.modCHeld s ≠ 0 then 5 else 1)
    else c.stage
  let d := if d.populated s then d else ((d.setWord 0x0402 s 0).setWord 0x0404 (2 * s) 0).setWord 0x0404 (2 * s + 1) 0
  d.wr F.modCState v s

/-- MOD.C_STATE of every slot. -/
def Dev.showCells (d : Dev) : Dev := (List.range d.cellSlots).foldl (fun d s => d.showCell s) d

/-- MOD.A_ACTIVE and MOD.A_DAB_M (R254). -/
def Dev.showArms (d : Dev) : Dev :=
  let dabM := ((d.enabledArms.filter fun a => d.on F.modArmDabEn a).flatMap d.activeOf).length
  (List.range 8).foldl (fun d a =>
    (d.wr F.modAActive (if d.on F.modArmEn a then (d.activeOf a).length else 0) a).wr F.modADabM (min 255 dabM) a) d

/-! ## Entry to switching (R232, R292) -/

/-- The carrier indices in force at entry to a switching mode (R292): those published when they cover exactly the arm's
active cells, else fresh. -/
def Dev.entryIndices (d : Dev) (arm : Nat) : Dev :=
  let cells := (d.armSlots arm).filter fun s => (d.cell s).stage == 1 || (d.cell s).stage == 4
  let covered := (d.hamper.covered.filter fun x => x.2 == arm).map (·.1)
  let idx := if covered.length == cells.length && cells.all covered.contains then cells.map fun s => (s, d.rd F.hmpCKidx s)
    else freshIndices (d.rd F.hmpKStride) cells
  idx.foldl (fun d e => d.wr F.modCCarrier e.2 e.1) d

/-- The four targets of a cell in a last state with no last transition (R232), as the entries in force from long before. -/
def baseEdges (legs : Nat) : List Edge :=
  [(tgLegA, legs), (tgLegB, legs), (tgPri, lvOff), (tgSec, lvOff)].map fun x => { at_ := -(2 ^ 64), leg := x.1, level := x.2 }

/-- A cell whose legs are at a level and whose bridges are OFF, with no last transition (R232). -/
def Cell.restart (c : Cell) (legs : Nat) : Cell :=
  { c with legA := { level := legs }, legB := { level := legs }, pri := {}, sec := {}, edges := baseEdges legs }

/-- Every leg and bridge of every cell in a last state, with no last transition (R232). -/
def Dev.resetTargets (d : Dev) (legs : Nat) : Dev :=
  d.populatedSlots.foldl (fun d s => d.setCell s ((d.cell s).restart legs)) d

/-- Entry to a switching mode from a non-switching mode: targets OFF, at a takeover of the Wick the zero vector (R232), indices,
cell states, the first epoch. -/
def Dev.enterSwitching (d : Dev) (takeover : Bool) : Dev :=
  let d := d.resetTargets (if takeover then lvLow else lvOff)
  let d := d.enabledArms.foldl (fun d a => d.entryIndices a) d
  let d := { d with sched := { d.sched with firstEpoch := true, offNow := false } }
  let d := d.populatedSlots.foldl (fun d s =>
    (d.setCell s { d.cell s with markers := [], dischargeDone := false }).wr F.modCHeld 0 s) d
  d.showCells.showArms

/-! ## Bypass and reinsertion (R246 to R249) -/

/-- A slot becomes bypass-pending (R246): once, for the classes of a mask. -/
def Dev.bypassPending (d : Dev) (s causes : Nat) : Dev :=
  let c := d.cell s
  if (d.armOf s).isNone || decide (d.rd F.twinRole = 6) then d
  else if c.stage = 2 || c.stage = 3 then d.setCell s { c with causes := c.causes ||| causes, reinsert := false }
  else (d.setCell s { c with
      stage := 2, causes := causes, effective := none, epochs := 0, warned := false, reinsert := false, ramp := 0 }).showCell
    s

/-- The BYPASS frame of a slot for an epoch (R174, R246, R249), and its payload. -/
def bypassPayload (applyAt epoch action : Nat) : Bytes :=
  le 8 applyAt ++ le 4 epoch ++ [BitVec.ofNat 8 action, 0, 0, 0]

/-- The lane of a cell slot (R13). -/
def laneOfSlot (s : Nat) : Nat := s / 2

/-- Whether a cell lane takes schedules, BYPASS and WICK frames (R519). -/
def Dev.laneTakes (d : Dev) (l : Nat) : Bool := d.laneState l == 7 || d.laneState l == 9

/-- Queue a frame of the control rank on a cell lane under R519. -/
def Dev.sendCell (d : Dev) (l ftype addr notBefore : Nat) (dl : Option Nat) (payload : Bytes) (revision : Nat := 0) : Dev :=
  if d.laneTakes l then
    d.queueFrame l
      { ftype := ftype, addr := addr, dl := dl, rank := 3, notBefore := notBefore, revision := revision, payload := payload }
  else d

/-- The carrier indices of an arm's active cells made contiguous, their order kept (R230): every cell above one that has left moves
down, however many leave at once. -/
def Dev.compact (d : Dev) (arm : Nat) : Dev :=
  (sortBy (fun s : Nat => ((d.rd F.modCCarrier s : Nat) : Int)) (d.activeOf arm)).zipIdx.foldl
    (fun d x => d.wr F.modCCarrier x.2 x.1) d

/-- A slot that leaves its arm with this expansion (R246), or whose BYPASS is repeated (R247). -/
def Dev.stageLeave (d : Dev) (e s : Nat) : Dev :=
  let c := d.cell s
  if (d.armOf s).isNone || c.stage ≠ 2 then d
  else if c.epochs = 0 then d.setCell s { c with effective := some e, epochs := 1 }
  else d.setCell s { c with epochs := c.epochs + 1 }

/-- A slot that joins its arm with this expansion from the zero vector, behind those in it, or whose ramp goes on (R230, R232,
R249). -/
def Dev.stageJoin (d : Dev) (e s : Nat) : Dev :=
  let c := d.cell s
  match d.armOf s with
  | none => d
  | some arm =>
    if c.stage = 3 && c.reinsert then
      let n := (d.activeOf arm).length
      let c := { c with stage := 4, ramp := 1, reinsert := false, effective := some e }
      ((d.setCell s (c.restart lvLow)).wr F.modCCarrier n s).showCell s
    else if c.stage = 4 then d.setCell s { c with ramp := min (c.ramp + 1) (d.rd F.modReinsertRamp) }
    else d

/-- The moves of an expansion (R246, R247, R249): those that leave, the indices of every arm made contiguous, those that join. -/
def Dev.stageMoves (d : Dev) (e : Nat) : Dev :=
  let d := d.populatedSlots.foldl (fun d s => d.stageLeave e s) d
  let d := d.enabledArms.foldl (fun d a => d.compact a) d
  d.populatedSlots.foldl (fun d s => d.stageJoin e s) d

/-- The events of a bypass or reinsertion that takes effect at a boundary (R247, R249). -/
def Dev.stageEffects (d : Dev) : Dev :=
  d.populatedSlots.foldl (fun d s =>
    let c := d.cell s
    match c.effective with
    | some e =>
      if e ≤ d.now then
        let d := d.setCell s { c with effective := none }
        if c.stage = 4 then (d.bump F.modReinserts).raise 0x22 else (d.bump F.modBypasses).raise 0x21
      else d
    | none => d) d

/-! ## Held samples (R245) -/

/-- The hold test of a slot at the start of an expansion: an unanswered MOD.SMP0_OFS marker that has passed. -/
def Dev.holdTest (d : Dev) (s : Nat) : Dev :=
  let c := d.cell s
  let due (m : Nat × Nat × Nat) : Bool := m.2.2 == 1 && decide (m.1 ≤ d.now)
  let missed := c.markers.any due
  let kept := (c.markers.map fun m => if due m then (m.1, m.2.1, 2) else m).filter fun m =>
    decide (d.now ≤ m.1 + 4 * d.cycle)
  if missed then
    let d := d.setCell s { c with markers := kept, uFresh := false }
    let d := (((d.bump F.modCHeld s).bump F.modHolds).raise 0x25)
    d.showCell s
  else if c.uFresh then ((d.setCell s { c with uFresh := false, markers := kept }).wr F.modCHeld 0 s).showCell s
  else d.setCell s { c with markers := kept }

/-! ## Shares (R246, R249, R290) -/

/-- The share of every active cell of an arm for this epoch: Hamper's, rescaled over those present, the reinserting
cells ramped. Where Hamper has given none, every cell counts the same (log entry 22). -/
def Dev.epochShares (d : Dev) (arm : Nat) : List (Nat × Int) :=
  let cells := d.activeOf arm
  let n : Nat := cells.length
  let ramping (s : Nat) : Bool := (d.cell s).stage == 4
  let rampShare (s : Nat) : Int := Int.tdiv (oneQ24 * ((d.cell s).ramp : Nat)) ((d.rd F.modReinsertRamp * n : Nat) : Int)
  let left := oneQ24 - ((cells.filter ramping).map rampShare).sum
  let others := cells.filter fun s => !ramping s
  let sum := (others.map fun s => (d.cell s).hshare).sum
  let weight (s : Nat) : Int := if sum = 0 then 1 else (d.cell s).hshare
  let total := if sum = 0 then (others.length : Int) else sum
  let raw := cells.map fun s =>
    (s, d.rd F.modCCarrier s, if ramping s then rampShare s else Int.tdiv (left * weight s) total)
  if others.isEmpty then raw.map fun x => (x.1, x.2.2) else settleShares raw fun s => !ramping s

/-! ## One cell (R227 to R236, R244) -/

/-- What drives the cells in an epoch (R244). -/
inductive Drive where
  | modulate | markersOnly | off | discharge
deriving DecidableEq, Repr

/-- The drive of the mode in force for the epoch being expanded (R28, R244). -/
def Dev.drive (d : Dev) : Drive :=
  match d.schedMode with
  | .runForm | .runFollow | .rideThrough | .derated => .modulate
  | .precharge => if d.sched.firstEpoch then .off else .markersOnly
  | .service | .calibrate =>
    if d.steps.modulate then .modulate else if d.sched.firstEpoch || d.sched.offNow then .off else .markersOnly
  | .discharge => .discharge
  | _ => .markersOnly

/-- A cell's schedule in the making: its entries, the cell after, pulses widened and dropped. -/
structure CellPlan where
  edges : List Edge := []
  cell : Cell := {}
  widened : Nat := 0
  dropped : Nat := 0
deriving DecidableEq, Repr

/-- Add a target's outcome to a plan. -/
def CellPlan.add (p : CellPlan) (r : List Edge × Target × Nat × Nat) (put : Cell → Target → Cell) : CellPlan :=
  { edges := p.edges ++ r.1, cell := put p.cell r.2.1, widened := p.widened + r.2.2.1, dropped := p.dropped + r.2.2.2 }

/-- A target held at a level (R28, LEVEL), with the dead time of R233. -/
def holdLevel (leg : Nat) (tg : Target) (level dead : Nat) (e : Int) : List Edge × Target × Nat × Nat :=
  if tg.level = level then ([], { tg with carried := none }, 0, 0)
  else (transEntries leg tg.level (e, level) dead e, { level := level, at_ := some e, carried := none }, 0, 0)

/-- The level a LEVEL step holds a target at. -/
def Dev.levelOf (d : Dev) (s target : Nat) : Option Nat :=
  (d.steps.levels.find? fun x => x.1 == s && x.2.1 == target).map fun x => x.2.2

/-- The leg levels of a level of target 0x40 (R237). -/
def bridgeLegs (level : Nat) : Nat × Nat :=
  if level = 1 then (lvLow, lvLow) else if level = 2 then (lvHigh, lvHigh) else if level = 3 then (lvHigh, lvLow)
  else if level = 4 then (lvLow, lvHigh) else (lvOff, lvOff)

def putA (c : Cell) (t : Target) : Cell := { c with legA := t }
def putB (c : Cell) (t : Target) : Cell := { c with legB := t }
def putPri (c : Cell) (t : Target) : Cell := { c with pri := t }
def putSec (c : Cell) (t : Target) : Cell := { c with sec := t }

/-- A target sent OFF, as a plan's outcome. -/
def offPlan (leg : Nat) (tg : Target) (e : Int) : List Edge × Target × Nat × Nat :=
  let r := expandOff leg tg e
  (r.1, r.2, 0, 0)

/-- Bridge 0x40 and both DAB bridges OFF at offset 0 (R28, R244), whatever they were, but for what a LEVEL step holds: a held
target keeps its level, and beside a held leg the other one goes OFF by itself (log entry 142). -/
def Dev.offAll (d : Dev) (p : CellPlan) (s : Nat) (e : Int) : CellPlan :=
  let off : Target := { level := lvOff, at_ := some e }
  let free (t : Nat) : Bool := (d.levelOf s t).isNone
  let entry (leg : Nat) : Edge := { at_ := e, leg := leg, level := lvOff, nom := some e }
  let legsFree := free tgLegA && free tgLegB
  let freeA := free tgBridge && free tgLegA
  let freeB := free tgBridge && free tgLegB
  let es := (if free tgBridge && legsFree then [entry tgBridge] else (if freeA then [entry tgLegA] else []) ++
      if freeB then [entry tgLegB] else [])
    ++ (if free tgPri then [entry tgPri] else []) ++ if free tgSec then [entry tgSec] else []
  let c := p.cell
  { p with
    edges := p.edges ++ es
    cell := { c with
      legA := if freeA then off else c.legA, legB := if freeB then off else c.legB
      pri := if free tgPri then off else c.pri, sec := if free tgSec then off else c.sec } }

/-- The H-bridge of one cell over a window from e to e + c (R229 to R234). -/
def Dev.planLegs (d : Dev) (p : CellPlan) (s arm n : Nat) (e : Int) (c : Nat) (m : Int) : CellPlan :=
  let tc := d.rd F.modCarrierPeriod
  let base : Int := ((d.origin + d.rd F.modArmOfs arm + carrierPhase (d.rd F.modCCarrier s) n tc : Nat) : Int)
  let dead := d.rd F.modDead
  let minp := d.rd F.modMinPulse
  match d.levelOf s tgBridge with
  | some l =>
    let (a, b) := bridgeLegs l
    if p.cell.legA.level = a && p.cell.legB.level = b then p
    else
      let isOff := p.cell.legA.level = lvOff && p.cell.legB.level = lvOff
      let es := transEntries tgBridge (if isOff then lvOff else lvLow) (e, l) dead e
      { p with edges := p.edges ++ es
               cell := { p.cell with legA := { level := a, at_ := some e }, legB := { level := b, at_ := some e } } }
  | none =>
    let one (p : CellPlan) (leg : Nat) (tg : Target) (mm : Int) (put : Cell → Target → Cell) : CellPlan :=
      match d.levelOf s leg with
      | some l => p.add (holdLevel leg tg l dead e) put
      | none => p.add (expandLeg leg tg base e c mm tc dead minp) put
    let p := one p tgLegA p.cell.legA m putA
    one p tgLegB p.cell.legB (-m) putB

/-- The DAB bridges of one cell over a window (R235). -/
def Dev.planDab (d : Dev) (p : CellPlan) (s m : Nat) (e : Int) (c : Nat) (phase : Int) : CellPlan :=
  let td := d.rd F.modDabPeriod
  let n := if td = 0 then 0 else c / td
  let dead := d.rd F.modDabDead
  let ofs : Int := dabOffset (d.rd F.modCDab s) m td (d.rd F.modDabSpread)
  let shift := roundDiv (phase * (td : Int)) (2 ^ 25)
  let one (p : CellPlan) (leg : Nat) (tg : Target) (o : Int) (put : Cell → Target → Cell) : CellPlan :=
    match d.levelOf s leg with
    | some l => p.add (holdLevel leg tg l dead e) put
    | none =>
      let r := expandBridge leg tg e c n td o dead
      p.add (r.1, r.2, 0, 0) put
  let p := one p tgPri p.cell.pri ofs putPri
  one p tgSec p.cell.sec (ofs + shift) putSec

/-- Bridges that LEVEL steps hold while no DAB edges are scheduled (R28). -/
def Dev.planHeldBridges (d : Dev) (p : CellPlan) (s : Nat) (e : Int) : CellPlan :=
  let one (p : CellPlan) (leg : Nat) (tg : Target) (put : Cell → Target → Cell) : CellPlan :=
    match d.levelOf s leg with
    | some l => p.add (holdLevel leg tg l (d.rd F.modDabDead) e) put
    | none => p
  let p := one p tgPri p.cell.pri putPri
  one p tgSec p.cell.sec putSec

/-- Targets that LEVEL steps hold while nothing else drives them (R28). -/
def Dev.planLevels (d : Dev) (p : CellPlan) (s : Nat) (e : Int) : CellPlan :=
  let one (p : CellPlan) (leg : Nat) (tg : Target) (put : Cell → Target → Cell) : CellPlan :=
    match d.levelOf s leg with
    | some l => p.add (holdLevel leg tg l (d.rd F.modDead) e) put
    | none => p
  let p := match d.levelOf s tgBridge with
    | some _ => d.planLegs p s 0 0 e 0 0
    | none =>
      let p := one p tgLegA p.cell.legA putA
      one p tgLegB p.cell.legB putB
  d.planHeldBridges p s e

/-- The values an arm's expansion uses: v*, d, its active cells, M of the node. -/
structure ArmRef where
  v : Int := 0
  dab : Int := 0
  dabEn : Bool := false
  n : Nat := 0
  m : Nat := 0
deriving DecidableEq, Repr

/-- The index of a cell before its clamp (R227): its u_i and its share. -/
def Dev.cellIndex (d : Dev) (s arm : Nat) (v : Int) : Int :=
  indexOf v (d.cell s).share (d.cell s).u (d.rd F.modArmBase arm) (d.rd F.modCellVbase arm)

/-- The plan of one active cell for a window (R244). -/
def Dev.planCell (d : Dev) (dr : Drive) (s arm : Nat) (r : ArmRef) (e : Int) (c : Nat) : CellPlan :=
  let p : CellPlan := { cell := d.cell s }
  let mMax : Int := d.rd F.modMMax
  let dMax : Int := d.rd F.modDMax
  match dr with
  | .modulate =>
    let m := clampI (-mMax) mMax (d.cellIndex s arm r.v)
    let p := d.planLegs p s arm r.n e c m
    if r.dabEn then d.planDab p s r.m e c (clampI (-dMax) dMax (r.dab + (d.cell s).trim))
    else d.planHeldBridges p s e
  | .markersOnly => d.planLevels p s e
  | .off => d.planLevels (d.offAll p s e) s e
  | .discharge =>
    let p := (p.add (offPlan tgLegA p.cell.legA e) putA).add (offPlan tgLegB p.cell.legB e) putB
    let done := p.cell.dischargeDone || decide (p.cell.u < (d.rd F.stgDischargeDone : Nat))
    let p := { p with cell := { p.cell with dischargeDone := done } }
    if r.dabEn && !done then d.planDab p s r.m e c (s32 (d.rd F.modDischD))
    else (p.add (offPlan tgPri p.cell.pri e) putPri).add (offPlan tgSec p.cell.sec e) putSec

/-- The entries of a window that ends kept for later: those from an instant on, and before it the last one of each target. -/
def keepEdges (edges : List Edge) (from_ : Int) : List Edge :=
  let before := sortBy (fun x : Edge => x.at_) (edges.filter fun x => decide (x.at_ < from_))
  let last := [tgLegA, tgLegB, tgBridge, tgPri, tgSec].filterMap fun leg => (before.filter fun x => x.leg == leg).getLast?
  last ++ edges.filter fun x => decide (from_ ≤ x.at_)

/-- The markers of a slot added to a plan (R236), kept clear of every entry of the cell, those of the window before among
them, and remembered for matching their samples (R353). -/
def Dev.planMarkers (d : Dev) (p : CellPlan) (e : Int) : CellPlan :=
  let before := p.cell.edges ++ p.cell.markers.map fun x => ({ at_ := x.1, leg := tgMarker } : Edge)
  let ms := d.markers e (before ++ p.edges)
  let old := keepEdges p.cell.edges (e - d.cycle)
  { p with
    edges := p.edges ++ ms.map (·.1)
    cell := { p.cell with
      markers := p.cell.markers ++ ms.map fun x => (x.1.at_.toNat, x.1.level, flag x.2)
      edges := old ++ p.edges.map fun x => { x with epoch := e } } }

/-! ## The expansion of an epoch (R12 step 7, R226 to R247) -/

/-- The reference of an arm at the schedule point t (R226, R266), and the block with a late fast-path output counted (R259). -/
def Dev.armRef (d : Dev) (arm dabM t : Nat) : ArmRef × Dev :=
  let dabEn := d.on F.modArmDabEn arm
  let (v, d) := d.slotAtSchedule (d.rd F.modArmRefSlot arm) t
  let (dab, d) := if dabEn then d.slotAtSchedule (d.rd F.modArmDabSlot arm) t else (0, d)
  ({ v := v, dab := dab, dabEn := dabEn, n := (d.activeOf arm).length, m := dabM }, d)

/-- The result of an expansion: the device and every slot's entries. -/
structure Expansion where
  d : Dev
  entries : List (Nat × List Edge) := []

/-- The m and d of a slot for the epoch being expanded. -/
def Dev.nextCell (d : Dev) (s m ph : Nat) : Dev :=
  { d with sched := { d.sched with nextCells := tset (fun _ => (0, 0)) d.sched.nextCells s (m, ph) } }

/-- An epoch begins: MOD.C_M, MOD.C_D, MOD.A_SAT and MOD.A_REF show what its expansion used (R253, R254). -/
def Dev.beginEpoch (d : Dev) : Dev :=
  if d.sched.expanded = d.clock.boundary then
    let d := { d with sched := { d.sched with clampedNow := d.sched.clampedNext, clampedNext := false } }
    let cells := List.range d.cellSlots
    let d := cells.foldl (fun d s =>
      let x := tget (fun _ => (0, 0)) d.sched.nextCells s
      (d.wr F.modCM x.1 s).wr F.modCD x.2 s) d
    (List.range 8).foldl (fun d a =>
      let x := tget (fun _ => (0, 0)) d.sched.nextArms a
      (d.wr F.modASat x.1 a).wr F.modARef x.2 a) d
  else d

/-- Expand one arm: shares (its own, or those of a state copy as they stand), indices, every active cell. -/
def Expansion.arm (x : Expansion) (dr : Drive) (e t dabM : Nat) (dabCells : List Nat) (own : Bool) (arm : Nat) :
    Expansion :=
  let (r, d) := x.d.armRef arm dabM t
  let shares := if own then d.epochShares arm else []
  let d := shares.foldl (fun d y => d.setCell y.1 { d.cell y.1 with share := y.2 }) d
  let mMax : Int := d.rd F.modMMax
  let dMax : Int := d.rd F.modDMax
  let cells := d.activeOf arm
  let sat := dr == .modulate && cells.any fun s => decide (mMax < (d.cellIndex s arm r.v).natAbs)
  let d := { d with sched := { d.sched with
    nextArms := tset (fun _ => (0, 0)) d.sched.nextArms arm (flag sat, u32 r.v) } }
  let y : Expansion := cells.foldl (fun y s =>
    let d := if own then y.d.wr F.modCDab (dabIndex dabCells s) s else y.d
    let p := d.planMarkers (d.planCell dr s arm r e d.cycle) e
    let m := if dr = .modulate then clampI (-mMax) mMax (d.cellIndex s arm r.v) else 0
    let ph := if dr = .modulate && r.dabEn then clampI (-dMax) dMax (r.dab + (d.cell s).trim)
      else if dr = .discharge && r.dabEn then s32 (d.rd F.modDischD) else 0
    let d := (d.setCell s p.cell).nextCell s (u32 m) (u32 ph)
    let d := (d.bumpBy F.modPulseWidened p.widened).bumpBy F.modPulseDropped p.dropped
    { d := d, entries := y.entries ++ [(s, p.edges)] }) { d := d, entries := x.entries }
  y

/-- The markers of a bypassed or bypass-pending slot (R246). -/
def Expansion.bypassed (x : Expansion) (e : Nat) : Expansion :=
  (x.d.populatedSlots.filter fun s => (x.d.armOf s).isSome && ((x.d.cell s).stage == 2 || (x.d.cell s).stage == 3)).foldl
    (fun y s =>
      let p := y.d.planMarkers { cell := y.d.cell s } e
      { d := y.d.setCell s p.cell, entries := y.entries ++ [(s, p.edges)] }) x

/-- The BYPASS frames of an epoch: (lane, slot, payload) (R246, R247, R249). -/
def Dev.bypassFrames (d : Dev) (e : Nat) : List (Nat × Nat × Bytes) :=
  d.populatedSlots.filterMap fun s =>
    let c := d.cell s
    if (d.armOf s).isNone then none
    else if c.stage = 2 then some (laneOfSlot s, s, bypassPayload e (d.rd F.twinEpoch) 1)
    else if c.stage = 4 && c.ramp = 1 then some (laneOfSlot s, s, bypassPayload e (d.rd F.twinEpoch) 2)
    else none

/-- The digest of a lane (R386): the CRC-32C of the payloads in order of sending, their number, their entries. -/
def digestOf (schedules bypasses : List Bytes) : Nat :=
  let all := bypasses ++ schedules
  if all.isEmpty then 0
  else
    let entries := (schedules.map fun p => byteAt p 12).sum
    crc32c all.flatten + 2 ^ 32 * (all.length % 65536) + 2 ^ 48 * (entries % 65536)

/-- The lanes that carry a slot of an enabled arm. -/
def Dev.scheduleLanes (d : Dev) : List Nat :=
  (List.range d.cellLanes).filter fun l => (d.armOf (2 * l)).isSome || (d.armOf (2 * l + 1)).isSome

/-- The entries of a lane's slots. -/
def laneEntries (entries : List (Nat × List Edge)) (l : Nat) : List (Nat × Edge) :=
  (entries.filter fun x => laneOfSlot x.1 == l).flatMap fun x => x.2.map fun e => (x.1, e)

/-- Queue one lane's frames (R238, R239, R246) and form its digest (R386). The bypass frames of a lane come first. -/
def Dev.sendLane (d : Dev) (entries : List (Nat × List Edge)) (frames : List (Nat × Nat × Bytes)) (e index l : Nat) :
    Dev :=
  let ps := lanePayloads e (d.rd F.twinEpoch) index (laneEntries entries l)
  let bs := frames.filter fun f => f.1 == l
  let lead := d.leadTicks l ps
  let nb := e - lead
  let d := if d.sends then
      let d := bs.foldl (fun d f => d.sendCell l 0x0A f.2.1 nb (some (e - 2500)) f.2.2) d
      ps.foldl (fun d p => d.sendCell l 0x01 127 nb (some (e - 2500)) p) d
    else d
  { d with sched := { d.sched with
      digests := d.sched.digests ++ [(l, digestOf ps (bs.map fun f => f.2.2))]
      counts := d.sched.counts ++ [(l, ps.length)] } }

/-- A clamp of an epoch is counted once (R227): the epoch expanded, or the one in progress. -/
def Dev.countClamp (d : Dev) (next : Bool) : Dev :=
  if (if next then d.sched.clampedNext else d.sched.clampedNow) then d
  else
    let d := { d with sched := { d.sched with
      clampedNext := next || d.sched.clampedNext, clampedNow := !next || d.sched.clampedNow } }
    (d.bump F.modClamps).raise 0x20

/-- The schedule point of the cycle in hand (R266). -/
def Dev.schedInstant (d : Dev) : Nat := d.clock.boundary - d.cycle + d.schedTicks

/-- Expand the epoch that starts at the next boundary (R12 step 7), with the references as of an instant: holds, moves in and out of
the arms, every arm, the frames of every lane. -/
def Dev.expandEpoch (d : Dev) (e t : Nat) : Dev :=
  let d := { d with sched := { d.sched with
    expanded := e, digests := [], countsNow := d.sched.counts, counts := [], nextCells := [], nextArms := [], clampedNext := false } }
  let d := d.populatedSlots.foldl (fun d s => if (d.armOf s).isSome then d.holdTest s else d) d
  let d := d.stageMoves e
  let dr := d.drive
  let dabCells := (d.enabledArms.filter fun a => d.on F.modArmDabEn a).flatMap d.activeOf
  let x : Expansion := d.enabledArms.foldl (fun x a => x.arm dr e t dabCells.length dabCells true a) { d := d }
  let x := x.bypassed e
  let sat := dr == .modulate && x.d.sched.nextArms.any fun y => y.2.1 == 1
  let d := if sat then x.d.countClamp true else x.d
  let frames := d.bypassFrames e
  let index := d.boundaryIndex e % 65536
  let d := d.scheduleLanes.foldl (fun d l => d.sendLane x.entries frames e index l) d
  { d with sched := { d.sched with firstEpoch := false, offNow := false } }.showArms

/-- The SAMPLE used as u_i of each cell, for the state copy (R387). -/
def Dev.noteUsed (d : Dev) : Dev :=
  if d.on F.twinPaired then
    let used (s : Nat) : Nat := if d.rd F.modCHeld s = 0 then (d.cell s).uAt else 0
    let xs := d.populatedSlots.foldl (fun t s =>
      tset (fun _ => (0, 0)) t s ((tget (fun _ => (0, 0)) t s).1, used s)) d.twin.cellInputs
    { d with twin := { d.twin with cellInputs := xs } }
  else d

/-! ## Revisions (R240, R242) -/

/-- The state of a target in force at an instant, from the entries sent (R240 step 3); an entry of bridge 0x40 sets both legs. -/
def stateAt (edges : List Edge) (leg : Nat) (tg : Target) (t : Int) : Target :=
  let own (x : Edge) : Bool := x.leg == leg || (x.leg == tgBridge && (leg == tgLegA || leg == tgLegB))
  match (sortBy (fun x : Edge => x.at_) (edges.filter fun x => own x && decide (x.at_ < t))).getLast? with
  | some x =>
    let level := if x.leg == tgBridge then (if leg == tgLegA then (bridgeLegs x.level).1 else (bridgeLegs x.level).2) else x.level
    { level := level, at_ := x.nom, carried := none }
  | none => { tg with carried := none }

/-- The entries of a revision from T_rev on (R240 step 4): the first carries REVISE and lies at T_rev. -/
def reviseEntries (edges : List Edge) (tRev : Int) : List Edge :=
  let after := sortBy (fun x : Edge => x.at_) (edges.filter fun x => decide (tRev ≤ x.at_))
  match after with
  | x :: t => if x.at_ = tRev then { x with revise := true } :: t
    else { at_ := tRev, leg := tgNop, revise := true } :: x :: t
  | [] => [{ at_ := tRev, leg := tgNop, revise := true }]

/-- A frame that carries a revision is VOID (R242): the revision counts as dropped, once. -/
def Dev.revisionVoid (d : Dev) (revision : Nat) : Dev :=
  if revision = 0 || d.sched.revisionLost = revision then d
  else ({ d with sched := { d.sched with revisionLost := revision } }.bump F.modRevDropped).raise 0x24

/-- The last states that the expansion after the next starts from, once a window has been revised (R232): those of the revised
window, unless the schedule of the next epoch stands and was built before. -/
def Cell.revised (c plan : Cell) (last : Bool) : Cell := if last then { c with legA := plan.legA, legB := plan.legB } else c

/-- Revise one cell for the window of an epoch (R240): `pos` is its place in the order of revision, `fixed` the T_rev of the
next epoch, `last` whether the window is the last one expanded. The departure of the frame is predicted from the stages of R242 and
the frame's length (log entry 23); its deadline is T_rev − 2,500, which for the next epoch is that of R173 (log entry 143). -/
def Dev.reviseCell (d : Dev) (arm : Nat) (r : ArmRef) (epoch pos s : Nat) (fixed : Option Nat) (last : Bool) : Dev :=
  let c := d.cell s
  let l := laneOfSlot s
  let live := c.edges.filter fun x => decide (x.epoch = (epoch : Int))
  let size := 16 + 8 * (live.length + 1)
  let depart := d.now + 16 * (1 + 6 * (pos + 1) + 3 + 4) + frameTicks (d.rd F.laneRate l) true size
  let tRev : Nat := match fixed with
    | some t => t
    | none => depart + d.rd F.timeLaneDelay l + 2500 + 10 * d.rd F.modRevMargin
  let e : Int := tRev
  let c' : Cell := { c with
    legA := stateAt c.edges tgLegA c.legA e, legB := stateAt c.edges tgLegB c.legB e,
    pri := stateAt c.edges tgPri c.pri e, sec := stateAt c.edges tgSec c.sec e }
  if epoch + d.cycle ≤ tRev then d
  else
    let mMax : Int := d.rd F.modMMax
    let m0 := d.cellIndex s arm r.v
    let m := clampI (-mMax) mMax m0
    let p := d.planLegs { cell := c' } s arm r.n e (epoch + d.cycle - tRev) m
    let keep := live.filter fun x => [tgPri, tgSec].contains x.leg && decide (e ≤ x.at_)
    let marks := (c.markers.filter fun x => decide (tRev ≤ x.1) && decide (x.1 < epoch + d.cycle)).map fun x =>
      ({ at_ := x.1, leg := tgMarker, level := x.2.1 } : Edge)
    let es := reviseEntries (p.edges ++ keep ++ marks) e
    let frames := piecesOf 30 es.length es
    let next := decide (d.sched.expanded = epoch)
    let counts := if next then d.sched.counts else d.sched.countsNow
    let sent := tget (fun _ => 0) counts l
    if 4 < sent + frames.length then (d.bump F.modRevDropped).raise 0x24
    else
      let index := d.boundaryIndex epoch % 65536
      let ps := frames.zipIdx.map fun (f, i) =>
        schedulePayload epoch (d.rd F.twinEpoch) index (decide (i + 1 < frames.length)) (f.map fun x => (s, x))
      let rev := d.sched.revision + 1
      let d := { d with sched := { d.sched with revision := rev } }
      let d := ps.foldl (fun d q => d.sendCell l 0x01 127 0 (some (tRev - 2500)) q rev) d
      let counts' := tset (fun _ => 0) counts l (sent + frames.length)
      let d := if next then { d with sched := { d.sched with counts := counts' } }
        else { d with sched := { d.sched with countsNow := counts' } }
      let old := c.edges.filter fun x => !(decide (x.epoch = (epoch : Int)) && decide (e ≤ x.at_))
      let es' := (p.edges ++ keep).map fun x => { x with epoch := (epoch : Int) }
      let d := d.setCell s { c.revised p.cell last with edges := old ++ es' }
      let d := (d.bumpBy F.modPulseWidened p.widened).bumpBy F.modPulseDropped p.dropped
      let clamped := decide (m ≠ m0)
      let d := if clamped then d.countClamp next else d
      if next then
        let d := d.nextCell s (u32 m) (tget (fun _ => (0, 0)) d.sched.nextCells s).2
        let a := tget (fun _ => (0, 0)) d.sched.nextArms arm
        { d with sched := { d.sched with
          nextArms := tset (fun _ => (0, 0)) d.sched.nextArms arm (if clamped then 1 else a.1, u32 r.v) } }
      else
        let d := d.wr F.modCM (u32 m) s
        if clamped then d.wr F.modASat 1 arm else d

/-- Whether the schedule of an epoch still waits on a lane. -/
def Dev.scheduleWaits (d : Dev) (l epoch : Nat) : Bool :=
  (d.lane l).wait.any fun x => x.ftype == 1 && x.revision == 0 && leAt x.payload 0 8 == epoch

/-- The cell whose SAMPLE triggers a fast-path slot (R240, R270): the one that carries the value, or the one that supplies the arm
current. -/
def Dev.triggerCell (d : Dev) (slot : Nat) : Option Nat :=
  let sel := d.rd F.loopFSel slot
  if selClass sel = 3 then some (selIndex sel / 64)
  else if selClass sel = 5 then
    (sortBy (fun s : Nat => ((d.rd F.modCCarrier s : Nat) : Int)) (d.activeOf (selIndex sel / 8))).head?
  else none

/-- A revision of an arm (R240): when its fast-path reference moved by more than MOD.REVISE_THRESH from the v* last
used, the cell that triggered it first, then the others in carrier order; the window in hand, and the next one where its schedule
has left the lane. -/
def Dev.reviseArm (d : Dev) (arm : Nat) (first : Option Nat) : Dev :=
  let v := s32 (d.rd F.loopOut (d.rd F.modArmRefSlot arm))
  let last := s32 (d.rd F.modARef arm)
  if d.drive ≠ .modulate || !d.sends || (v - last).natAbs ≤ d.rd F.modReviseThresh then d
  else
    let r : ArmRef := { v := v, n := (d.activeOf arm).length }
    let d := (d.bump F.modRevisions).wr F.modARef (u32 v) arm
    let d := { d with twin := { d.twin with revisions := d.twin.revisions + 1 } }
    let lead := first.toList.filter (d.activeOf arm).contains
    let order := lead ++ sortBy (fun s : Nat => ((d.rd F.modCCarrier s : Nat) : Int))
      ((d.activeOf arm).filter fun s => !lead.contains s)
    let now := d.clock.boundary - d.cycle
    let nextOut := decide (d.sched.expanded = d.clock.boundary)
    order.zipIdx.foldl (fun d x =>
      let d := d.reviseCell arm r now x.2 x.1 none (!nextOut)
      if nextOut && !d.scheduleWaits (laneOfSlot x.1) d.clock.boundary then
        d.reviseCell arm r d.clock.boundary x.2 x.1 (some d.clock.boundary) true
      else d) d

/-- A slot evaluated on the fast path has published: the arms it is the reference of are revised (R240). -/
def Dev.reviseFor (d : Dev) (slot : Nat) : Dev :=
  if d.on F.modReviseEn then
    let first := d.triggerCell slot
    (d.enabledArms.filter fun a => d.rd F.modArmRefSlot a == slot).foldl (fun d a => d.reviseArm a first) d
  else d

end Sys2Proof.Machine
end

