-- ==== Sys2Proof/Machine/Engine.lean ====
section
/-!
DEFINITION. Machine/Engine.lean: the control engine in time (chapter 10): the regular and fast-path evaluations of the cycle in hand
latch, end and publish at their own instants, group by group and engine by engine, as fabric time reaches them; and fabric time moved
to the instant of a command.
-/
namespace Sys2Proof.Machine

/-- One step of the control engine, at its instant. -/
def Dev.engineStep (d : Dev) (x : EngStep) : Dev :=
  match x with
  | .output o => d.publishOutput o
  | .publish j => d.publishJob j
  | .resolve cycle grp => d.resolveGroup cycle grp
  | .fastDone f => (d.publishFast f).reviseFor f.slot
  | .schedule => d.schedulePoint
  | .fastStart f => d.startFast f
  | .start j => d.startJob j

/-- At most so many steps of the control engine that are due by an instant, in the order of their instants (R265 to R273). -/
def Dev.engineSteps : Nat → Nat → Dev → Dev
  | 0, _, d => d
  | fuel + 1, t, d =>
    match earliest d.engines.steps with
    | some (at_, x) => if at_ ≤ t then Dev.engineSteps fuel t ((d.reach at_).engineStep x) else d
    | none => d

/-- Every step of the control engine that is due by an instant: an evaluation has at most a latch and a publication or a part in a
resolution. -/
def Dev.engineTo (d : Dev) (t : Nat) : Dev :=
  Dev.engineSteps (3 * d.engines.jobs.length + 2 * d.engines.fast.length + d.engines.outs.length + 1) t d

/-- Fabric time moved to the instant of a command while it runs (R196, R200): what the control engine does by then comes first, so
that an evaluation whose latch falls into the CTRL cycle of a live write or earlier has latched (R37). -/
def Dev.advance (d : Dev) (t : Nat) : Dev :=
  if d.timeRuns then (d.engineTo (max d.clock.now t)).reach t else d

/-- One EDGE cycle in which no command comes (log entry 2): fabric time moves on, and the control engine with it. -/
def Dev.idleTick (d : Dev) : Dev :=
  let e := d.edgeTick
  let x := d.advance e.clock.now
  { x with clock := { x.clock with frac := e.clock.frac } }

end Sys2Proof.Machine
end

