-- ==== Sys2Proof/Machine/Interp.lean ====
section
/-!
DEFINITION. Machine/Interp.lean: the command interpreter (chapter 4): the checking order of R100, replies (R97, R98),
credits (R107), sessions (R103 to R106), kept replies (R112) and parked packets (R111), once for every opcode.
-/
namespace Sys2Proof.Machine

/-! ## Status codes (R102) -/

def stOk : Nat := 0x00
def stAccepted : Nat := 0x02
def stBadCrc : Nat := 0x10
def stBadLength : Nat := 0x11
def stUnknownOpcode : Nat := 0x12
def stBadParam : Nat := 0x13
def stReservedSet : Nat := 0x14
def stAccessRefused : Nat := 0x15
def stAuthority : Nat := 0x16
def stSessionInvalid : Nat := 0x17
def stSessionBusy : Nat := 0x18
def stBasketOwned : Nat := 0x19
def stUnitAbsent : Nat := 0x1A
def stCheckFailed : Nat := 0x1B
def stModeRefused : Nat := 0x1C
def stWrongMode : Nat := 0x1D
def stNotReady : Nat := 0x1E
def stExpired : Nat := 0x1F
def stCauseActive : Nat := 0x20
def stCommitArmed : Nat := 0x21
def stFuseRefused : Nat := 0x22
def stMemoryError : Nat := 0x23
def stImageRefused : Nat := 0x24
def stWearLimit : Nat := 0x25
def stCancelled : Nat := 0x26
def stInternal : Nat := 0x27

/-- Observe, Operate, Configure, Maintain (R96). -/
def authO : Nat := 0
def authP : Nat := 1
def authC : Nat := 2
def authM : Nat := 3

/-- The reply data of a refusal (R98). -/
def refusalData (so word bit reason : Nat) : Bytes := le 2 so ++ le 2 word ++ [BitVec.ofNat 8 bit, BitVec.ofNat 8 reason, 0, 0]

/-- What a handler answers: a reply with the state it leaves, or the packet parked (R111). -/
inductive HRes where
  | reply (status : Nat) (data : Bytes) (d : Dev)
  | park (why : Park) (d : Dev)

/-- The header of a packet being executed (R96), with the ticket its reply goes by. -/
structure Ctx where
  ticket : Ticket
  flags : Nat
  auth : Nat
  time : Nat
deriving DecidableEq, Repr

/-- What a handler does with the device. -/
abbrev Handler := Ctx → Dev → HRes

/-- OK with no data. -/
def okEmpty (d : Dev) : HRes := .reply stOk [] d

/-- A refusal that names no field (R98: SO 0xFFFF), with a reason code. DESIGN CHOICE (log entry 157): word 0 and bit 0xFF, which no rule
gives, stand beside it. -/
def refuse (status reason : Nat) (d : Dev) : HRes := .reply status (refusalData 0xFFFF 0 0xFF reason) d

/-- A refusal that names a word. -/
def refuseAt (status so word bit reason : Nat) (d : Dev) : HRes := .reply status (refusalData so word bit reason) d

/-- The lowest bit set in a word, 0xFF for none. -/
def lowBit (w : Word) : Nat := ((List.range 32).find? fun i => w.getLsbD i).getD 0xFF

/-- What an opcode needs (R114) with the parameters it has: authority, and more of it as the block stands (R122, R419), host port only,
CONFIRM; an opcode the table lacks is not known; the words that can be read from Kindle on (R64) are served there; the length of the reply
data it asks for (R94). -/
structure OpNeed where
  auth : Nat := 0
  more : Dev → Nat := fun _ => 0
  hostOnly : Bool := false
  confirm : Bool := false
  known : Bool := true
  kindle : Bool := false
  reply : Nat := 0

/-! ## Sessions -/

/-- A session's grant (R103, R104): session 0 Observe on every port; session 32, opened by block lock of U, the
parent's ceiling until the parent names less (log entry 16). -/
def Dev.grant (d : Dev) (s : Nat) : Nat := if s = 0 then 0 else (d.session s).auth

/-- Whether a session number belongs to a port (R103). -/
def sessionOnPort (src : Src) (s : Nat) : Bool :=
  match src with
  | .host => decide (s ≤ 15)
  | .net _ => decide (s = 0) || (decide (16 ≤ s) && decide (s ≤ 31))
  | .parent => decide (s = 0) || decide (s = 32)

/-- Whether a packet's session is open and bound to its source (R100 step 5). -/
def Dev.sessionOk (d : Dev) (src : Src) (s : Nat) : Bool :=
  sessionOnPort src s &&
    (decide (s = 0) || ((d.session s).isOpen &&
      (match src with
        | .net a => decide ((d.session s).ip = a.ip.toNat) && decide ((d.session s).udp = a.port.toNat)
        | _ => true)))

/-- Whether a packet opens the session it names, which is not open yet (R104): it has no grant to keep to. -/
def Dev.opens (d : Dev) (src : Src) (op s : Nat) : Bool :=
  decide (op = 0x03) && decide (s ≠ 0) && sessionOnPort src s && !(d.session s).isOpen

/-- Whether a port takes packets now (R57, R76, R119): the host port from Kindle, the others from the first commit;
none while the PLL is unlocked. -/
def Dev.portActive (d : Dev) (src : Src) : Bool :=
  d.on F.clkLocked &&
    match src with
    | .host => decide (d.boot.stage = .kindle) || decide (d.boot.stage = .light)
    | .net _ => decide (0 < d.rd F.stgGen) && d.netRuns
    | .parent => decide (d.boot.stage = .light) && decide (0 < d.rd F.stgGen)

/-- Whether an opcode is served in the present phase (R57): in Kindle the 0x0_ group with the words of R64, and the 0xF_ group once
both slots have been rejected. -/
def Dev.phaseServes (d : Dev) (op : Nat) (need : OpNeed) : Bool :=
  decide (d.boot.stage = .light) || decide (op / 16 = 0) || need.kindle ||
    (decide (op / 16 = 0xF) && d.boot.trying.isNone && decide (2 ≤ d.boot.headersRead) && !d.boot.accepted)

/-- Whether a network session is open and bound to another address (R104). -/
def Dev.boundElsewhere (d : Dev) (src : Src) (n : Nat) : Bool :=
  match src with
  | .net a => sessionOnPort src n && (d.session n).isOpen
      && !(decide ((d.session n).ip = a.ip.toNat) && decide ((d.session n).udp = a.port.toNat))
  | _ => false

/-! ## Discards and credit -/

/-- The word of SO 0x0020 of a port (R116). -/
def portWord (src : Src) : Nat := match src with | .host => 0 | .net _ => 1 | .parent => 2

/-- A packet discarded at a port (R89, R93, R108): counted, the framing error recorded, event source 0x05. -/
def Dev.discardPacket (d : Dev) (src : Src) (err : Nat) : Dev :=
  (((d.bump F.cmdDiscarded (portWord src)).wr F.cmdLastFraming err (portWord src))).raise 0x05

/-- Whether a window has a packet's worth of credit left (R107, R108). -/
def Dev.hasCredit (d : Dev) (w : Nat) : Bool :=
  decide (((d.window w).taken + 256 - (d.window w).answered) % 256 < d.windowSize w)

/-! ## Replies -/

/-- The rank and the member of R32 that a port has, which the frames it causes have too (R33). -/
def srcRank : Src → Nat × Nat
  | .host => (5, 0)
  | .parent => (5, 1)
  | .net _ => (6, 0)

/-- The MANAGE frames that carry a message (R174, R175): segments of 244 bytes, ranked with the party that caused them. -/
def manageItems (ftype : Nat) (by_ : Src) (addr dst src slot msgId : Nat) (msg : Bytes) : List TxItem :=
  let segs := cut 244 msg
  segs.zipIdx.map fun (b, i) =>
    { ftype := ftype, rank := (srcRank by_).1, member := (srcRank by_).2, addr := addr,
      payload := le 2 dst ++ le 2 src ++ [BitVec.ofNat 8 slot, BitVec.ofNat 8 i, BitVec.ofNat 8 segs.length, 0]
        ++ le 2 msgId ++ [0, 0] ++ b }

/-- Keep a reply among the session's last 16, replacing one of its tag (R112). -/
def keepReply (kept : List (Nat × Nat × Bytes)) (tag crc : Nat) (p : Bytes) : List (Nat × Nat × Bytes) :=
  ((tag, crc, p) :: kept.filter (fun e => e.1 != tag)).take 16

/-- Hand a whole reply to its port: the host's queue with event source 0x01 (R109), a datagram to the requester's addresses under the tag
of its request (R93, R119; log entry 158), or MANAGE_RESP frames back the way the request came (R95, R175). -/
def Dev.deliver (d : Dev) (k : Ticket) (p : Bytes) : Dev :=
  match k.src, k.via with
  | .host, _ => (d.putPacket 0 p).raise 0x01
  | .net a, _ => d.netSendTag a.mac.toNat (a.tag.map BitVec.toNat) (.udp a.ip.toNat a.port.toNat p)
  | .parent, some (lane, node, msgId) =>
    let addr := if 53 ≤ lane then 0xFFFF else node
    (manageItems 0x09 .parent addr node d.nodeAddr 127 msgId p).foldl (fun d x => d.queueFrame lane x) d
  | .parent, none => d.putPacket 1 p

/-- Hand a kept reply to its port once more (R112). -/
def Dev.resend (d : Dev) (k : Ticket) (p : Bytes) : Dev :=
  match k.src with
  | .host => d.putPacket 0 p
  | _ => d.deliver k p

/-- Send a reply (R97): it is counted as answered, carries the CREDIT_LIMIT that leaves, and is kept for R112. -/
def Dev.sendReply (d : Dev) (k : Ticket) (status : Nat) (data : Bytes) : Dev :=
  let w := windowOf k.src k.session
  let d := d.setWindow w { d.window w with answered := ((d.window w).answered + 1) % 256 }
  let p := buildPacket k.op 0x01 k.tag data.length status (d.creditLimit w) k.stamp data
  let d := if sessionOnPort k.src k.session then
      d.setSession k.session { d.session k.session with kept := keepReply (d.session k.session).kept k.tag k.crc p }
    else d
  d.deliver k p

/-- Answer a parked packet and forget it. -/
def Dev.answerParked (d : Dev) (x : Parked) (status : Nat) (data : Bytes) : Dev :=
  { d with parked := d.parked.filter (fun y => decide (y ≠ x)) }.sendReply x.ticket status data

/-- The size limit of a packet and a reply on a port (R94), less header and CRC: of the parameters and of the reply data. -/
def replyLimit (src : Src) : Nat := match src with | .net _ => 1472 - 16 | _ => 4096 - 16

/-! ## The checking order (R100) -/

/-- Step 3 of R100: no reserved bit of FLAGS, no reserved AUTH, TIME 0 without DEADLINE. -/
def Ctx.clean (c : Ctx) : Bool :=
  !(c.flags % 2 = 1 || 8 ≤ c.flags || 3 < c.auth || (c.time != 0 && c.flags / 2 % 2 = 0))

/-- Steps 3 and 5 to 8 of R100, in order, and CONFIRM: the status and reason of the first that fails. -/
def Dev.precheck (d : Dev) (c : Ctx) (need : OpNeed) : Option (Nat × Nat) :=
  let op := c.ticket.op
  let s := c.ticket.session
  let opens := d.opens c.ticket.src op s
  if !c.clean then some (stReservedSet, 0)
  else if !(d.sessionOk c.ticket.src s || opens || (op = 0x03 && d.boundElsewhere c.ticket.src s)) then
    some (stSessionInvalid, 0)
  else if !need.known then some (stUnknownOpcode, 0)
  else if !d.phaseServes op need then some (stNotReady, 0)
  else if need.auth > c.auth || need.more d > c.auth || (!opens && d.grant s < c.auth)
      || (need.hostOnly && decide (c.ticket.src ≠ .host)) then some (stAuthority, 0)
  else if c.flags / 2 % 2 = 1 && decide (timeLeft c.time d.now < 0) then some (stExpired, 0)
  else if need.confirm && c.flags / 4 % 2 = 0 then some (stBadParam, 0)
  else none

/-- The watchdog serviced (R428). -/
def Dev.serviced (d : Dev) : Dev := { d with island := { d.island with watchdogLate := false } }

/-- Execute a packet that has passed framing, credit and the duplicate check: its reply, or its place among the parked
(R111). A reply beyond the port's limit is refused with BAD_LENGTH and changes nothing (R94). A firmware fault that strikes the packet
ends it with INTERNAL and no effect (R102; log entry 159). The interpreter is part of the management firmware that services the watchdog
of R428 (log entry 28). -/
def Dev.execute (d : Dev) (c : Ctx) (need : OpNeed) (h : Handler) : Dev :=
  match d.precheck c need with
  | some (st, reason) => d.sendReply c.ticket st (refusalData 0xFFFF 0 0xFF reason)
  | none =>
    if d.ports.internalDue then
      { d with ports := { d.ports with internalDue := false } }.sendReply c.ticket stInternal (refusalData 0xFFFF 0 0xFF 0)
    else match h c d.serviced with
    | .reply st data d' =>
      if replyLimit c.ticket.src < data.length then d.serviced.sendReply c.ticket stBadLength (refusalData 0xFFFF 0 0xFF 0)
      else d'.sendReply c.ticket st data
    | .park why d' => { d' with parked := d'.parked ++ [{ ticket := c.ticket, why := why }] }

/-- The kept reply of a duplicate (R112): same TAG and CRC in the same session. -/
def Dev.duplicate (d : Dev) (k : Ticket) : Option Bytes :=
  ((d.session k.session).kept.find? fun e => decide (e.1 = k.tag) && decide (e.2.1 = k.crc)).map fun e => e.2.2

/-- A packet of a session has come (R106, R117), a resent or a refused one too. -/
def Dev.heard (d : Dev) (k : Ticket) : Dev :=
  if d.sessionOk k.src k.session then d.setSession k.session { d.session k.session with lastAt := d.up } else d

/-- A packet counted in its window (R107). -/
def Dev.spend (d : Dev) (k : Ticket) : Dev :=
  let w := windowOf k.src k.session
  d.setWindow w { d.window w with taken := ((d.window w).taken + 1) % 256 }

/-- A packet enters its window (R108): it is counted, its session has been used (R106), Lantern's stages see it (R480). -/
def Dev.enter (d : Dev) (c : Ctx) : Dev :=
  let k := c.ticket
  let d := (d.spend k).heard k
  d.acqLatch d.now fun n =>
    if d.rd F.acqSKind n = 9 && (d.rd F.acqSA n).testBit (portWord k.src)
        && (k.op &&& (d.rd F.acqSB n % 256)) = d.rd F.acqSC n % 256 then some k.op else none

/-- The longest reply an opcode can give on the host port (R94, R114, R465), in bytes: the port's limit where its length
follows the request, 1,472 where the spec does not give its layout (log entry 11). -/
def longestReply (op : Nat) : Nat :=
  if [0x20, 0x30, 0x32, 0x33, 0x34, 0x38, 0x60, 0xA5, 0xB1, 0xC3, 0xC4, 0xC5, 0xD1].contains op then 4096
  else if [0x73, 0xA2, 0xF4].contains op then 1472
  else match op with
    | 0x05 => 276
    | 0x52 => 176
    | 0x62 => 272
    | 0x72 | 0x80 => 144
    | 0x81 => 1296
    | 0x84 => 1036
    | 0x92 => 80
    | 0xA0 => 236
    | 0xB0 => 68
    | 0xD0 => 784
    | _ => 64

/-- Entries of the host's reply queue held for the replies of packets that are parked (R111, R465). -/
def Dev.replyHeld (d : Dev) : Nat :=
  ((d.parked.filter fun x => decide (x.ticket.src = .host) && (match x.why with | .credit _ => false | _ => true)).map
    fun x => entriesOf (longestReply x.ticket.op)).sum

/-- Whether the host's reply queue holds credit for the longest reply of an opcode (R465). -/
def Dev.replyRoom (d : Dev) (op : Nat) : Bool := d.queueRoom 0 (d.replyHeld + entriesOf (longestReply op))

/-- Take a packet that arrived whole with a good CRC (R100): the duplicate check of a clean header, the credit of its window
(R108), the room its reply may need (R465), then execution. -/
def Dev.take (d : Dev) (c : Ctx) (payload : Bytes) (need : OpNeed) (h : Handler) : Dev :=
  let k := c.ticket
  if !d.portActive k.src then d
  else match (if c.clean then d.duplicate k else none) with
  | some p => (d.heard k).resend k p
  | none =>
    if !d.hasCredit (windowOf k.src k.session) then d.discardPacket k.src 3
    else
      let d := d.enter c
      if k.src = .host && !d.replyRoom k.op then
        let packet := buildPacket k.op c.flags k.tag payload.length c.auth k.session c.time payload
        { d with parked := d.parked ++ [{ ticket := k, why := .credit packet }] }
      else d.execute c need h

/-- The context of an opcode row: the header of R96 with the parameters' CRC, stamped at the present instant. -/
def Dev.ctx (d : Dev) (op : Nat) (src : Src) (hd : Hdr) (payload : Bytes) : Ctx :=
  let body := le 1 op ++ [hd.flags] ++ le 2 hd.tag.toNat ++ le 2 payload.length ++ [hd.auth, hd.session]
    ++ le 4 hd.time.toNat ++ payload
  let k : Ticket :=
    { src := src, op := op, tag := hd.tag.toNat, session := hd.session.toNat, crc := crc32c body,
      stamp := d.now % 2 ^ 32 }
  { ticket := k, flags := hd.flags.toNat, auth := hd.auth.toNat, time := hd.time.toNat }

/-- A packet refused for its length or its CRC (R100 steps 1 and 2): answered, within credit. DESIGN CHOICE (log entry 160): the reply
is kept under the CRC that the bytes received have, so that the packet sent again intact is executed. -/
def Dev.refusePacket (d : Dev) (c : Ctx) (status : Nat) : Dev :=
  if !d.hasCredit (windowOf c.ticket.src c.ticket.session) then d.discardPacket c.ticket.src 3
  else ((d.spend c.ticket).heard c.ticket).sendReply c.ticket status (refusalData 0xFFFF 0 0xFF 0)

/-- Whether the parameters and the reply they ask for suit a port (R94, R100 step 1). -/
def lengthsFit (src : Src) (payload : Bytes) (need : OpNeed) : Bool :=
  decide (payload.length ≤ replyLimit src) && decide (need.reply ≤ replyLimit src)

/-- An opcode row whose parameters have the length R114 gives them (R94), or the packet refused with BAD_LENGTH (R100 step 1). -/
def Dev.serveLen (d : Dev) (fits : Bool) (op : Nat) (t : Nat) (src : Src) (hd : Hdr) (payload : Bytes) (need : OpNeed)
    (h : Handler) : Dev :=
  let d := d.advance t
  if fits && lengthsFit src payload need then d.take (d.ctx op src hd payload) payload need h
  else if d.portActive src then d.refusePacket (d.ctx op src hd payload) stBadLength else d

/-- An opcode row: the packet arrives whole on its port and is taken. -/
def Dev.serve (d : Dev) (op : Nat) (t : Nat) (src : Src) (hd : Hdr) (payload : Bytes) (need : OpNeed) (h : Handler) :
    Dev :=
  d.serveLen true op t src hd payload need h

/-! ## Lifting to the whole state -/

/-- A command that acts on the device alone. -/
def lift (s : State) (f : Dev → Dev) : Host.Outcome State Fault Refusal := .next { s with dev := f s.dev }

/-- An event row: the device at the instant of the event. -/
def event (t : Nat) (s : State) (f : Dev → Dev) : Host.Outcome State Fault Refusal := lift s fun d => f (d.advance t)

/-- An opcode row with parameters of varying length. -/
def opcodeLen (fits : Bool) (op : Nat) (t : Nat) (src : Src) (hd : Hdr) (payload : Bytes) (need : OpNeed) (h : Handler)
    (s : State) : Host.Outcome State Fault Refusal := lift s fun d => d.serveLen fits op t src hd payload need h

/-- An opcode row. -/
def opcode (op : Nat) (t : Nat) (src : Src) (hd : Hdr) (payload : Bytes) (need : OpNeed) (h : Handler) (s : State) :
    Host.Outcome State Fault Refusal := lift s fun d => d.serve op t src hd payload need h

end Sys2Proof.Machine
end

