-- ==== Sys2Proof/Machine/Legs.lean ====
section
/-!
DEFINITION. Machine/Legs.lean: the local low-voltage stage (chapter 12): leg timers, dead time and interlock, protection,
pumps, the DC-link comparators and the brake.
-/
namespace Sys2Proof.Machine

/-- Whether a leg may switch (R315); none while the PLL is unlocked (R76). -/
def Dev.legMay (d : Dev) (n : Nat) : Bool :=
  d.on F.clkLocked && d.on F.legEn n && decide (d.rd F.twinRole ≤ 1) &&
    match modeBit d.mode with
    | some b => (d.rd F.legModes n).testBit b
    | none => false

/-- The gate requests of a leg: forced, or those of P and the dead-time logic (R323, R331). -/
def Dev.legRequests (d : Dev) (n : Nat) : Bool × Bool :=
  if d.on F.legForceEn n then (d.on F.legForceGh n, d.on F.legForceGl n) else ((d.leg n).ghReq, (d.leg n).glReq)

/-- Whether a kill path holds a leg's balls low (R327 to R329, R333): the latch of a DC-link trip holds it as the latch of a leg does
(log entry 144). -/
def Dev.legKilled (d : Dev) (n : Nat) : Bool :=
  d.on F.legTripped n || d.on F.legCut n || d.brake.trip0 || d.brake.trip1 || d.on F.legOvTripped

/-- The length of the blanking window in CTRL cycles (R326): ceil((LEG.BLANK + 1) × 62.5). -/
def Dev.blankCycles (d : Dev) (n : Nat) : Nat := (125 * (d.rd F.legBlank n + 1) + 1) / 2

/-- Whether the blanking window of a leg is open (R326). -/
def Dev.blanked (d : Dev) (n : Nat) : Bool := match (d.leg n).blank with | some due => !d.ctrlDue due | none => false

/-- The first edge of pump n at or after an instant (R332): a rising one, or a falling one 625 CTRL cycles on. The common grid has no
instant of its own in the spec (log entry 145). -/
def pumpEdge (n t : Nat) (rising : Bool) : Nat :=
  let phase := (Config.pumpGrid + 16 * 52 * n + if rising then 0 else 10000) % 20000
  t + (phase + 20000 - t % 20000) % 20000

/-- Whether a pump runs (LEG.PUMP, R332). -/
def Leg.pumping (l : Leg) (now : Nat) : Bool :=
  match l.pumpFrom with
  | none => false
  | some a => decide (a ≤ now) && (match l.pumpTill with | some z => decide (now < z) | none => true)

/-- The pump's condition ends (R332): a high half-period is finished. -/
def Leg.pumpStop (l : Leg) (n now : Nat) : Leg :=
  if !l.pumping now then { l with pumpFrom := none, pumpTill := none }
  else if l.pumpTill.isSome then l
  else if pumpEdge n now false ≤ pumpEdge n now true then { l with pumpTill := some (pumpEdge n now false) }
  else { l with pumpFrom := none, pumpTill := none }

/-- The pump's condition has come to hold (R332): it starts at the next rising edge of its grid. -/
def Leg.pumpStart (l : Leg) (n now : Nat) : Leg :=
  if l.pumping now then { l with pumpTill := none }
  else if l.pumpFrom.isSome && l.pumpTill.isNone then l
  else { l with pumpFrom := some (pumpEdge n now true), pumpTill := none }

/-- Drive the gate balls (R324): the interlock, the kill paths, R315; a turn-on opens the blanking window anew (R326), the pump's
condition ends with GH (R332). -/
def Dev.drive2 (d : Dev) (n : Nat) : Dev :=
  let (rh, rl) := d.legRequests n
  let ok := d.legMay n && (d.leg n).counting && !d.legKilled n
  let gh := ok && rh && !rl
  let gl := ok && rl && !rh
  let turnOn := (gh && !d.on F.legGh n) || (gl && !d.on F.legGl n)
  let l := d.leg n
  let since := if gh then (if d.on F.legGh n then l.ghSince else some d.now) else none
  let l := { l with
    blank := if turnOn then some (d.now + d.ctrlTicks (d.blankCycles n)) else l.blank, ghSince := since }
  let l := if gh && d.rd F.legState n == 3 && d.on F.legTpEn n then l else l.pumpStop n d.now
  ((d.setLeg n l).wr F.legGh (flag gh) n).wr F.legGl (flag gl) n

/-- LEG.STATE from the rest of the leg (R341). -/
def Dev.legShow (d : Dev) (n : Nat) : Dev :=
  let l := d.leg n
  let v := if d.on F.legTripped n then 5
    else if !d.legMay n then 0
    else if d.on F.legForceEn n then 6
    else if d.on F.legCut n then 4
    else if l.primed then 3
    else if l.glReq || l.periods != 0 then 2
    else 1
  d.wr F.legState v n

/-- A leg's outputs and state brought up to date. -/
def Dev.legUpdate (d : Dev) (n : Nat) : Dev := (d.legShow n).drive2 n

/-- A leg that starts anew (R322): its blanking window, the half-period of its pump and the shadow's last write stand. -/
def Leg.fresh (l : Leg) : Leg := { blank := l.blank, pumpFrom := l.pumpFrom, pumpTill := l.pumpTill, shadow := l.shadow }

/-- A leg comes to meet R315 and starts, or ceases to and stops (R315, R322). -/
def Dev.legRefresh (d : Dev) (n : Nat) : Dev :=
  if d.legMay n then
    if (d.leg n).counting then d.legUpdate n
    else ((d.setLeg n { Leg.fresh (d.leg n) with counting := true, zeroAt := d.now }).wr F.legP 0 n).legUpdate n
  else (((d.setLeg n (Leg.fresh (d.leg n))).wr F.legP 0 n).wr F.legCut 0 n).legUpdate n

/-- Every leg after a change of the mode, the role or the settings. -/
def Dev.legsRefresh (d : Dev) : Dev := (List.range 12).foldl (fun d n => d.legRefresh n) d

/-- A timer event of a leg (R321), in the period in progress; periods count from 0 at the first zero event. -/
def Dev.legTimer (d : Dev) (n bit : Nat) : Dev :=
  if (d.rd F.legIntSel n).testBit bit && decide (((d.leg n).periods - 1) % (d.rd F.legIntPre n + 1) = 0) then
    (d.wr F.legIntFlags (d.rd F.legIntFlags n ||| 2 ^ bit) n).raise (0x40 + n)
  else d

/-- The instant at which a leg's next zero event falls due (R316): the first of its grid in a CTRL cycle after that of the last one, or
after its start. -/
def Dev.zeroDue (d : Dev) (n : Nat) : Nat :=
  let first := d.origin + 16 * d.rd F.legPhase n
  let period := 16 * (d.rd F.legPrd n + 1)
  let after := 16 * ((d.leg n).zeroAt / 16 + 1)
  if after ≤ first then first else first + (after - first + period - 1) / period * period

/-- A latched trip of a leg (R329); a cut of the same CTRL cycle is not counted (R330). -/
def Dev.legTrip (d : Dev) (n src : Nat) : Dev :=
  let l := d.leg n
  let sameCycle := src != 3 && d.on F.legCut n && decide (l.cutAt / 16 = d.now / 16)
  let d := if sameCycle then d.wr F.legCuts (d.rd F.legCuts n - 1) n else d
  let run := if sameCycle then l.cutRun - 1 else l.cutRun
  let d := d.setLeg n { l with dead := none, ghReq := false, glReq := false, cutRun := run }
  let d := (((d.wr F.legTripped 1 n).wr F.legTripSrc src n).wr F.legCut 0 n).legUpdate n
  (d.fault (if src = 3 then 16 else 15) n).raise 0x4D

/-- A period that holds a cut (R328): counted once, and the trip of LEG.CBC_MAX. -/
def Dev.legCountCut (d : Dev) (n : Nat) : Dev :=
  let l := d.leg n
  let d := d.setLeg n { l with cutRun := l.cutRun + 1, cutAt := d.now }
  let d := (d.bumpWord 0x0803 (3 * n)).raise 0x4C
  if d.rd F.legCbcMax n != 0 && decide (d.rd F.legCbcMax n ≤ l.cutRun + 1) then d.legTrip n 3 else d

/-- The limit comparator acts (R328): the leg is cut for the rest of the period; a tripped leg stays tripped. -/
def Dev.legCutNow (d : Dev) (n : Nat) : Dev :=
  if d.on F.legTripped n || d.on F.legCut n || !(d.leg n).counting then d
  else
    let d := d.setLeg n { d.leg n with dead := none }
    ((d.wr F.legCut 1 n).legUpdate n).legCountCut n

/-- The pending turn-on of a leg after the dead time of its direction (R323). -/
def Dev.deadFor (d : Dev) (n : Nat) (high : Bool) : Bool × Nat :=
  (high, d.now + d.ctrlTicks (if high then d.rd F.legDtRise n else d.rd F.legDtFall n))

/-- P takes a level: the request of the other switch ends at once and a dead time runs (R323). -/
def Dev.legSetP (d : Dev) (n : Nat) (high : Bool) : Dev :=
  if d.on F.legP n == high then d
  else
    let dead := if d.legKilled n then none else some (d.deadFor n high)
    let d := d.setLeg n { d.leg n with ghReq := false, glReq := false, dead := dead }
    (d.wr F.legP (flag high) n).legUpdate n

/-- The shadow compares that a zero event copies (R320): those before a write of its own CTRL cycle. -/
def Dev.shadowAt (d : Dev) (n : Nat) : Nat × Nat :=
  match (d.leg n).shadow with
  | some x => if x.1 = d.now / 16 then x.2 else (d.rd F.legCmpaSh n, d.rd F.legCmpbSh n)
  | none => (d.rd F.legCmpaSh n, d.rd F.legCmpbSh n)

/-- A zero event (R316, R320, R322, R328), once its CTRL cycle has come. -/
def Dev.legZero (d : Dev) (n : Nat) : Dev :=
  let l := d.leg n
  if !l.counting || !d.ctrlDue (d.zeroDue n) then d
  else
    let d := if l.periods = 0 then d else d.legTimer n 2
    let d := if l.periods = 0 then d else d.wr F.legLastLen (min 65535 (d.ctrlSince l.zeroAt - 1)) n
    let sh := d.shadowAt n
    let d := (d.wr F.legCmpa sh.1 n).wr F.legCmpb sh.2 n
    let hadCut := d.on F.legCut n
    let l := d.leg n
    let d := d.setLeg n { l with
      zeroAt := d.now, startAt := if l.periods = 0 then d.now else l.startAt, periods := l.periods + 1, aDone := none, bDone := none }
    let d := if hadCut then
        if d.on F.legCsLimIn n then d.legCountCut n
        else
          let d := d.wr F.legCut 0 n
          d.setLeg n { d.leg n with dead := some (d.deadFor n (d.on F.legP n)), ghReq := false, glReq := false, cutRun := 0 }
      else if d.on F.legTripped n then d
      else d.setLeg n { d.leg n with cutRun := 0 }
    let d := if (d.leg n).primed || d.on F.legTripped n then d
      else (d.setLeg n { d.leg n with glReq := true }).wr F.legP 0 n
    (d.legUpdate n).legTimer n 3

/-- A compare action (R317, R322): each acts once a period, when the counter has come to it or in the last CTRL cycle of a shortened
period, a compare above LEG.PRD never; of two in one CTRL cycle the higher value decides, and equal values leave P low. -/
def Dev.legCompare (d : Dev) (n : Nat) (b : Bool) : Dev :=
  let l := d.leg n
  let va := d.rd F.legCmpa n
  let vb := d.rd F.legCmpb n
  let v := if b then vb else va
  let spent := if b then l.bDone.isSome else l.aDone.isSome
  let come := decide (v ≤ d.ctrlSince l.zeroAt) || decide (d.zeroDue n / 16 ≤ d.now / 16 + 1)
  if !l.counting || l.periods = 0 || spent || decide (d.rd F.legPrd n < v) || !come then d
  else
    let same (x : Option Nat) : Bool := match x with | some i => decide (i / 16 = d.now / 16) | none => false
    let other := if b then same l.aDone else same l.bDone
    let high := if b then other && decide (vb < va) else !(other && decide (va ≤ vb))
    let d := d.setLeg n (if b then { l with bDone := some d.now } else { l with aDone := some d.now })
    let d := if l.primed then d.legSetP n high else d
    d.legTimer n (if b then 0 else 1)

/-- A dead time ends (R323). -/
def Dev.legDeadEnd (d : Dev) (n : Nat) : Dev :=
  let l := d.leg n
  match l.dead with
  | some (high, due) =>
    if d.ctrlDue due then (d.setLeg n { l with dead := none, ghReq := high, glReq := !high }).legUpdate n else d
  | none => d

/-- Priming ends LEG.PRIME CTRL cycles after the leg's first zero event (R322). -/
def Dev.legPrimeEnd (d : Dev) (n : Nat) : Dev :=
  let l := d.leg n
  if l.counting && !l.primed && l.periods != 0 && !d.on F.legTripped n && d.ctrlDue (l.startAt + d.ctrlTicks (d.rd F.legPrime n)) then
    (d.setLeg n { l with primed := true }).legUpdate n
  else d

/-- The blanking window ends (R326, R330): an input still active acts. -/
def Dev.legBlankEnd (d : Dev) (n : Nat) : Dev :=
  match (d.leg n).blank with
  | none => d
  | some due =>
    if !d.ctrlDue due then d
    else
      let d := d.setLeg n { d.leg n with blank := none }
      let d := if d.on F.legDsatIn n && d.on F.legDsatEn n then d.legTrip n 1 else d
      if d.on F.legCsLimIn n && d.rd F.legCsLim n != 255 then d.legCutNow n else d

/-- Clear a latched trip whose causing input is inactive (R329): the leg starts again. -/
def Dev.legClear (d : Dev) (n : Nat) : Dev :=
  let cause := match d.rd F.legTripSrc n with
    | 1 => d.on F.legDsatIn n | 2 => d.on F.legCsScIn n | 3 => d.on F.legCsLimIn n | _ => false
  if d.on F.legTripped n && !cause then
    let d := (((d.wr F.legTripped 0 n).wr F.legTripSrc 0 n).wr F.legP 0 n).setLeg n (Leg.fresh (d.leg n))
    d.legRefresh n
  else d

/-- The gate requests forced or released (R324, R331): an overlap is counted and raised. -/
def Dev.legForce (d : Dev) (n : Nat) (en gh gl : Bool) : Dev :=
  let before := d.on F.legForceEn n && d.on F.legForceGh n && d.on F.legForceGl n
  let d := ((d.wr F.legForceEn (flag en) n).wr F.legForceGh (flag gh) n).wr F.legForceGl (flag gl) n
  let d := d.legUpdate n
  if en && gh && gl && !before then ((d.bumpWord 0x0803 (3 * n + 1)).fault 14 n).raise 0x4E else d

/-- Leaving SERVICE and CALIBRATE clears the force fields (R331). -/
def Dev.forceClear (d : Dev) : Dev :=
  (List.range 12).foldl (fun d n =>
    if d.on F.legForceEn n || d.on F.legForceGh n || d.on F.legForceGl n then d.legForce n false false false else d) d

/-! ## The brake (R333 to R335) -/

/-- Whether an input asks for the brake (R334). -/
def Dev.brakeAsked (d : Dev) : Bool :=
  (d.on F.legOv0En && d.on F.legOv0Brk && d.on F.legOv0Above)
    || (d.on F.legOv1En && d.on F.legOv1Brk && d.on F.legOv1Above)

/-- Whether BRK may be driven at all (R45, R76, R334). -/
def Dev.brakeFree (d : Dev) : Bool := decide (0 < d.rd F.stgGen) && d.on F.clkLocked && d.on F.legBrkEn

/-- BRK goes low: what it was high for in this millisecond is kept for the heating model. -/
def Dev.brakeOff (d : Dev) : Dev :=
  if d.on F.legBrkOn then
    { d with brake := { d.brake with onTicks := d.brake.onTicks + (d.now - max d.brake.onAt d.brake.tickAt) } }.wr F.legBrkOn 0
  else d

/-- BRK brought up to date (R334). -/
def Dev.brakeUpdate (d : Dev) : Dev :=
  if !d.brakeFree then d.brakeOff
  else if d.on F.legBrkOn then
    if (!d.brakeAsked || d.on F.legBrkInhib) && d.ctrlDue (d.brake.onAt + d.ctrlTicks (d.rd F.legBrkMinOn)) then d.brakeOff else d
  else if d.brakeAsked && !d.on F.legBrkInhib then
    ({ d with brake := { d.brake with onAt := d.now } }.wr F.legBrkOn 1 |>.bump F.legBrkCount).raise 0x4F
  else d

/-- The heating figure. -/
def Dev.brakeHeat (d : Dev) : Nat := d.rd F.legBrkHLo + 2 ^ 32 * d.rd F.legBrkHHi

/-- The CTRL cycles for which BRK has been high in the millisecond of the heating model. -/
def Dev.brakeOnCycles (d : Dev) : Nat :=
  let here := if d.on F.legBrkOn then d.now - max d.brake.onAt d.brake.tickAt else 0
  min 625000 ((d.brake.onTicks + here + 8) / 16)

/-- One tick of the heating model (R335), every 625,000 CTRL cycles. -/
def Dev.brakeTick (d : Dev) : Dev :=
  if !d.ctrlDue (d.brake.tickAt + d.ctrlTicks 625000) then d
  else
    let h := d.brakeHeat
    let h' := min (2 ^ 48 - 1) (h - h / 2 ^ d.rd F.legBrkTau + d.brakeOnCycles)
    let d := { d with brake := { d.brake with onTicks := 0, tickAt := d.now } }
    let d := (d.wr F.legBrkHLo (h' % 2 ^ 32)).wr F.legBrkHHi (h' / 2 ^ 32)
    if d.rd F.legBrkHmax ≤ h' / 65536 then
      if d.on F.legBrkInhib then d else (((d.wr F.legBrkInhib 1).brakeUpdate).fault 18 0).raise 0x50
    else if d.on F.legBrkInhib && decide (h' / 65536 < d.rd F.legBrkHres) then (d.wr F.legBrkInhib 0).brakeUpdate
    else d

/-! ## The meanings of chapter 12's events -/

/-- LEG_ZERO_EVENT. -/
def execLegZeroEvent (t : Nat) (leg : Fin 12) (s : State) : Host.Outcome State Fault Refusal :=
  event t s fun d => d.legZero leg

/-- LEG_COMPARE_ACTION: CMPA, or CMPB. -/
def execLegCompareAction (t : Nat) (leg : Fin 12) (b : Bool) (s : State) : Host.Outcome State Fault Refusal :=
  event t s fun d => d.legCompare leg b

/-- LEG_DEAD_TIME_END. -/
def execLegDeadTimeEnd (t : Nat) (leg : Fin 12) (s : State) : Host.Outcome State Fault Refusal :=
  event t s fun d => d.legDeadEnd leg

/-- LEG_PRIME_END. -/
def execLegPrimeEnd (t : Nat) (leg : Fin 12) (s : State) : Host.Outcome State Fault Refusal :=
  event t s fun d => d.legPrimeEnd leg

/-- LEG_BLANK_END. -/
def execLegBlankEnd (t : Nat) (leg : Fin 12) (s : State) : Host.Outcome State Fault Refusal :=
  event t s fun d => d.legBlankEnd leg

/-- LEG_CURRENT_CUT: the limit comparator goes active, or inactive; a disabled comparator does neither (R325). -/
def execLegCurrentCut (t : Nat) (leg : Fin 12) (active : Bool) (s : State) : Host.Outcome State Fault Refusal :=
  event t s fun d =>
    if d.rd F.legCsLim leg = 255 then d
    else
      let d := d.wr F.legCsLimIn (flag active) leg
      if active && !d.blanked leg then d.legCutNow leg else d

/-- LEG_SHORT_CIRCUIT: DSATn, or the short-circuit comparator, goes active or inactive (R326, R329). -/
def execLegShortCircuit (t : Nat) (leg : Fin 12) (dsat active : Bool) (s : State) : Host.Outcome State Fault Refusal :=
  event t s fun d =>
    if dsat then
      let d := d.wr F.legDsatIn (flag active) leg
      if active && d.on F.legDsatEn leg && !d.blanked leg then d.legTrip leg 1 else d
    else if d.rd F.legCsSc leg = 255 then d
    else
      let d := d.wr F.legCsScIn (flag active) leg
      if active then d.legTrip leg 2 else d

/-- PUMP_DELAY_EXPIRY (R332): GH has been on without a break for LEG.TP_DLY × 8 µs on a leg that runs. -/
def execPumpDelayExpiry (t : Nat) (leg : Fin 12) (s : State) : Host.Outcome State Fault Refusal :=
  event t s fun d =>
    let l := d.leg leg
    let long := match l.ghSince with
      | some x => decide (x + 80000 * d.rd F.legTpDly leg ≤ d.now)
      | none => false
    if d.on F.legTpEn leg && d.rd F.legState leg == 3 && d.on F.legGh leg && long then d.setLeg leg (l.pumpStart leg d.now) else d

/-- DCOV_BRAKE_CROSSING (R333, R334): a brake comparator goes above LEG.OVx_ON, or below LEG.OVx_OFF. -/
def execDcovBrakeCrossing (t : Nat) (input : Fin 2) (above : Bool) (s : State) : Host.Outcome State Fault Refusal :=
  event t s fun d =>
    (d.wr (if input = 0 then F.legOv0Above else F.legOv1Above) (flag above)).brakeUpdate

/-- BRK_MIN_ON_EXPIRY (R334). -/
def execBrkMinOnExpiry (t : Nat) (s : State) : Host.Outcome State Fault Refusal :=
  event t s fun d => d.brakeUpdate

/-- DC_LINK_OVER_VOLTAGE (R333): a trip comparator of an enabled input goes active, or inactive. -/
def execDcLinkOverVoltage (t : Nat) (input : Fin 2) (active : Bool) (s : State) : Host.Outcome State Fault Refusal :=
  event t s fun d =>
    let enabled := if input = 0 then d.on F.legOv0En else d.on F.legOv1En
    let d := if input = 0 then { d with brake := { d.brake with trip0 := active && enabled } }
      else { d with brake := { d.brake with trip1 := active && enabled } }
    let d := (List.range 12).foldl (fun d n => d.legUpdate n) d
    if active && enabled then ((d.wr F.legOvTripped 1).fault 17 input).raise 0x51 else d

/-- BRAKE_HEAT_TICK (R335). -/
def execBrakeHeatTick (t : Nat) (_on : Unit) (s : State) : Host.Outcome State Fault Refusal := event t s fun d => d.brakeTick

end Sys2Proof.Machine
end

