-- ==== Sys2Proof/Machine/Clocks.lean ====
section
/-!
DEFINITION. Machine/Clocks.lean: the reference in use, the loss of lock, and the blocks that gate their own clocks (R40, R67 to R77,
R82), as the lanes, the modes and the clock rows share them.
-/
namespace Sys2Proof.Machine

/-! ## Loss of lock (R72, R76) -/

/-- The highest reading of the die temperature sensors, in 1/16 °C. -/
def Dev.dieTemp (d : Dev) : Int :=
  ((List.range 4).map fun i => sN 16 (d.rd F.sysDieT i)).foldl max (sN 16 (d.rd F.sysDieT 0))

/-- The entry of the band table that fits the present temperature (R72): its band and charge-pump code. -/
def Dev.tableBand (d : Dev) : Option (Nat × Nat) :=
  ((List.range 32).find? fun i =>
    d.on F.clkBtValid i && decide (d.dieTemp ≤ 16 * sN 8 (d.rd F.clkBtTmax i))).map fun i =>
      (d.rd F.clkBtBand i, d.rd F.clkBtCp i)

/-- The band and the charge-pump code with which a relock starts (R72): those of the table, loaded at once, or the automatic search
with the fuse-trimmed current. -/
def Dev.loadBand (d : Dev) (entry : Option (Nat × Nat)) : Dev :=
  let d := { d with clk := { d.clk with tableBand := entry.map (·.1), pumpCode := entry.map (·.2) } }
  match entry with
  | some e => d.wr F.clkBand e.1
  | none => d

/-- The system PLL loses lock (R76, R378): LEASE_OUT low, SAFE onto the supervisor oscillator, outputs low, class 3, a relock under R72. -/
def Dev.pllLost (d : Dev) : Dev :=
  if !d.on F.clkLocked then d
  else
    let table := d.on F.clkBandMode && decide (d.boot.stage = .light)
    let entry := if table then d.tableBand else none
    let d := { d with clk := { d.clk with relocking := true, unlocked5ms := false, safeOnSup := true },
                      twin := { d.twin with leaseOut := false } }
    let d := ((d.wr F.clkLocked 0).wr F.clkRamping 0).loadBand entry
    let d := (d.legsRefresh.brakeUpdate).fault 3 0
    if table && entry.isNone then d.raise 0x06 else d

/-! ## The reference (R69, R70) -/

/-- A fallback to the local reference (R69), or a loss of lock where there is none (R70). -/
def Dev.refFallback (d : Dev) : Dev :=
  if d.rd F.clkRefActive ≠ 2 then d
  else
    let d := ((d.wr F.clkRefActive (d.rd F.clkRefSel)).wr F.clkRefFallback 1).fault 1 0
    if d.clk.localLost then d.pllLost else d

/-! ## Blocks that gate themselves (R40, R80) -/

/-- Whether pin SDCLKk runs (R40, R345): one of its eight channels is enabled. -/
def Dev.sdclkRuns (d : Dev) (k : Nat) : Bool := (List.range 8).any fun i => d.on F.measEn (8 * k + i)

/-- Whether loop engine LEn is in its low-power state (R40): Hamper has no slot placed on it. -/
def Dev.engineGated (d : Dev) (n : Nat) : Bool :=
  !(List.range d.loopSlots).any fun s => d.on F.hmpPPlaced s && d.rd F.hmpPEngine s == n

/-- Whether Lantern is in its low-power state (R40): not armed. -/
def Dev.lanternGated (d : Dev) : Bool := !d.acq.armed

/-- Whether the block that owns a clock output has gated it (R40, R80): SDM while no SDCLK pin runs, ACQ while Lantern is not armed. The
other outputs serve a block that R40 never gates (log entry 148). -/
def Dev.outputGated (d : Dev) (index : Nat) : Bool :=
  match index with
  | 0 => !(List.range 4).any d.sdclkRuns
  | 9 => d.lanternGated
  | _ => false

end Sys2Proof.Machine
end

