-- ==== Sys2Proof/Machine/Meas.lean ====
section
/-!
DEFINITION. Machine/Meas.lean: measurement channels and the calibration store (chapter 13).
-/
namespace Sys2Proof.Machine

def Dev.chan (d : Dev) (n : Nat) : Chan := tget (fun _ => {}) d.chans n

def Dev.setChan (d : Dev) (n : Nat) (x : Chan) : Dev := { d with chans := tset (fun _ => {}) d.chans n x }

/-! ## The store (R354, R355) -/

/-- The unity entry of a channel (R354). -/
def unityEntry : Bytes := le 4 0x10000000 ++ zeros 20 ++ le 4 1

/-- A page's factory content (R354): payload and CRC. -/
def factoryPage (p : Nat) : Bytes :=
  if p = 0 then blockOf ((List.range 67).map Config.factoryTrim)
  else if 4 ≤ p && p ≤ 7 then blockOf ((List.replicate 8 unityEntry).flatten)
  else blockOf []

/-- What a page that fails its CRC is replaced by in force (R355). -/
def defaultPage (p : Nat) : Bytes :=
  if p = 0 then blockOf (zeros 28 ++ (List.replicate 4 (le 4 0x10000000 ++ zeros 4)).flatten)
  else if 4 ≤ p && p ≤ 7 then blockOf ((List.replicate 8 unityEntry).flatten)
  else blockOf []

/-- The content of a page of the store. -/
def Dev.calPage (d : Dev) (p : Nat) : Bytes := tget factoryPage d.cal.pages p

/-- A page as it is in force (R355, R356). -/
def Dev.calInForce (d : Dev) (p : Nat) : Bytes := tget factoryPage d.cal.force p

/-- How often a page has been written (R356): the factory write counts as the first. -/
def Dev.calCount (d : Dev) (p : Nat) : Nat := tget (fun _ => 1) d.cal.counts p

/-- GAIN, OFFSET and FP_OFFSET of a channel, from the pages in force (R347, R354). -/
def Dev.chanCal (d : Dev) (n : Nat) : Int × Int × Int :=
  let p := d.calInForce (4 + n / 8)
  let at_ := 28 * (n % 8)
  (s32 (leAt p at_ 4), s32 (leAt p (at_ + 4) 4), s32 (leAt p (at_ + 8) 4))

/-- The reserved bytes of a page that must be 0 (R356). -/
def reservedBad (p : Nat) (bytes : Bytes) : Bool :=
  if p = 0 then !zeroRange bytes 67 185
  else if 1 ≤ p && p ≤ 3 then !zeroRange bytes 0 252
  else if 4 ≤ p && p ≤ 7 then
    !zeroRange bytes 224 28 || (List.range 8).any fun i =>
      !zeroRange bytes (28 * i + 18) 2 || decide (4 ≤ leAt bytes (28 * i + 24) 4)
  else false

/-! ## Filters (R346 to R350) -/

/-- The order N of a channel's main filter. -/
def Dev.chanOrder (d : Dev) (n : Nat) : Nat := if d.on F.measOrder n then 4 else 3

/-- A window's result as x in Q8.24 (R347): (2r − R^N) × 2^24 / R^N. -/
def normalise (r : Int) (full : Nat) : Int := roundDiv ((2 * r - full) * 2 ^ 24) full

/-- SCALE × (GAIN × x + offset) (R347, R350). -/
def scaled (x gain offset scale : Int) : Int :=
  mulQ24 (toQ24 (macc [(x, gain)] (offset * 2 ^ 28))).1 scale

/-- A sinc filter at its start. -/
def Sinc.start (order : Nat) : Sinc := { integ := List.replicate order 0, diff := List.replicate order 0, toSettle := order }

/-- One modulator bit through the integrators. -/
def integrate : Nat → List Nat → List Nat
  | _, [] => []
  | x, i :: t => let y := (i + x) % 2 ^ 32; y :: integrate y t

/-- The differentiators at a window's end: what they hold after it, and the result. -/
def differentiate : Nat → List Nat → List Nat × Nat
  | x, [] => ([], x)
  | x, p :: t => let r := differentiate ((x + 2 ^ 32 - p) % 2 ^ 32) t; (x :: r.1, r.2)

/-- The bits of one window through a filter (R346): the filter after it, and the window's raw result. -/
def Sinc.window (f : Sinc) (bits : List Bool) : Sinc × Nat :=
  let integ := bits.foldl (fun i b => integrate (if b then 1 else 0) i) f.integ
  let r := differentiate (integ.getLastD 0) f.diff
  ({ integ := integ, diff := r.1, toSettle := f.toSettle - 1 }, r.2)

/-- A channel starts or restarts (R346, R348). -/
def Dev.chanStart (d : Dev) (n : Nat) : Dev :=
  (((d.setChan n { running := true, main := Sinc.start (d.chanOrder n), fast := Sinc.start 2 }).wr F.measValid 0 n).wr F.measHeld 0 n)

/-- A channel stops. -/
def Dev.chanStop (d : Dev) (n : Nat) : Dev :=
  ((((d.setChan n {}).wr F.measValid 0 n).wr F.measHeld 0 n).wr F.measOcIn 0 n)

/-- Channels after a commit (R346): `old` gives the words before it. -/
def Dev.chansCommit (d : Dev) (old : Dev) : Dev :=
  (List.range 32).foldl (fun d n =>
    if d.on F.measEn n then
      if !(d.chan n).running || d.rd F.measOrder n != old.rd F.measOrder n || d.rd F.measOsr n != old.rd F.measOsr n
          || d.rd F.measEdge n != old.rd F.measEdge n then d.chanStart n
      else if d.on F.measFpEn n && (!old.on F.measFpEn n || d.rd F.measFpOsr n != old.rd F.measFpOsr n) then
        d.setChan n { d.chan n with fast := Sinc.start 2, ocRun := 0 }
      else d
    else if (d.chan n).running then d.chanStop n else d) d

/-- Fine ticks of one SDCLK period (R345). -/
def sdPeriod : Nat := 500

/-- A window of R bits completes at an SDCLK edge (R346 to R349): once the filter is whole, its output is published 4 CTRL cycles
later. A held channel keeps publishing its last output (R352). -/
def Dev.chanOutput (d : Dev) (n : Nat) (bits : List Bool) : Dev :=
  let order := d.chanOrder n
  let osr := d.rd F.measOsr n
  let full := osr ^ order
  let c := d.chan n
  if !c.running || bits.length != osr then d
  else
    let (f, r) := c.main.window bits
    let d := d.setChan n { c with main := f }
    if d.on F.measHeld n then d.bumpWrap F.measOutCount n
    else
      let d := if r = 0 || r = full then (d.wr F.measSat 1 n).raise 0x5A else d
      if f.toSettle != 0 then d
      else
        let x := normalise r full
        let (gain, offset, _) := d.chanCal n
        let o : ChanOut := {
          chan := n, due := 16 * (d.now / 16 + 4)
          at_ := d.now - order * (osr - 1) * sdPeriod / 2 - d.rd F.measSkew n
          y := scaled x gain offset (s32 (d.rd F.measScale n)), x := x }
        { d with engines := { d.engines with outs := d.engines.outs ++ [o] } }

/-- A fast-path window of MEAS.FP_OSR bits completes (R350); the first after a start is not whole yet (log entry 146). -/
def Dev.chanFast (d : Dev) (n : Nat) (bits : List Bool) : Dev :=
  let osr := d.rd F.measFpOsr n
  let c := d.chan n
  if !c.running || !d.on F.measFpEn n || bits.length != osr then d
  else
    let (f, r) := c.fast.window bits
    if f.toSettle != 0 then d.setChan n { c with fast := f }
    else
      let (gain, _, ofs) := d.chanCal n
      let y := scaled (normalise r (osr ^ 2)) gain ofs (s32 (d.rd F.measScale n))
      let out := decide (s32 (d.rd F.measOcHi n) < y) || decide (y < s32 (d.rd F.measOcLo n))
      let run := if out then c.ocRun + 1 else 0
      let d := ((d.setChan n { c with fast := f, ocRun := run }).wr F.measFpOut (u32 y) n).wr F.measOcIn (flag out) n
      if out && run == d.rd F.measOcCnt n + 1 then ((d.wr F.measOc 1 n).fault 19 n).raise 0x58 else d

/-- CHANNEL_OUTPUT (R346 to R349): the modulator's bits of the window. -/
def execChannelOutput (t : Nat) (chan : Fin 32) (bits : List Bool) (s : State) : Host.Outcome State Fault Refusal :=
  event t s fun d => d.chanOutput chan bits

/-- CHANNEL_OVER_CURRENT (R350): the modulator's bits of the fast-path window. -/
def execChannelOverCurrent (t : Nat) (chan : Fin 32) (bits : List Bool) (s : State) : Host.Outcome State Fault Refusal :=
  event t s fun d => d.chanFast chan bits

/-- MODULATOR_STREAM_LOST (R352). -/
def execModulatorStreamLost (t : Nat) (chan : Fin 32) (s : State) : Host.Outcome State Fault Refusal :=
  event t s fun d =>
    if (d.chan chan).running && !d.on F.measHeld chan then ((d.wr F.measHeld 1 chan).fault 20 chan).raise 0x5C else d

/-- MODULATOR_STREAM_RESUMED (R352): the channel restarts under R346. -/
def execModulatorStreamResumed (t : Nat) (chan : Fin 32) (s : State) : Host.Outcome State Fault Refusal :=
  event t s fun d => if d.on F.measHeld chan then d.chanStart chan else d

/-! ## Calibration pages (R356) -/

/-- The pages verified since take effect at a boundary, in one CTRL cycle (R356). -/
def Dev.calApply (d : Dev) : Dev :=
  d.cal.apply.foldl (fun d p =>
    let d := { d with cal := { d.cal with force := tset factoryPage d.cal.force p (d.calPage p) } }
    let bits := d.rd F.calPageBad (p / 32)
    let d := d.wr F.calPageBad (bits &&& (0xFFFFFFFF ^^^ 2 ^ (p % 32))) (p / 32)
    d.raise 0x5B) { d with cal := { d.cal with apply := [] } }

/-- The store as read in Kindle and applied at Light (R355): failed pages by their defaults, and their classes. -/
def Dev.calLoad (d : Dev) : Dev :=
  (List.range 64).foldl (fun d p =>
    let page := d.calPage p
    let good := blockGood page && !d.cal.broken.contains p
    let d := { d with cal := { d.cal with force := tset factoryPage d.cal.force p (if good then page else defaultPage p) } }
    if good then d
    else
      let d := d.wr F.calPageBad (d.rd F.calPageBad (p / 32) ||| 2 ^ (p % 32)) (p / 32)
      if p < 8 then d.fault 21 p else d.raise 0x5E) d

end Sys2Proof.Machine
end

