-- ==== Sys2Proof/Machine/Group.lean ====
section
/-!
DEFINITION. Machine/Group.lean: groups and trees (chapter 14): the command in force, its split among children, reports
upward, losing and regaining children and the parent.
-/
namespace Sys2Proof.Machine

def Dev.child (d : Dev) (n : Nat) : Child := tget (fun _ => {}) d.group.children n

def Dev.setChild (d : Dev) (n : Nat) (x : Child) : Dev :=
  { d with group := { d.group with children := tset (fun _ => {}) d.group.children n x } }

/-! ## Commands received (R363, R364) -/

/-- A UNIT_COMMAND payload read (R174): none if reserved bytes, PRESENT or the length are not as laid out. -/
def parseCommand (p : Bytes) : Option UCmd :=
  let present := leAt p 12 2
  let is := (List.range 11).filter present.testBit
  if p.length != 16 + 4 * is.length || !zeroRange p 14 2 || decide (2048 ≤ present) then none
  else some { applyAt := leAt p 0 8, seq := leAt p 8 4, present := present,
              values := is.zipIdx.map fun x => (x.1, s32 (leAt p (16 + 4 * x.2) 4)) }

/-- A UNIT_COMMAND payload (R174). -/
def commandPayload (c : UCmd) : Bytes :=
  le 8 c.applyAt ++ le 4 c.seq ++ le 2 c.present ++ [0, 0] ++ c.values.flatMap fun x => le32s x.2

/-- A UNIT_COMMAND or a MANAGE_REQ of the parent has arrived (R370, R371). -/
def Dev.parentHeard (d : Dev) : Dev := { d with group := { d.group with heardAt := d.now } }

/-- Whether a command is stale (R364). -/
def Dev.stale (d : Dev) (c : UCmd) : Bool :=
  match d.group.accepted with
  | some last => decide (timeLeft c.seq last ≤ 0)
  | none => false

/-- A unit command is stale or accepted (R364); the first one accepted ends the action of R370. -/
def Dev.command (d : Dev) (c : UCmd) : Dev :=
  if d.stale c then (d.bump F.grpCmdStale).raise 0x63
  else
    let d := if 2 ≤ d.rd F.grpUState then d.wr F.grpUState 1 else d
    { d with group := { d.group with accepted := some c.seq, pending := some c, heardAt := d.now, ramping := false } }

/-- A UNIT_COMMAND from the parent: it has been heard (R370), and in its MGMT cycle its command comes after one of the host's mailbox
(R363). -/
def Dev.parentCommand (d : Dev) (c : UCmd) : Dev :=
  let d := d.parentHeard
  if d.stale c then d.command c
  else
    let d := d.command c
    { d with group := { d.group with parentCycle := some (d.now / 32) } }

/-- Apply a pending command at a boundary (R364): step 2 of R12, after any commit. -/
def Dev.applyCommand (d : Dev) : Dev :=
  match d.group.pending with
  | none => d
  | some c =>
    if d.now < c.applyAt then d
    else
      let d := c.values.foldl (fun d x => d.wr F.grpCfQ (u32 x.2) x.1) d
      let d := (d.wrPair F.grpCfAt c.applyAt).wr F.grpCfSeq c.seq
      let d := d.wr F.grpCfPresent (d.rd F.grpCfPresent ||| c.present)
      { d with group := { d.group with pending := none } }

/-- The mailbox as a command (R363): words 0 to 14 as they stand; none when a PRESENT bit of 11 to 15 is set. -/
def Dev.mailboxCommand (d : Dev) : Option UCmd :=
  let present := d.rd F.grpMbPresent
  if 2048 ≤ present then none
  else some { applyAt := d.rdPair F.grpMbAt, seq := d.rd F.grpMbSeq, present := present,
              values := ((List.range 11).filter present.testBit).map fun i => (i, s32 (d.rd F.grpMbQ i)) }

/-- A write of word 3 of the mailbox (R363, R364). One applied in the MGMT cycle of a command from the parent comes before it in the
order of R32, and the parent's values stand. -/
def Dev.mailbox (d : Dev) : Dev :=
  match d.mailboxCommand with
  | some c => if d.group.parentCycle = some (d.now / 32) then d else d.command c
  | none => d.bump F.frmRxBad laneU

/-! ## Conversions (R366) -/

/-- A child's value in the group's base. -/
def Dev.upward (d : Dev) (n : Nat) (x : Int) : Int :=
  sat32 (roundDiv (x * (d.rd F.grpDBase n : Nat)) (d.rd F.grpBase))

/-- A group's value in a child's base. -/
def Dev.downward (d : Dev) (n : Nat) (x : Int) : Int :=
  sat32 (roundDiv (x * (d.rd F.grpBase : Nat)) (d.rd F.grpDBase n))

/-- A quantity of a child's last report. -/
def Dev.childValue (d : Dev) (n q : Nat) : Int := tget (fun _ => 0) (d.child n).values q

/-- The admitted children (R365). -/
def Dev.admitted (d : Dev) : List Nat :=
  (List.range d.downPorts).filter fun n => d.rd F.grpDState n == 3 || d.rd F.grpDState n == 4

/-- The report selector of a quantity (R376). -/
def Dev.reportSel (d : Dev) (q : Nat) : Nat := if q % 2 = 0 then d.rd F.grpRepHi (q / 2) else d.rd F.grpRepLo (q / 2)

/-- Whether the node's report comes from Flame's latest state copy (R362): on a U-holder that does not hold the Wick. -/
def Dev.reportsCopy (d : Dev) : Bool := d.on F.twinPaired && decide (2 ≤ d.rd F.twinRole)

/-- The node's own part of a quantity (R362, R367). -/
def Dev.ownPart (d : Dev) (q : Nat) : Option Int :=
  let sel := d.reportSel q
  if selClass sel = 0 then none
  else if d.reportsCopy then some (snapSignal d.engines.snap sel)
  else some (d.signal sel d.now)

/-! ## The split (R365, R366) -/

/-- The shares of a limit quantity: child port (or 4 for the node itself) and share, in Q8.24. -/
def Dev.limitShares (d : Dev) (q : Nat) : List (Nat × Int) :=
  let kids := d.admitted.map fun n => (n, d.upward n (d.childValue n q))
  let own : List (Nat × Int) := if d.populatedSlots.isEmpty then [] else [(4, (d.ownPart q).getD 0)]
  let all : List (Nat × Int) := kids ++ own
  let sum : Int := (all.map (·.2)).sum
  if sum = 0 then all.map fun x => (x.1, 0)
  else
    let plain := all.map fun x => (x.1, roundDivI (x.2 * 2 ^ 24) sum)
    let ramps (n : Nat) : Bool := decide (n < 4) && d.rd F.grpDState n == 3
    let ramped := plain.map fun x =>
      if ramps x.1 then (x.1, roundDiv (x.2 * ((d.child x.1).ramp : Nat)) (d.rd F.grpReturnRamp)) else x
    let held := ((ramped.filter fun x => ramps x.1).map (·.2)).sum
    let rest := ((ramped.filter fun x => !ramps x.1).map (·.2)).sum
    ramped.map fun x => if ramps x.1 || rest = 0 then x else (x.1, roundDivI (x.2 * (oneQ24 - held)) rest)

/-- A share of a child. -/
def shareFor (xs : List (Nat × Int)) (n : Nat) : Int := tget (fun _ => 0) xs n

/-- The command for a child (R366). -/
def Dev.childCommand (d : Dev) (n : Nat) (kP kQ kI : Int) : UCmd :=
  let c := d.child n
  let v (q : Nat) : Int :=
    let own := d.commandSignal q
    if q = 0 || q = 5 || q = 6 then d.downward n (mulQ24 own kP)
    else if q = 1 || q = 7 || q = 8 then d.downward n (mulQ24 own kQ)
    else if q = 9 then d.downward n (mulQ24 own kI)
    else own
  let present := if c.allNext then 2047 else d.rd F.grpCfPresent
  let at_ := d.rdPair F.grpCfAt
  { applyAt := if d.now < at_ then at_ else 0, seq := (c.seq + 1) % 2 ^ 32, present := present,
    values := ((List.range 11).filter present.testBit).map fun q => (q, v q) }

/-- Send a child its command when it differs from the last one sent, or the interval has passed (R366). -/
def Dev.sendChild (d : Dev) (n : Nat) (kP kQ kI : Int) : Dev :=
  let c := d.child n
  let cmd := d.childCommand n kP kQ kI
  let same := match c.sent with
    | some x => decide (x.applyAt = cmd.applyAt) && decide (x.present = cmd.present) && decide (x.values = cmd.values)
    | none => false
  if same && decide (d.now < c.sentAt + 4 * d.rd F.grpStateInt * d.cycle) then d
  else
    let d := d.setChild n { c with sent := some cmd, sentAt := d.now, seq := cmd.seq, allNext := false }
    let d := d.setWord 0x0D13 (16 * n + 14) cmd.seq
    d.queueFrame (laneD n) { ftype := 0x02, loc := true, rank := 3, payload := commandPayload cmd }

/-- The boundary's part of the split: readmissions, ramps, shares, commands (R365, R366, R369). -/
def Dev.groupSplit (d : Dev) : Dev :=
  let ports := List.range d.downPorts
  let d := ports.foldl (fun d n =>
    let c := d.child n
    if c.readmit then
      ((d.setChild n { c with readmit := false, ramp := 0, allNext := true }).wr F.grpDState 3 n).raise 0x61
    else if d.rd F.grpDState n = 3 then d.setChild n { c with ramp := min (c.ramp + 1) (d.rd F.grpReturnRamp) }
    else d) d
  let kP := d.limitShares 5
  let kQ := d.limitShares 7
  let kI := d.limitShares 9
  ports.foldl (fun d n =>
    let p := shareFor kP n
    let q := shareFor kQ n
    let i := shareFor kI n
    let d := ((d.setWord 0x0D13 (16 * n + 11) (u32 p)).setWord 0x0D13 (16 * n + 12) (u32 q)).setWord 0x0D13 (16 * n + 13)
      (u32 i)
    if d.admitted.contains n then d.sendChild n p q i else d) d

/-! ## Children (R368, R369) -/

/-- A UNIT_STATE payload read (R174). -/
structure UState where
  at_ : Nat := 0
  seq : Nat := 0
  cap : Nat := 0
  health : Nat := 0
  healthy : Nat := 0
  total : Nat := 0
  present : Nat := 0
  values : List (Nat × Int) := []
deriving DecidableEq, Repr

def parseUState (p : Bytes) : Option UState :=
  let present := leAt p 16 2
  let is := (List.range 11).filter present.testBit
  if p.length != 20 + 4 * is.length || !zeroRange p 18 2 || decide (2048 ≤ present)
      || !(byteAt p 12 == 1 || byteAt p 12 == 2) || decide (3 < byteAt p 13) then none
  else some { at_ := leAt p 0 8, seq := leAt p 8 4, cap := byteAt p 12, health := byteAt p 13, healthy := byteAt p 14,
              total := byteAt p 15, present := present,
              values := is.zipIdx.map fun x => (x.1, s32 (leAt p (20 + 4 * x.2) 4)) }

/-- A child's valid report (R365, R368, R369). -/
def Dev.childReport (d : Dev) (n : Nat) (u : UState) : Dev :=
  let c := d.child n
  let st := d.rd F.grpDState n
  let again := (st == 5 || st == 2) && d.laneUp (laneD n) && decide (u.health ≤ 1)
  let d := d.setChild n { c with
    present := u.present, values := u.values, reportAt := d.now, fresh := true, readmit := c.readmit || again }
  let d := (((d.wr F.grpDCap u.cap n).wr F.grpDHealth u.health n).wr F.grpDHealthy u.healthy n).wr F.grpDTotal u.total n
  let d := (List.range 11).foldl (fun d q =>
    let x := tget (fun _ => 0) u.values q
    let shown := if q = 2 || q = 3 || q = 4 || q = 10 then x else d.upward n x
    d.setWord 0x0D13 (16 * n + q) (u32 shown)) d
  d.setWord 0x0D13 (16 * n + 15) u.seq

/-- A child is lost (R368). -/
def Dev.childLost (d : Dev) (n : Nat) : Dev :=
  if d.rd F.grpDState n = 3 || d.rd F.grpDState n = 4 || d.rd F.grpDState n = 2 then
    let d := (d.setChild n { d.child n with readmit := false, ramp := 0, sent := none }).wr F.grpDState 5 n
    ((d.bump F.grpDLosses n).fault 22 n).raise 0x60
  else d

/-! ## Reports upward (R367) -/

/-- HEALTH of the node's report (R367). -/
def Dev.nodeHealth (d : Dev) (healthy total : Nat) : Nat :=
  if d.rd F.twinRole = 5 then 3
  else match if d.reportsCopy then (modeOf d.twin.copyMode).getD d.mode else d.mode with
    | .snuffed => 3
    | .runForm | .runFollow => if healthy = total then 0 else 1
    | .derated | .rideThrough => 1
    | _ => 2

/-- The node's healthy and total counts (R367), saturating at 255. -/
def Dev.nodeCounts (d : Dev) : Nat × Nat :=
  let cells := (d.populatedSlots.filter d.isActive).length
  let kids := ((List.range d.downPorts).filter fun n => d.rd F.grpDState n == 4 && decide (d.rd F.grpDHealth n ≤ 1)).length
  let enabled := ((List.range d.downPorts).filter fun n => d.on F.laneEn (laneD n)).length
  (min 255 (cells + kids), min 255 (d.populatedSlots.length + enabled))

/-- Quantity q of the report (R367): none where neither an own part nor a child gives it. -/
def Dev.reportValue (d : Dev) (q : Nat) : Option Int :=
  let own := d.ownPart q
  let kids := d.admitted.filter fun n => ((d.child n).present).testBit q
  if own.isNone && kids.isEmpty then none
  else if q = 2 || q = 3 || q = 4 then
    match own with
    | some v => some v
    | none =>
      let w := (kids.map fun n => ((d.rd F.grpDBase n : Nat) : Int)).sum
      some (roundDivI (kids.map fun n => d.childValue n q * ((d.rd F.grpDBase n : Nat) : Int)).sum w)
  else if q = 10 then
    minList ((match own with | some v => [v] | none => []) ++ kids.map fun n => d.childValue n q)
  else some (sat32 (own.getD 0 + (kids.map fun n => d.upward n (d.childValue n q)).sum))

/-- The UNIT_STATE payload of the node (R174, R367). -/
def Dev.reportPayload (d : Dev) : Bytes :=
  let (healthy, total) := d.nodeCounts
  let vals := (List.range 11).filterMap fun q => (d.reportValue q).map fun v => (q, v)
  let present := vals.foldl (fun m x => m + 2 ^ x.1) 0
  le 8 d.now ++ le 4 (d.rd F.grpCfSeq) ++ [2, BitVec.ofNat 8 (d.nodeHealth healthy total), BitVec.ofNat 8 healthy,
    BitVec.ofNat 8 total] ++ le 2 present ++ [0, 0] ++ vals.flatMap fun x => le32s x.2

/-- Send the node's report on U when it is due (R367): the interval, or a change seen at the boundary before. -/
def Dev.groupReport (d : Dev) (k : Nat) : Dev :=
  let (healthy, total) := d.nodeCounts
  let health := d.nodeHealth healthy total
  let g := d.group
  let changed := g.lastHealth != health || g.lastHealthy != healthy || g.lastTotal != total
  let d := { d with group := { g with lastHealth := health, lastHealthy := healthy, lastTotal := total } }
  if d.on F.laneEn laneU && (changed || decide (g.reportCycle + d.rd F.grpStateInt ≤ k)) then
    let p := d.reportPayload
    let d := { d with group := { d.group with reportCycle := k } }
    let d := (List.range 16).foldl (fun d w => d.setWord 0x0D12 w (leAt p (4 * w) 4)) d
    d.queueFrame laneU { ftype := 0x04, loc := true, rank := 3, payload := p }
  else d

/-! ## The parent (R370, R371) -/

/-- The parent is lost (R370). -/
def Dev.parentGone (d : Dev) : Dev :=
  if d.rd F.grpUState = 1 then
    let d := { d with group := { d.group with lostAt := d.now } }
    (((d.wr F.grpUState 2).wr F.grpParentLost 1).fault 23 0).raise 0x62
  else d

/-- The timeout of R370 in fine ticks. -/
def Dev.parentTimeout (d : Dev) : Nat := 4 * d.rd F.grpStateInt * d.rd F.grpChildTo * d.cycle

/-- Whether the parent counts as lost now (R370, R371). -/
def Dev.parentMissing (d : Dev) : Bool :=
  decide (d.group.heardAt + d.parentTimeout ≤ d.now) ||
    (if d.on F.laneEn laneU then !d.laneLinked laneU else !d.group.partnerOpen || d.twin.linkLost)

/-- One boundary of the ramp of GRP.U_LOST_ACT 1 (R370): quantities 0 and 1 toward 0 at quantity 10. -/
def Dev.parentRamp (d : Dev) : Dev :=
  if d.group.ramping then
    let step := (roundDiv (d.commandSignal 10 * (d.cycle : Int)) ticksSec).natAbs
    let toward (x : Int) : Int := if 0 < x then max 0 (x - step) else min 0 (x + step)
    (d.wr F.grpCfQ (u32 (toward (d.commandSignal 0))) 0).wr F.grpCfQ (u32 (toward (d.commandSignal 1))) 1
  else d

/-! ## The meanings of chapter 14's events -/

/-- CHILD_REPORT_TIMEOUT (R368). -/
def execChildReportTimeout (t : Nat) (port : Fin 4) (s : State) : Host.Outcome State Fault Refusal :=
  event t s fun d =>
    if (d.child port).reportAt + d.rd F.grpChildTo * d.rd F.grpStateInt * d.cycle ≤ d.now then d.childLost port else d

/-- CHILD_RETURN_RAMP_END (R369). -/
def execChildReturnRampEnd (t : Nat) (port : Fin 4) (s : State) : Host.Outcome State Fault Refusal :=
  event t s fun d =>
    if d.rd F.grpDState port = 3 && decide (d.rd F.grpReturnRamp ≤ (d.child port).ramp) then d.wr F.grpDState 4 port
    else d

/-- PARENT_LOST (R370, R371). -/
def execParentLost (t : Nat) (s : State) : Host.Outcome State Fault Refusal :=
  event t s fun d => if d.parentMissing then d.parentGone else d

/-- U_HOLD_EXPIRY (R370): GRP.U_LOST_ACT decides. -/
def execUHoldExpiry (t : Nat) (s : State) : Host.Outcome State Fault Refusal :=
  event t s fun d =>
    if d.rd F.grpUState = 2 && decide (d.group.lostAt + d.rd F.grpUHold * ticksMs ≤ d.now)
        && d.rd F.grpULostAct == 1 then
      { d with group := { d.group with ramping := true } }.wr F.grpUState 3
    else d

end Sys2Proof.Machine
end

