-- ==== Sys2Proof/Machine/Access.lean ====
section
/-!
DEFINITION. Machine/Access.lean: which words a variant has (R2), and the sum of the RS words in force (R395).
-/
namespace Sys2Proof.Machine

/-- Whether the unit of a word is present (R2, R64): the variant has it, and a cell slot is populated in the unit map (R13), whose own
words stand for every slot of the variant. -/
def Dev.wordPresent (d : Dev) (so word : Nat) : Bool :=
  let lane (stride : Nat) : Bool := d.lanePresent (word / stride)
  let slot (stride : Nat) : Bool := d.populated (word / stride)
  if so = 0x0200 || so = 0x0201 || so = 0x0202 || so = 0x0211 then lane 1
  else if so = 0x0203 then lane 3
  else if so = 0x0212 then lane 4
  else if so = 0x0305 then lane 2
  else if so = 0x0900 then decide (word < d.cellSlots)
  else if so = 0x0402 || so = 0x0904 then slot 1
  else if so = 0x0404 then slot 2
  else if so = 0x0905 then slot 3
  else if so = 0x0912 then slot 4
  else if 0x0600 ≤ so && so < 0x0700 then decide (so - 0x0600 < d.loopSlots)
  else if 0x0700 ≤ so && so < 0x0800 then decide (so - 0x0700 < d.loopSlots)
  else if so = 0x0906 then decide (word < d.loopSlots)
  else if 0x0A00 ≤ so && so < 0x0A60 then d.populated (so - 0x0A00)
  else if so = 0x0D01 then decide (word / 2 < d.downPorts)
  else if so = 0x0D02 then decide (word = 0) || decide (word - 1 < d.downPorts)
  else if so = 0x0D13 then decide (word / 16 < d.downPorts)
  else if so = 0x0E01 || so = 0x0E02 then d.hasTwin
  else if so = 0x0E03 then d.hasTwin && d.lanePresent word
  else if so = 0x1304 then decide (2 ≤ d.acqLevel)
  else if 0x1300 ≤ so && so < 0x1400 then decide (1 ≤ d.acqLevel)
  else true

/-- Whether a state object has a present word at all. -/
def Dev.soPresent (d : Dev) (so : Nat) : Bool :=
  match soFind so with
  | some s => (List.range s.words).any fun w => d.wordPresent so w
  | none => false

/-- The mask of the RS fields of a word. -/
def rsMask (so word : Nat) : Word := accMask so word (· == .rs)

/-- The state objects left out of TWIN.CFG_SUM (R395). -/
def sumExcludes (so : Nat) : Bool :=
  (decide (0x0020 ≤ so) && decide (so ≤ 0x0024)) || (decide (0x0080 ≤ so) && decide (so ≤ 0x0084))
    || (decide (0x0200 ≤ so) && decide (so ≤ 0x0203)) || so == 0x0303 || so == 0x0305
    || (decide (0x0E00 ≤ so) && decide (so ≤ 0x0E03))

/-- The bits of a word that enter the sum (R395): its RS fields, less MEAS.EDGE and MEAS.SKEW, and less the fields that act
once. -/
def sumMask (so word : Nat) : Word :=
  let m := rsMask so word
  if so = 0x0B00 && word % 4 = 0 then m &&& ~~~ maskBits 29 29 &&& ~~~ maskBits 10 0
  else if so = 0x0101 && word = 0 then m &&& ~~~ maskBits 3 0
  else if 0x0600 ≤ so && so < 0x0700 && word = 1 then m &&& ~~~ maskBits 1 0
  else m

/-- TWIN.CFG_SUM over a table of words (R395): the RS words of the state objects present, in ascending order. -/
def Dev.cfgSum (d : Dev) (t : RegFile) : Nat :=
  let sos := soTable.flatMap fun s => (List.range s.soN).map fun i => (s.so + i, s.words)
  let bytes := sos.flatMap fun x =>
    if sumExcludes x.1 then []
    else (List.range x.2).flatMap fun w =>
      if rsMask x.1 w != 0 && d.wordPresent x.1 w then wordBytes (regWord t x.1 w &&& sumMask x.1 w) else []
  crc32c bytes

end Sys2Proof.Machine
end

