-- ==== Sys2Proof/Machine/Twin.lean ====
section
/-!
DEFINITION. Machine/Twin.lean: the Wick, what Flame sends, what Pilot does with it, self-check, standby health
(chapter 15).
-/
namespace Sys2Proof.Machine

/-- Whether the unit is of a pair (R377). -/
def Dev.paired (d : Dev) : Bool := d.on F.twinPaired

/-- Whether the unit holds the Wick: its own when unpaired, in role 1 when paired (R380). -/
def Dev.holdsWick (d : Dev) : Bool := decide (d.rd F.twinRole ≤ 1)

/-- TWIN.LEASE + 2 control cycles (R381). -/
def Dev.leaseWait (d : Dev) : Nat := (d.rd F.twinLease + 2) * d.cycle

/-- Whether an instant lies within a length of time before now. -/
def within (at_ : Option Nat) (now len : Nat) : Bool := match at_ with | some x => decide (now ≤ x + len) | none => false

/-- Whether a WICK from the partner has arrived within TWIN.LEASE + 2 control cycles. -/
def Dev.partnerWick (d : Dev) : Bool := within d.twin.wickAt d.now d.leaseWait

/-- Whether the partner's latest Pilot report shows it fit (R396 byte 13 bit 0). -/
def Dev.partnerFit (d : Dev) : Bool := byteAt d.twin.report 13 % 2 == 1

/-- Whether the unit is entitled to take the Wick (R381). -/
def Dev.entitled (d : Dev) : Bool :=
  (d.rd F.twinRole == 2 || d.rd F.twinRole == 3) && decide (d.rd F.stgGen ≠ 0) && !d.partnerWick &&
    (d.rd F.twinIndex == 0 || !within d.twin.frameAt d.now ticksSec
      || (d.twin.reportAt.isSome && !d.partnerFit))

/-- Whether the unit regards its partner as holding or entitled (R381). -/
def Dev.partnerHolds (d : Dev) : Bool :=
  d.paired && (d.partnerWick || (d.rd F.twinIndex == 1 && within d.twin.reportAt d.now ticksSec && d.partnerFit))

/-! ## The Wick (R382 to R385) -/

/-- Frames of the control types, which a Douse or a release drops or makes VOID (R186, R384). -/
def controlType (t : Nat) : Bool := t == 0x01 || t == 0x05 || t == 0x0A

/-- Drop the control frames that wait on a lane and void those held for replay, each counted in FRM.LATE (R186). -/
def Dev.dropControl (d : Dev) (l : Nat) : Dev :=
  let x := d.lane l
  let dropped := (x.wait.filter fun i => controlType i.ftype).length
  let voided := (x.held.filter fun h => controlType h.item.ftype && !h.void).length
  let held := x.held.map fun h => if controlType h.item.ftype then { h with void := true } else h
  let wait := x.wait.filter fun i => !controlType i.ftype
  let d := d.setLane l { x with wait := wait, held := held }
  (List.range (dropped + voided)).foldl (fun d _ => d.bumpWord 0x0212 (4 * l + 2)) d

/-- Take the Wick (R382): the new epoch is 1 + the largest held or seen. -/
def Dev.takeEpoch (d : Dev) : Dev :=
  d.wr F.twinEpoch ((max (d.rd F.twinEpoch) (max d.twin.wickEpoch d.twin.cellEpoch) + 1) % 2 ^ 32)

/-- A unit of a pair takes the Wick (R381, R382, R392): the epoch, role 1, event source 0x68. -/
def Dev.takeWick (d : Dev) : Dev :=
  let twin := { d.twin with holding := true, divEligible := false, divPending := false, released := false }
  let d := { d.takeEpoch with twin := twin }
  ((d.wr F.twinRole 1).wr F.twinEligible 0).raise 0x68

/-- An epoch seen by a unit that holds none of its own (R400): TWIN.EPOCH keeps the largest (log entry 140). -/
def Dev.sawEpoch (d : Dev) (epoch : Nat) : Dev :=
  if d.holdsWick then d else d.wr F.twinEpoch (max (d.rd F.twinEpoch) epoch)

/-- Raise the epoch by one before switching resumes after a Douse (R192, R383). -/
def Dev.raiseEpoch (d : Dev) : Dev := d.wr F.twinEpoch ((d.rd F.twinEpoch + 1) % 2 ^ 32)

/-- A WICK payload (R174). -/
def Dev.wickPayload (d : Dev) (expiry : Nat) : Bytes :=
  le 4 (d.rd F.twinEpoch) ++ le 8 expiry ++ le 2 d.nodeAddr ++ le 1 (d.rd F.twinIndex) ++ le 1 (d.rd F.twinLease)
    ++ le 8 d.now

/-- Step 4 of R12: issue the WICK (R382, R519). An unpaired unit takes its own at its first boundary after Light. In SNUFFED
LEASE_OUT stays low (R441, log entry 25). -/
def Dev.issueWick (d : Dev) : Dev :=
  if !d.holdsWick then d
  else
    let d := if d.rd F.twinRole = 0 && !d.twin.holding then
        { d.takeEpoch with twin := { d.twin with holding := true } } else d
    let expiry := d.now + d.rd F.twinLease * d.cycle
    let out := decide (d.mode ≠ .snuffed)
    let d := { d.wr64 F.twinExpiryLo F.twinExpiryHi expiry with twin := { d.twin with leaseOut := out } }
    let p := d.wickPayload expiry
    let d := (List.range d.cellLanes).foldl (fun d l => d.sendCell l 0x05 127 0 (some (d.now + d.cycle)) p) d
    if d.paired then
      d.queueFrame d.twinLane { ftype := 0x05, addr := 0xFFFF, dl := some (d.now + d.cycle), rank := 3, payload := p }
    else d

/-- Release the Wick (R384): role 6, control frames dropped, LEASE_OUT low, event source 0x69. -/
def Dev.releaseWick (d : Dev) : Dev :=
  let d := (List.range 55).foldl (fun d l => d.dropControl l) d
  let d := { d with twin := { d.twin with released := true, finalCopy := true, leaseOut := false } }
  let d := (d.wr F.twinRole 6).wr F.twinEligible 0
  (d.legsRefresh).raise 0x69

/-- A higher epoch has been seen (R385): source 0 a cell lane, 1 a twin lane. -/
def Dev.superseded (d : Dev) (src : Nat) : Dev := ((d.fault 24 src).raise 0x6F).releaseWick

/-- Role 5 (R380, R391): unfit. -/
def Dev.markUnfit (d : Dev) : Dev := ((d.wr F.twinRole 5).wr F.twinEligible 0).legsRefresh

/-- The self-check fails (R391, R398): Flame releases, any other unit takes role 5. -/
def Dev.checkFailed (d : Dev) (src : Nat) : Dev :=
  let d := d.fault 25 src
  if d.rd F.twinRole = 1 then d.releaseWick else if d.paired && d.rd F.twinRole != 6 then d.markUnfit else d

/-- A frame has arrived from the partner (R397). -/
def Dev.partnerHeard (d : Dev) : Dev := { d with twin := { d.twin with frameAt := some d.now, linkLost := false } }

/-! ## Eligibility (R394, R395) -/

/-- The conditions of R394, with their consequences for TWIN.ELIGIBLE and the role. -/
def Dev.eligibility (d : Dev) : Dev :=
  let r := d.rd F.twinRole
  if r ≠ 2 && r ≠ 3 then d.wr F.twinEligible 0
  else
    let match_ := d.rd F.twinCfgSum == d.rd F.twinFlameSum && d.on F.twinCopyFull
    let d := d.wr F.twinGenMatch (flag (d.rd F.twinCfgSum == d.rd F.twinFlameSum))
    let ok := match_ && d.on F.twinSelftestOk && d.on F.timeAcquired && !d.twin.divPending
    if ok then
      let d := d.wr F.twinEligible 1
      if r = 3 then (d.wr F.twinRole 2).raise 0x6E else d
    else
      let d := d.wr F.twinEligible 0
      if r = 2 && !d.on F.twinGenMatch then d.wr F.twinRole 3 else d

/-- Roles after a commit (R377, R380, R394, R399): a pair formed starts in role 3, a unit taken out of a pair in role 0, but for roles 5 and 6, which only a reset ends;
the U-holder is the unit whose U lane is enabled. -/
def Dev.twinCommit (d : Dev) : Dev :=
  let r := d.rd F.twinRole
  let d := if d.paired && r = 0 then d.wr F.twinRole 3 else if !d.paired && r != 0 && r != 5 && r != 6 then d.wr F.twinRole 0 else d
  let d := d.wr F.twinUHolder (flag (d.on F.laneEn laneU))
  if d.paired then d.eligibility else d

/-! ## What Flame sends (R386 to R388) -/

/-- One slot record (R387). -/
def Dev.slotRecord (d : Dev) (s : Nat) : Bytes :=
  let st := d.slotState s
  le 2 s ++ le 2 (d.rd F.loopSHeld s + 2 * d.rd F.loopSTracking s) ++ le 4 (d.rd F.loopEvalCount s)
    ++ le 8 (u64 st.integ) ++ le32s st.dState ++ le32s st.w ++ le32s st.yPrev ++ le32s st.out
    ++ (List.range (4 * min 4 (d.rd F.loopBqCount s))).flatMap fun k => le32s (st.bq.getD k 0)

/-- The rotating part (R387): whole records from a slot on, within 5,248 bytes, and the slots it holds. -/
def Dev.rotating (d : Dev) (first : Nat) : List Nat × Bytes :=
  let later := d.enabledSlots.filter fun s => decide (first ≤ s)
  let start := if later.isEmpty then d.enabledSlots else later
  start.foldl (fun (acc : List Nat × Bytes × Bool) s =>
    let r := d.slotRecord s
    if acc.2.2 && decide (acc.2.1.length + r.length ≤ 5248) then (acc.1 ++ [s], acc.2.1 ++ r, true)
    else (acc.1, acc.2.1, false)) ([], [], true) |> fun x => (x.1, x.2.1)

/-- Session 32 is open on this unit (R362). -/
def Dev.session32 (d : Dev) : Bool := (d.session 32).isOpen

/-- The state copy of the cycle with index k whose boundary was at an instant (R387), and the next rotating place. -/
def Dev.stateCopy (d : Dev) (k boundary : Nat) : Bytes × Nat :=
  let (slots, recs) := d.rotating d.twin.rotNext
  let last := match slots.getLast?, d.enabledSlots.getLast? with
    | some a, some b => a == b | none, none => true | _, _ => false
  let flags := flag d.twin.released + 2 * flag (d.twin.checkResult == 1) + 4 * flag (d.twin.checkResult == 2)
    + 8 * d.rd F.twinUHolder + 16 * flag d.session32
  let header := le 8 k ++ le 4 (d.rd F.stgGen) ++ le 4 (d.rd F.twinCfgSum) ++ le 4 (d.word 0x0002 0)
    ++ le 4 (d.rd F.twinEpoch) ++ le 8 (d.rd64 F.twinExpiryLo F.twinExpiryHi) ++ le 4 flags
    ++ le 2 (slots.headD 0) ++ le 2 slots.length ++ le 1 (flag last) ++ le 3 d.twin.revisions
    ++ le32s d.derateRatio ++ le 8 boundary ++ zeros 8
  let snap := d.engines.snap
  let inputs := (List.range 32).flatMap (fun n => le32s (snapSignal snap (2 * 8192 + n)))
    ++ (List.range 11).flatMap (fun i => le32s (snapSignal snap (4 * 8192 + i))) ++ zeros 20
  let cellIn := (List.range 96).flatMap fun s =>
    let x := tget (fun _ => (0, 0)) d.twin.cellInputs s
    le 8 x.1 ++ le 8 x.2
  let assign := (List.range 96).flatMap fun s =>
    le 1 (d.rd F.modCCarrier s) ++ le 1 (d.rd F.modCDab s) ++ le 1 (d.rd F.modCState s) ++ le 1 (d.rd F.modCHeld s)
      ++ le32s (d.cell s).share ++ le32s (d.cell s).trim
  (header ++ inputs ++ cellIn ++ assign ++ recs, if last then 0 else (slots.getLast?.getD 0) + 1)

/-- The twin lane of a frame of the twin rank (R298): alternating while both lanes are UP. -/
def Dev.twinLaneFor (d : Dev) (n : Nat) : Nat :=
  if d.laneUp 53 && d.laneUp 54 then 53 + n % 2 else d.twinLane

/-- Chunks of a state copy as frames (R387, R388). -/
def Dev.sendCopy (d : Dev) (k deadline : Nat) (copy : Bytes) : Dev :=
  let chunks := cut 240 copy
  chunks.zipIdx.foldl (fun d x =>
    let p := le 4 k ++ le 4 (d.rd F.stgGen) ++ le 2 x.2 ++ le 2 chunks.length ++ zeros 4 ++ x.1
    d.queueFrame (d.twinLaneFor x.2)
      { ftype := 0x0C, addr := 0xFFFF, dl := some deadline, rank := 4, payload := p }) d

/-- The cell lanes that carry a populated slot, one digest each (R386). -/
def Dev.digestLanes (d : Dev) : List Nat :=
  (List.range d.cellLanes).filter fun l => d.populated (2 * l) || d.populated (2 * l + 1)

/-- A rising list cut into runs of consecutive numbers. -/
def runsOf (xs : List Nat) : List (List Nat) :=
  xs.foldr (fun x acc => match acc with
    | (y :: r) :: t => if x + 1 = y then (x :: y :: r) :: t else [x] :: acc
    | _ => [x] :: acc) []

/-- The digests of a cycle as frames (R386, R388): at most 31 lanes a frame, consecutive lanes together. -/
def Dev.sendDigests (d : Dev) (k deadline : Nat) (ds : List (Nat × Nat)) : Dev :=
  let pieces := (runsOf d.digestLanes).flatMap fun r => piecesOf 31 r.length r
  pieces.zipIdx.foldl (fun d x =>
    let p := le 4 k ++ le 1 (x.1.headD 0) ++ le 1 x.1.length ++ [0, 0]
      ++ x.1.flatMap fun l => le 8 (tget (fun _ => 0) ds l)
    d.queueFrame (d.twinLaneFor x.2)
      { ftype := 0x0D, addr := 0xFFFF, dl := some deadline, rank := 4, payload := p }) d

/-- Step 8 of R12 for the cycle that ends (R388): the digests of what it built, none without an expansion (R386), then the copy;
after a release the copy of that cycle once more (R384). -/
def Dev.sendTwin (d : Dev) (k boundary : Nat) : Dev :=
  if d.paired && (d.rd F.twinRole = 1 || d.twin.finalCopy) && d.on F.timeAcquired then
    let deadline := boundary + 2 * d.cycle
    let (copy, rot) := d.stateCopy k boundary
    let digests := if d.sched.expanded = boundary + d.cycle then d.sched.digests else []
    let d := (d.sendDigests k deadline digests).sendCopy k deadline copy
    { d with twin := { d.twin with rotNext := rot, finalCopy := false, revisions := 0 } }
  else { d with twin := { d.twin with finalCopy := false, revisions := 0 } }

/-! ## Reception on Pilot (R389, R390) -/

/-- A chunk of a state copy (R174, R387): placed by CYCLE and CHUNK. -/
def Dev.copyChunk (d : Dev) (p : Bytes) : Dev :=
  let cycle := leAt p 0 4
  let c := match d.twin.copy with
    | some c => if c.cycle = cycle then c else { cycle := cycle, chunks := leAt p 10 2 }
    | none => { cycle := cycle, chunks := leAt p 10 2 }
  let c := { c with got := tset (fun _ => []) c.got (leAt p 8 2) (p.drop 16) }
  { d with twin := { d.twin with copy := some c } }

/-- A DIGEST frame (R174): placed by CYCLE and FIRST_LANE. -/
def Dev.digestFrame (d : Dev) (p : Bytes) : Dev :=
  let cycle := leAt p 0 4
  let old := if d.twin.digestCycle = cycle then d.twin.digests else []
  let new := (List.range (byteAt p 5)).foldl (fun t i => tset (fun _ => 2 ^ 64) t (byteAt p 4 + i) (leAt p (8 + 8 * i) 8)) old
  { d with twin := { d.twin with digestCycle := cycle, digests := new } }

/-- Whether copy and digests of one cycle are complete, and the copy's bytes. -/
def Dev.copyComplete (d : Dev) : Option (Nat × Bytes) :=
  match d.twin.copy with
  | none => none
  | some c =>
    if c.chunks ≠ 0 && decide (c.got.length = c.chunks) && decide (d.twin.digestCycle = c.cycle)
        && d.digestLanes.all (fun l => (tkeys d.twin.digests).contains l) then
      some (c.cycle, c.got.flatMap (·.2))
    else none

/-- The slot records of a copy: slot and bytes. -/
def copyRecords (bqOf : Nat → Nat) : Nat → Bytes → List (Nat × Bytes)
  | 0, _ => []
  | fuel + 1, bs =>
    if bs.length < 32 then []
    else
      let s := leAt bs 0 2
      let len := 32 + 16 * bqOf s
      (s, bs.take len) :: copyRecords bqOf fuel (bs.drop len)

/-- Adopt a slot record (R389 step 5). Where Flame has evaluated the slot and this unit has not, its reset and action are spent. -/
def Dev.adoptRecord (d : Dev) (r : Nat × Bytes) : Dev :=
  let s := r.1
  let so := 0x0700 + s
  let integ := sN 64 (leAt r.2 8 8)
  let again := decide (leAt r.2 4 4 ≠ d.word so 1)
  let d := (d.wr F.loopSHeld (leAt r.2 2 2 % 2) s).wr F.loopSTracking (leAt r.2 2 2 / 2 % 2) s
  let d := d.setWord so 1 (leAt r.2 4 4)
  let d := (d.setWord so 4 (u32 (Int.fdiv integ (2 ^ 28)))).setWord so 5 (Int.emod integ (2 ^ 28)).toNat
  let d := (((d.setWord so 7 (leAt r.2 16 4)).setWord so 9 (leAt r.2 20 4)).setWord so 8 (leAt r.2 24 4)).setWord so 2
    (leAt r.2 28 4)
  let d := if again then d.setLoop s { d.loop s with fresh := false, action := 0 } else d
  (List.range ((r.2.length - 32) / 4)).foldl (fun d k => d.setWord so (10 + k) (leAt r.2 (32 + 4 * k) 4)) d

/-- Session 32 and GRP.U_STATE of a unit with no U lane of its own, as its partner reports session 32 (R362, R371). -/
def Dev.partnerSession (d : Dev) : Dev :=
  if d.on F.laneEn laneU then d
  else if d.group.partnerOpen then
    let d := if d.session32 then d
      else d.setSession 32 { d.session 32 with isOpen := true, auth := d.rd F.cmdParentMaxAuth }
    if d.rd F.grpUState = 0 then d.wr F.grpUState 1 else d
  else if d.session32 then d.closeSession 32 else d

/-- The header of a copy kept (R389 step 1, R395, R371): where Flame has come to a switching mode from another, every slot is reset
at its first evaluation here too (R267). -/
def Dev.copyHeader (d : Dev) (bs : Bytes) : Dev :=
  let flags := leAt bs 32 4
  let switches (m : Nat) : Bool := match modeOf m with | some m => m.switching | none => false
  let d := if switches (leAt bs 16 4 % 16) && !switches d.twin.copyMode then
      d.enabledSlots.foldl (fun d s => d.setLoop s { d.loop s with fresh := true }) d else d
  let d := (d.wr F.twinFlameGen (leAt bs 8 4)).wr F.twinFlameSum (leAt bs 12 4)
  let d := { d with
    twin := { d.twin with
      copyMode := leAt bs 16 4 % 16, flameResult := if flags.testBit 1 then 1 else if flags.testBit 2 then 2 else 0 }
    group := { d.group with partnerOpen := flags.testBit 4 } }
  d.partnerSession

/-- The SAMPLE with an instant that this unit received of a slot. -/
def Dev.heardSample (d : Dev) (slot at_ : Nat) : Option Heard :=
  d.twin.heard.find? fun h => h.slot == slot && h.at_ == at_

/-- The inputs of a replay (R389 steps 1 to 3): the assignment, the cell values the copy names, and the slots whose
SAMPLE this unit lacks. -/
def Dev.replayInputs (d : Dev) (bs : Bytes) : Dev × List Nat :=
  (List.range d.cellSlots).foldl (fun (acc : Dev × List Nat) s =>
    let d := acc.1
    let snapAt := leAt bs (256 + 16 * s) 8
    let useAt := leAt bs (264 + 16 * s) 8
    let a := 1792 + 12 * s
    let c := d.cell s
    let lacks := (snapAt != 0 && (d.heardSample s snapAt).isNone) || (useAt != 0 && (d.heardSample s useAt).isNone)
    let values := match d.heardSample s snapAt with
      | some h => h.values.zipIdx.map fun x => (x.2, x.1)
      | none => c.values
    let u := match d.heardSample s useAt with | some h => h.values.headD c.u | none => c.u
    let st := byteAt bs (a + 2)
    let stage := if st = 2 || st = 3 || st = 4 then st else 1
    let d := d.setCell s { c with
      values := values, u := u, stage := stage, share := s32 (leAt bs (a + 4) 4), trim := s32 (leAt bs (a + 8) 4) }
    let d := (((d.wr F.modCCarrier (byteAt bs a) s).wr F.modCDab (byteAt bs (a + 1)) s).wr F.modCState st s).wr F.modCHeld
      (byteAt bs (a + 3)) s
    (d, if lacks then acc.2 ++ [s] else acc.2)) (d, [])

/-- The snapshot of the replayed cycle (R389): class 2 and class 4 from the copy, the rest as this unit holds them. -/
def Dev.replaySnapshot (d : Dev) (bs : Bytes) (boundary : Nat) : Dev :=
  let sig (sel : Nat) : Int :=
    let i := selIndex sel
    match selClass sel with
    | 2 => s32 (leAt bs (64 + 4 * i) 4)
    | 4 => s32 (leAt bs (192 + 4 * i) 4)
    | _ => d.signal sel boundary
  let snap := (d.signalSelectors.map fun sel => (sel, sig sel)).filter fun e => decide (e.2 ≠ 0)
  { d with engines := { d.engines with
      prev := d.engines.snap, prevAt := d.engines.snapAt, snap := snap, snapAt := boundary,
      snaps := min 2 (d.engines.snaps + 1) } }

/-- Evaluate the replayed cycle of index k (R389 step 2) as the engines evaluated it, on a clock of its own that starts at its boundary:
the due regular slots, then the fast-path triggers of the cycle in instant order. The block's own evaluations stand aside. -/
def Dev.replaySlots (d : Dev) (k boundary : Nat) (derate : Int) : Dev :=
  let own := d.engines
  let now := d.clock.now
  let mine (x : Nat × Nat) : Bool := decide (x.2 < boundary + d.cycle)
  let fast := (sortBy (fun x : Nat × Nat => ((x.2 : Nat) : Int)) (own.triggers.filter mine)).filter fun x =>
    selClass (d.rd F.loopFSel x.1) != 2
  let at_ (d : Dev) (t : Nat) : Dev := { d with clock := { d.clock with now := t } }
  let d := at_ { d with
    derate := some derate
    engines := { own with
      cycle := k, jobs := d.dueJobs k, fast := [], busy := [], schedAt := none, late := []
      triggers := own.triggers.filter fun x => !mine x } } boundary
  let d := d.engineTo (boundary + 2 ^ 32)
  let d := fast.foldl (fun d x => ((at_ d x.2).fastTrigger x.1 x.2).engineTo (x.2 + 2 ^ 32)) d
  at_ { d with
    derate := none
    engines := { d.engines with
      cycle := own.cycle, jobs := own.jobs, fast := own.fast, busy := own.busy, schedAt := own.schedAt, late := own.late } } now

/-- Expand the replayed cycle whose next boundary is e with the copied assignment (R389 step 4), the references read at that cycle's
schedule point (R266): its digests. -/
def Dev.replayExpand (d : Dev) (e : Nat) : Dev :=
  let d := { d with sched := { d.sched with expanded := e, digests := [], counts := [] } }
  let dr := d.drive
  let t := e - d.cycle + d.schedTicks
  let dabCells := (d.enabledArms.filter fun a => d.on F.modArmDabEn a).flatMap d.activeOf
  let x : Expansion := d.enabledArms.foldl (fun x a => x.arm dr e t dabCells.length dabCells false a) { d := d }
  let x := x.bypassed e
  let frames := x.d.bypassFrames e
  let index := x.d.boundaryIndex e % 65536
  let d := x.d.scheduleLanes.foldl (fun d l => d.sendLane x.entries frames e index l) x.d
  { d with sched := { d.sched with firstEpoch := false, offNow := false } }

/-- Adopt the records of a copy (R389 step 5). -/
def Dev.adopt (d : Dev) (bs : Bytes) : Dev :=
  (copyRecords (fun s => min 4 (d.rd F.loopBqCount s)) 256 (bs.drop 2944)).foldl (fun d r => d.adoptRecord r) d

/-- A divergence with both self-checks passed (R391, R398): recorded; Pilot adopts again from a new round. -/
def Dev.divergenceRecorded (d : Dev) : Dev :=
  let d := { d with twin := { d.twin with divPending := false, waitRound := true, inRound := false } }
  (d.wr F.twinCopyFull 0).fault 26 0

/-- What follows once Pilot's own check has passed during a divergence (R391): by Flame's result. -/
def Dev.divergenceResolve (d : Dev) : Dev :=
  if d.twin.divPending && d.twin.checkResult == 1 && !d.twin.checking then
    if d.twin.flameResult = 1 then d.divergenceRecorded
    else if d.twin.flameResult = 2 then { d with twin := { d.twin with divEligible := true } }
    else d
  else d

/-- The Pilot report (R396). -/
def Dev.pilotReport (d : Dev) : Bytes :=
  let r := d.rd F.twinRole
  let fit := r = 2 || r = 3
  let bits := flag fit + 2 * d.rd F.twinEligible + 4 * d.rd F.twinGenMatch + 8 * d.rd F.twinCopyFull
    + 16 * d.rd F.twinSelftestOk + 32 * flag d.twin.divPending + 64 * d.rd F.twinUHolder + 128 * flag d.session32
  le 8 d.now ++ le 4 d.twin.reportSeq ++ le 1 r ++ le 1 bits ++ le 1 d.twin.checkResult ++ [0]
    ++ le 4 (d.rd F.twinFlameGen) ++ le 4 (d.rd F.twinCfgSum) ++ le 4 d.twin.repCompared ++ le 4 d.twin.repMismatch
    ++ le 4 d.twin.repUnverified ++ le 4 d.twin.slices ++ le 4 d.twin.sliceFails ++ le 4 d.twin.repCorrected
    ++ le 4 d.twin.repLoopback

/-- Send a Pilot report in a HEALTH frame on T0 (R396). -/
def Dev.sendReport (d : Dev) : Dev :=
  if d.paired && !d.holdsWick then
    let p := d.pilotReport
    let tw := { d.twin with
      ownReport := p, reportSeq := (d.twin.reportSeq + 1) % 2 ^ 32, repCompared := 0, repMismatch := 0
      repUnverified := 0, repCorrected := 0, repLoopback := 0 }
    let d := { d with twin := tw }.wr F.twinPilotAt (d.now % 2 ^ 32)
    d.queueFrame d.twinLane { ftype := 0x0B, addr := 0xFFFF, rank := 4, payload := p }
  else d

/-- Three mismatches in a row (R391): a divergence. -/
def Dev.diverge (d : Dev) : Dev :=
  let d := (d.wr F.twinDiverged 1).bumpWord 0x0E02 4
  let tw := { d.twin with divPending := true, checking := true, checkAt := d.now, checkResult := 0, flameResult := 0 }
  ({ d with twin := tw }.sendReport).raise 0x6B

/-- The outcome of a compared cycle (R390, R391). -/
def Dev.compareOutcome (d : Dev) (lacking : List Nat) : Dev :=
  let skip (l : Nat) : Bool := lacking.any fun s => laneOfSlot s == l
  let lanes := (List.range d.cellLanes).filter fun l => !skip l
  let mine (l : Nat) : Nat := tget (fun _ => 0) d.sched.digests l
  let theirs (l : Nat) : Nat := tget (fun _ => 0) d.twin.digests l
  let bad := lanes.filter fun l => mine l != theirs l
  if !lacking.isEmpty && bad.isEmpty then
    { d.bumpWord 0x0E02 2 with twin := { d.twin with repUnverified := d.twin.repUnverified + 1 } }
  else
    let d := d.bumpWord 0x0E02 0
    let d := { d with twin := { d.twin with repCompared := d.twin.repCompared + 1 } }
    if bad.isEmpty then d.wr F.twinDivRun 0
    else
      let d := bad.foldl (fun d l => d.bumpWord 0x0E03 l) (d.bumpWord 0x0E02 1)
      let d := ({ d with twin := { d.twin with repMismatch := d.twin.repMismatch + 1 } } : Dev).raise 0x6A
      let run : Nat := d.rd F.twinDivRun + 1
      let d := d.wr F.twinDivRun (min 3 run)
      if run = 3 then d.diverge else d

/-- PILOT_REPLAY (R389, R390): the copy in hand is complete. While Pilot waits for a round it only adopts, from a copy
that begins one on. -/
def Dev.replay (d : Dev) : Dev :=
  match d.copyComplete with
  | none => d
  | some (cycle, bs) =>
    let d := d.copyHeader bs
    let d := { d with twin := { d.twin with copy := none, replayed := some cycle } }
    let lastOfRound := byteAt bs 40 % 2 == 1
    let begins := leAt bs 36 2 == d.enabledSlots.headD 0
    if d.twin.waitRound then
      if begins || d.twin.inRound then
        let d := d.adopt bs
        { d with twin := { d.twin with inRound := !lastOfRound, waitRound := !lastOfRound } }
      else d
    else
      let boundary := leAt bs 48 8
      let k := leAt bs 0 8
      let before := d.twin.replaying
      let d := { d with twin := { d.twin with replaying := true } }
      let (d, lacking) := d.replayInputs bs
      let d := d.replaySnapshot bs boundary
      let d := d.replaySlots k boundary (s32 (leAt bs 44 4))
      let d := d.replayExpand (boundary + d.cycle)
      let d := { d with twin := { d.twin with replaying := before } }
      let d := d.compareOutcome lacking
      let d := d.wr F.twinCopyFull 1
      (if d.twin.divPending then d else d.adopt bs).divergenceResolve.eligibility

/-- A boundary on a unit without the Wick (R390): the copy of two cycles ago missed. -/
def Dev.copyMissed (d : Dev) (k : Nat) : Dev :=
  if d.paired && !d.holdsWick && decide (2 ≤ k) && decide (d.twin.replayed ≠ some ((k - 2) % 2 ^ 32)) then
    let d := (d.bumpWord 0x0E02 3).wr F.twinCopyFull 0
    { d with twin := { d.twin with waitRound := true, inRound := false, repUnverified := d.twin.repUnverified + 1 } }.eligibility
  else d

/-! ## Takeover (R392) -/

/-- The first two conditions of R392. -/
def Dev.leaseRanOut (d : Dev) : Bool :=
  (d.on F.twinEligible || d.twin.divEligible) && d.twin.wickAt.isSome && decide (d.twin.wickExpiry + 2 * d.cycle ≤ d.now)

/-- The third condition of R392: no cell has taken a sample under Flame's epoch since the expiry. -/
def Dev.cellsQuiet (d : Dev) : Bool :=
  !(d.twin.cellSeen.any fun x => decide (d.twin.wickExpiry ≤ x.2.1) && decide (d.twin.wickEpoch ≤ x.2.2))

/-- The twin link is lost, or Flame still acts (R392, R397). -/
def Dev.linkLost (d : Dev) : Dev := ({ d with twin := { d.twin with linkLost := true } }.fault 27 0).raise 0x6D

/-! ## The meanings of chapter 15's events -/

/-- PILOT_REPLAY (R389). -/
def execPilotReplay (t : Nat) (s : State) : Host.Outcome State Fault Refusal :=
  event t s fun d => if d.paired && !d.holdsWick then d.replay else d

/-- SELFTEST_DONE (R391, R394): the result of a self-check that runs. -/
def execSelftestDone (t : Nat) (passed : Bool) (s : State) : Host.Outcome State Fault Refusal :=
  event t s fun d =>
    if !d.twin.checking then d
    else
      let result := if passed then 1 else 2
      let d := { d with twin := { d.twin with checking := false, checkResult := result } }
      let d := (d.wr F.twinSelftestOk (flag passed)).raise 0x6C
      let d := if d.twin.divPending then d.sendReport else d
      let d := if passed then d else d.checkFailed 0
      d.divergenceResolve.eligibility

/-- FLAME_SELFTEST_TIMEOUT (R391): Pilot treats Flame as failed and becomes eligible. -/
def execFlameSelftestTimeout (t : Nat) (s : State) : Host.Outcome State Fault Refusal :=
  event t s fun d =>
    if d.twin.divPending && d.twin.flameResult == 0 && d.twin.checkResult == 1
        && decide (d.twin.checkAt + 5 * ticksMs ≤ d.now) then
      { d with twin := { d.twin with divEligible := true } }
    else d

/-- TEST_SLICE (R396): one logic test slice of a unit without the Wick. -/
def execTestSlice (t : Nat) (passed : Bool) (s : State) : Host.Outcome State Fault Refusal :=
  event t s fun d =>
    if d.paired && !d.holdsWick then
      let d := { d with twin := { d.twin with slices := d.twin.slices + 1, nextSlice := (d.twin.nextSlice + 1) % 64 } }
      if passed then d
      else { d.bumpWord 0x0E02 5 with twin := { d.twin with sliceFails := d.twin.sliceFails + 1 } }.checkFailed 1
    else d

/-- PILOT_REPORT_SEND (R396). -/
def execPilotReportSend (t : Nat) (s : State) : Host.Outcome State Fault Refusal := event t s fun d => d.sendReport

/-- STANDBY_LOOPBACK_TEST (R396): loopback kind 2 on every present lane with LANE.EN 0; the lanes that showed errors. -/
def execStandbyLoopbackTest (t : Nat) (failed : BitVec 55) (s : State) : Host.Outcome State Fault Refusal :=
  event t s fun d =>
    if d.paired && !d.holdsWick then
      let n := ((List.range 55).filter fun l => d.lanePresent l && !d.on F.laneEn l && failed.getLsbD l).length
      { d with twin := { d.twin with repLoopback := d.twin.repLoopback + n } }
    else d

/-- TWIN_LINK_LOST (R397): both twin lanes down, or nothing heard for TWIN.LEASE + 2 control cycles. -/
def execTwinLinkLost (t : Nat) (s : State) : Host.Outcome State Fault Refusal :=
  event t s fun d =>
    if d.paired && !d.twin.linkLost
        && ((!d.laneUp 53 && !d.laneUp 54) || !within d.twin.frameAt d.now d.leaseWait) then d.linkLost
    else d

/-- LEASE_EXPIRY (R378). -/
def execLeaseExpiry (t : Nat) (s : State) : Host.Outcome State Fault Refusal :=
  event t s fun d =>
    if d.twin.leaseOut && decide (d.rd64 F.twinExpiryLo F.twinExpiryHi ≤ d.now) then
      { d with twin := { d.twin with leaseOut := false } }
    else d

end Sys2Proof.Machine
end

