-- ==== Sys2Proof/Machine/Lanes.lean ====
section
/-!
DEFINITION. Machine/Lanes.lean: the lanes (chapters 6 and 7): bring-up, power states, the transmitter, acknowledgement
and replay, the reception of a frame.
-/
namespace Sys2Proof.Machine

/-! ## Lane states (R151) -/

def lsDisabled : Nat := 0
def lsDetect : Nat := 1
def lsHunt : Nat := 2
def lsExchange : Nat := 3
def lsSwitch : Nat := 4
def lsVerify : Nat := 5
def lsFallback : Nat := 6
def lsUp : Nat := 7
def lsLpIdle : Nat := 8
def lsRehunt : Nat := 9
def lsLoopback : Nat := 10
def lsFailed : Nat := 11

def Dev.laneTime (d : Dev) (l : Nat) : LaneTime := tget (fun _ => {}) d.laneTimes l

def Dev.setLaneTime (d : Dev) (l : Nat) (x : LaneTime) : Dev :=
  { d with laneTimes := tset (fun _ => {}) d.laneTimes l x }

/-- Whether a lane leads to a cell or to the partner (R154). -/
def cellOrTwin (l : Nat) : Bool := decide (l < 48) || l == 53 || l == 54

/-- MANAGE messages under reassembly on a lane are discarded (R175, R181). -/
def Dev.dropReasm (d : Dev) (l : Nat) : Dev :=
  let n := (d.reasm.filter fun r => r.lane == l).length
  let d := { d with reasm := d.reasm.filter fun r => r.lane != l }
  (List.range n).foldl (fun d _ => d.raise 0x16) d

/-- The frame layer of a lane that leaves UP for DETECT (R181): everything waiting or held is gone, each with a deadline
counted in FRM.LATE, and both directions stand at SEQ 0. -/
def Dev.clearFrames (d : Dev) (l : Nat) : Dev :=
  let x := d.lane l
  let late := (x.wait.filter fun i => i.dl.isSome).length + (x.held.filter fun h => h.item.dl.isSome && !h.void).length
  let d := d.setLane l { x with
    wait := [], held := [], replay := [], retries := 0, ackDue := none, nakDue := none, naked := none, again := none,
    sending := none, inset := none, waking := false, douseLeft := 0 }
  let d := ((d.wr F.frmTxNext 0 l).wr F.frmTxAcked 0xFF l).wr F.frmRxExpect 0 l
  ((d.bumpBy F.frmLate late l).wr F.frmReplayFill 0 l).dropReasm l

/-- What the entry of U or a D lane to UP shows in GRP.U_STATE and GRP.D_STATE (R368 to R370; log entry 43). -/
def Dev.treeUp (d : Dev) (l : Nat) : Dev :=
  if l = laneU then
    let d := { d with group := { d.group with heardAt := d.now } }
    if d.rd F.grpUState = 0 then d.wr F.grpUState 1 else d
  else if 49 ≤ l && l < 53 then
    let n := l - 49
    if d.rd F.grpDState n ≤ 1 then (d.setChild n { d.child n with reportAt := d.now }).wr F.grpDState 2 n else d
  else d

/-- What it does to the tree that U or a D lane leaves UP for DETECT (R368, R370). -/
def Dev.treeDown (d : Dev) (l : Nat) : Dev :=
  if l = laneU then d.parentGone else if 49 ≤ l && l < 53 then d.childLost (l - 49) else d

/-- GRP.U_STATE and GRP.D_STATE of a lane that a commit enables or disables (log entry 43). -/
def Dev.treeEnable (d : Dev) (l : Nat) (on : Bool) : Dev :=
  if l = laneU then (if on then d else d.wr F.grpUState 0)
  else if 49 ≤ l && l < 53 then (if on then d.wr F.grpDState 1 (l - 49) else d.wr F.grpDState 0 (l - 49))
  else d

/-- A lane leaves its state for another (R154, R181): from UP, LP_IDLE or REHUNT it raises event source 0x11, and on a
cell or twin lane in a switching mode the class "lane lost". -/
def Dev.leaveUp (d : Dev) (l : Nat) : Dev :=
  if d.laneLinked l then
    let d := (d.clearFrames l).raise 0x11
    if cellOrTwin l && d.mode.switching then d.fault 6 l else d
  else d

/-- The receiver of a lane has no block lock any more (R148): U closes session 32 (R103), and a recovered reference in use falls back
(R69). -/
def Dev.unlock (d : Dev) (l : Nat) : Dev :=
  let held := d.on F.laneLocked l
  let d := d.wr F.laneLocked 0 l
  if l = laneU && held then (if d.session32 then d.closeSession 32 else d).refFallback else d

/-- Whether a lane is the source that TIME.SRC names (R201). -/
def Dev.isSource (d : Dev) (l : Nat) : Bool :=
  match d.rd F.timeSrc with
  | 1 => l == 48
  | 2 => l == 53 || (l == 54 && !d.laneUp 53)
  | _ => false

/-- Whether the source lane is UP (R201, R203). U asleep in LP_IDLE is a lane that has lost nothing (log entry 169). -/
def Dev.sourceUp (d : Dev) : Bool :=
  match d.rd F.timeSrc with
  | 1 => d.laneUp laneU || d.laneState laneU == lsLpIdle
  | 2 => d.laneUp 53 || d.laneUp 54
  | _ => true

/-- The time source is lost (R203): once, until a valid sample comes. -/
def Dev.sourceLost (d : Dev) : Dev :=
  if d.rd F.timeSrc = 0 || d.on F.timeHoldover then d
  else ((((d.wr F.timeRate (d.rd F.timeFreq)).wr F.timeHoldover 1).wr F.timeSrcLost 1).raise 0x1A).fault 8 0

/-- A lane has left UP, which may be the time source (R203). -/
def Dev.sourceGone (d : Dev) : Dev := if d.sourceUp then d else d.sourceLost

/-- A lane enters DETECT (R150, R153): rate 0x0, no lock, a new bring-up with a cut of the rates of R156. -/
def Dev.enterDetect (d : Dev) (l cut : Nat) : Dev :=
  let x := d.lane l
  let d := d.setLane l { x with
    verified := 0, mask := 0, target := 7, cut := cut, fallback := false, quiet := false, atNew := false, seen := 0, run := 0,
    passed := false, farHeard := false, ready := false, toSend := 0, limited := false, sending := none, inset := none }
  ((((d.wr F.laneState lsDetect l).wr F.laneRate 0 l).unlock l).wr F.laneLoopback 0 l).sourceGone

/-- Restart a lane from DETECT (R150, R157). -/
def Dev.restartLane (d : Dev) (l : Nat) : Dev :=
  let d' := (d.leaveUp l).enterDetect l 31
  if d.laneLinked l then d'.treeDown l else d'

/-- A lane enters DISABLED (R150). -/
def Dev.disableLane (d : Dev) (l : Nat) : Dev :=
  let d := d.leaveUp l
  let d := d.setLane l { d.lane l with limited := false, quiet := false, sending := none, inset := none }
  ((((d.wr F.laneState lsDisabled l).wr F.laneRate 7 l).unlock l).wr F.laneLoopback 0 l).sourceGone

/-- A loopback ends (R161): the lane restarts from DETECT, or is off again where it is not enabled. -/
def Dev.endLoopback (d : Dev) (l : Nat) : Dev :=
  if d.laneState l != lsLoopback then d
  else if d.on F.laneEn l then d.restartLane l
  else d.disableLane l

/-- Lanes at a boundary after its commit (R150, R157): those whose LANE.EN or LANE.RATE_EN changed, and those whose retrain is due,
restart once, with the committed mask. -/
def Dev.lanesCommit (d : Dev) (old : Dev) : Dev :=
  (List.range 55).foldl (fun d l =>
    let changed := d.rd F.laneEn l != old.rd F.laneEn l || d.rd F.laneRateEn l != old.rd F.laneRateEn l
    let due := (d.lane l).restartDue
    if !(changed || due) || !d.lanePresent l then d
    else
      let d := if due then d.setLane l { d.lane l with restartDue := false } else d
      if d.on F.laneEn l then
        (if old.on F.laneEn l then d.restartLane l else (d.restartLane l).treeEnable l true)
      else if old.on F.laneEn l then (d.disableLane l).treeEnable l false
      else d) d

/-- An attempt fails (R153): back to DETECT, or FAILED from the third consecutive one on (log entry 24). -/
def Dev.attemptFails (d : Dev) (l : Nat) : Dev :=
  let n := min 15 (d.rd F.laneAttempts l + 1)
  let d := ((d.leaveUp l).wr F.laneAttempts n l).enterDetect l (d.lane l).cut
  if 3 ≤ n then
    ((d.setLane l { d.lane l with failedAt := d.up }).wr F.laneState lsFailed l).wr F.laneRate 7 l
  else d

/-! ## Bring-up (R152) -/

/-- Whether a mask of rate codes holds a rate. -/
def hasRate (mask r : Nat) : Bool := mask.testBit r

/-- The lowest rate of a mask above another (R152 step 3). -/
def nextRate (mask r : Nat) : Option Nat := (List.range 5).find? fun x => decide (r < x) && hasRate mask x

/-- The highest rate of a mask. -/
def topRate (mask : Nat) : Nat := ((List.range 5).filter (hasRate mask)).getLast?.getD 0

/-- The phase of the TRAIN blocks a lane sends (R147, R151): in a HUNT that of the step it belongs to (log entry 149). -/
def Dev.trainPhase (d : Dev) (l : Nat) : Nat :=
  let x := d.lane l
  let st := d.laneState l
  if st == lsSwitch then 2
  else if st == lsVerify then (if x.ready then 5 else 3)
  else if st == lsFallback then 4
  else if st == lsHunt then (if x.fallback then 4 else if x.atNew then 2 else 1)
  else 1

/-- The ROLE this Filua states on a lane (R147). -/
def ownRole (l : Nat) : Nat := if l < 48 then 1 else if l = 48 then 2 else if l < 53 then 3 else 4

/-- A control block of seven bytes with its check byte (R147). -/
def controlBlock (bs : Bytes) : Bytes := bs ++ [checkByte bs]

/-- The TRAIN block a lane sends next (R147). -/
def Dev.ownTrain (d : Dev) (l : Nat) : Bytes :=
  let x := d.lane l
  let st := d.laneState l
  let rate := if st == lsSwitch then x.target else if st == lsFallback then x.verified else d.rd F.laneRate l
  controlBlock [0x10, BitVec.ofNat 8 (d.trainPhase l + 16 * flag (decide (8 ≤ x.run))),
    BitVec.ofNat 8 (d.rd F.laneRateEn l &&& x.cut), BitVec.ofNat 8 rate, BitVec.ofNat 8 (ownRole l), BitVec.ofNat 8 l,
    BitVec.ofNat 8 x.txCount]

/-- The frame layer starts anew (R176): both directions at SEQ 0. -/
def Dev.startFrames (d : Dev) (l : Nat) : Dev :=
  let x := d.lane l
  let d := d.setLane l { x with held := [], replay := [], retries := 0, ackDue := none, nakDue := none, naked := none,
                                lastFrameAt := d.up }
  let d := ((d.wr F.frmTxNext 0 l).wr F.frmTxAcked 0xFF l).wr F.frmRxExpect 0 l
  (d.wr F.frmReplayFill 0 l).setLaneTime l {}

/-- READY has been sent and the lane enters UP (R152 step 4, R153), at its ceiling after a FALLBACK. -/
def Dev.enterUp (d : Dev) (l : Nat) : Dev :=
  let x := d.lane l
  let limited := x.fallback && decide (x.verified < topRate x.mask)
  let d := d.setLane l { x with
    fallback := false, atNew := false, seen := 0, passed := false, farHeard := false, ready := false, limited := limited }
  let d := ((d.wr F.laneState lsUp l).wr F.laneAttempts 0 l).startFrames l
  let d := (d.raise 0x10).treeUp l
  if limited then (d.wr F.laneRateLimited 1 l).raise 0x12 else d

/-- The rate rule of the twin lanes (R156). -/
def Dev.twinRate (d : Dev) (l : Nat) : Dev :=
  let other := 107 - l
  if (l == 53 || l == 54) && d.laneUp other && decide (d.rd F.laneRate other < d.rd F.laneRate l) then
    (d.clearFrames l).enterDetect l (2 ^ (d.rd F.laneRate other + 1) - 1)
  else d

/-- The next step of bring-up at a verified rate (R152 steps 3 and 4): SWITCH to the next rate with 16 blocks, or 8 READY blocks in
VERIFY (log entry 149). -/
def Dev.stepUp (d : Dev) (l : Nat) : Dev :=
  let x := d.lane l
  match if x.fallback then none else nextRate x.mask (d.rd F.laneRate l) with
  | some r =>
    (d.setLane l { x with target := r, seen := 0, run := 0, quiet := false, passed := false, farHeard := false, toSend := 16,
                          stepAt := d.up }).wr F.laneState lsSwitch l
  | none => (d.setLane l { x with ready := true, run := 0, toSend := 8 }).wr F.laneState lsVerify l

/-- VERIFY passes (R152 step 3): the rate becomes the last verified one. -/
def Dev.verifyDone (d : Dev) (l : Nat) : Dev :=
  let x := d.lane l
  if d.laneState l == lsVerify && !x.ready && x.passed && x.farHeard then
    (d.setLane l { x with verified := d.rd F.laneRate l, atNew := false }).stepUp l
  else d

/-- The count of VERIFY starts again (R152 step 3): a block in it was no good. -/
def Dev.verifyAgain (d : Dev) (l : Nat) : Dev :=
  if d.laneState l == lsVerify then d.setLane l { d.lane l with passed := false, verifyFrom := d.up } else d

/-- The instant from which 1,024 blocks of the far end may have arrived since the count of VERIFY began (R144, R152): its frequency is
at most 200 ppm high. -/
def Dev.verifyDue (d : Dev) (l : Nat) : Nat := (d.lane l).verifyFrom + 1024 * blockTime (d.rd F.laneRate l) * 9998 / 1000000

/-- The quiet time begins (R152, R153, R163): no signal, no lock, the serialiser at the rate it goes to. -/
def Dev.goQuiet (d : Dev) (l rate : Nat) : Dev :=
  let d := d.setLane l { d.lane l with quiet := true, quietAt := d.up, run := 0, sending := none }
  (d.wr F.laneRate rate l).unlock l

/-- SWITCH ends once its 16 blocks are sent and 4 of the far end's propose the same rate (R152 step 3). -/
def Dev.switchDone (d : Dev) (l : Nat) : Dev :=
  let x := d.lane l
  if d.laneState l == lsSwitch && !x.quiet && decide (x.toSend = 0) && decide (4 ≤ x.seen) then d.goQuiet l x.target else d

/-- The ROLE a lane expects of its far end (R152). -/
def farRole (l : Nat) : Nat := if l < 48 then 0 else if l = 48 then 3 else if l < 53 then 2 else 4

/-- EXCHANGE ends with 8 valid blocks with HEARD (R152 step 2, R187). -/
def Dev.exchangeDone (d : Dev) (l port : Nat) : Dev :=
  if d.rd F.laneFarRole l ≠ farRole l then ((d.wr F.laneRoleMismatch 1 l).raise 0x13).attemptFails l
  else
    let x := d.lane l
    let mask := d.rd F.laneFarCaps l &&& d.rd F.laneRateEn l &&& x.cut
    let d := d.setLane l { x with mask := mask }
    let crossed := decide (l < 48) && port != (if d.hasTwin then d.rd F.twinIndex else 0)
    let d := if crossed then (d.wr F.frmPortCrossed 1 l).raise 0x17 else d
    d.stepUp l

/-- A TRAIN block of valid fields (R147). -/
def trainValid (phase caps role : Nat) : Bool :=
  decide (1 ≤ phase % 16) && decide (phase % 16 ≤ 5) && decide (phase < 32) && decide (caps < 32) && decide (role ≤ 4)

/-- Consecutive valid TRAIN blocks of the present phase, for HEARD (R147): once 8 have come it stays heard for this phase. -/
def Dev.noteTrain (d : Dev) (l ph : Nat) : Dev :=
  let x := d.lane l
  if 8 ≤ x.run then d else d.setLane l { x with run := if ph = d.trainPhase l then x.run + 1 else 0 }

/-- A TRAIN block that is no good (R146, R147, R152): EXCHANGE and VERIFY count again. -/
def Dev.badTrain (d : Dev) (l : Nat) : Dev :=
  let x := d.lane l
  (d.setLane l { x with seen := if d.laneState l == lsExchange then 0 else x.seen, run := if 8 ≤ x.run then x.run else 0 }).verifyAgain l

/-- A TRAIN block of good check is received (R147, R152, R153). -/
def Dev.trainBlock (d : Dev) (l phase caps rate role port : Nat) : Dev :=
  let st := d.laneState l
  let ph := phase % 16
  let heard := phase / 16 % 2 == 1
  if !trainValid phase caps role then d.badTrain l
  else if st == lsUp && ph == 1 then d.restartLane l
  else
    let d := d.noteTrain l ph
    let x := d.lane l
    if st == lsExchange then
      if ph = 1 then
        let d := (d.wr F.laneFarCaps caps l).wr F.laneFarRole role l
        let n := if heard then x.seen + 1 else 0
        let d := d.setLane l { x with seen := n }
        if 8 ≤ n then d.exchangeDone l port else d
      else d.setLane l { x with seen := 0 }
    else if st == lsSwitch && !x.quiet && ph == 2 && rate == x.target then
      (d.setLane l { x with seen := x.seen + 1 }).switchDone l
    else if st == lsVerify && ph == 3 && heard then (d.setLane l { x with farHeard := true }).verifyDone l
    else d

/-- REHUNT ends without lock (R149). -/
def Dev.rehuntFails (d : Dev) (l : Nat) : Dev := d.restartLane l

/-- Block lock is declared (R148): the step it completes; U opens session 32 for the parent (R103). A lock later than 20 µs into
REHUNT is none (R149). -/
def Dev.blockLock (d : Dev) (l : Nat) : Dev :=
  let x := d.lane l
  let st := d.laneState l
  if st == lsDisabled || st == lsFailed || st == lsDetect || x.quiet then d
  else if st == lsRehunt && decide (x.rehuntAt + 20 * ticksUs < d.up) then d.rehuntFails l
  else
    let d := d.wr F.laneLocked 1 l
    let d := if l = laneU && st != lsLoopback then
        { d with clk := { d.clk with refGoodFrom := d.up } }.setSession 32
          { d.session 32 with isOpen := true, auth := d.rd F.cmdParentMaxAuth }
      else d
    if st == lsRehunt then d.wr F.laneState lsUp l
    else if st == lsHunt then
      if x.fallback then (d.setLane l { x with atNew := false }).stepUp l
      else if x.atNew then
        (d.setLane l { x with passed := false, farHeard := false, run := 0, verifyFrom := d.up }).wr F.laneState lsVerify l
      else (d.setLane l { x with seen := 0, run := 0, stepAt := d.up }).wr F.laneState lsExchange l
    else d

/-- Block lock is lost (R148, R149, R160); U closes session 32 (R103). -/
def Dev.lockLost (d : Dev) (l : Nat) : Dev :=
  let d := d.unlock l
  if d.laneUp l || d.laneState l == lsLpIdle then
    (((d.setLane l { d.lane l with waking := false, rehuntAt := d.up }).wr F.laneState lsRehunt l).bump F.laneLockLosses l).sourceGone
  else d.verifyAgain l

/-- FALLBACK (R151, R153): TRAIN FALLBACK, as many blocks as Config.fallbackBlocks says, then the quiet time. -/
def Dev.enterFallback (d : Dev) (l : Nat) : Dev :=
  let x := d.lane l
  let d := (d.setLane l { x with fallback := true, run := 0, toSend := Config.fallbackBlocks }).wr F.laneState lsFallback l
  if Config.fallbackBlocks = 0 then d.goQuiet l x.verified else d

/-- A bring-up limit is reached (R153): the attempt timer, a step at rate 0x0, or one at a new rate. A limit not reached yet does
nothing. -/
def Dev.attemptTimeout (d : Dev) (l : Nat) : Dev :=
  let x := d.lane l
  let st := d.laneState l
  let past (limit : Nat) : Bool := d.spent x.stepAt limit
  if !([lsHunt, lsExchange, lsSwitch, lsVerify, lsFallback].contains st) then d
  else if d.spent x.attemptAt (5 * ticksMs) then d.attemptFails l
  else if st == lsExchange then (if past (200 * ticksUs) then d.attemptFails l else d)
  else if st == lsSwitch then (if !x.quiet && decide (x.seen < 4) && past (20 * ticksUs) then d.attemptFails l else d)
  else if st == lsHunt && !x.atNew && !x.fallback then (if past ticksMs then d.attemptFails l else d)
  else if st == lsHunt && x.fallback then (if past (100 * ticksUs) then d.attemptFails l else d)
  else if st == lsFallback || x.ready then d
  else if past (100 * ticksUs) then d.enterFallback l
  else d

/-! ## Blocks on the line (R145) -/

/-- The 64 payload bits of a block in the order of Clause 49: bit 0 of byte 0 first. -/
def blockBits (block : Bytes) : List Bool := (block.take 8).flatMap fun b => (List.range 8).map b.getLsbD

/-- The self-synchronous scrambler x^58 + x^39 + 1 (R145), its last 58 bits with the newest as bit 0: the bits sent, and its state
after them. -/
def scramble (s : BitVec 58) : List Bool → List Bool × BitVec 58
  | [] => ([], s)
  | b :: bs =>
    let o := xor b (xor (s.getLsbD 38) (s.getLsbD 57))
    let r := scramble ((s <<< 1) ||| (BitVec.ofBool o).setWidth 58) bs
    (o :: r.1, r.2)

/-- The sync header of a block, first bit first (R145): 0b10 of a control block, 0b01 of a data block. -/
def syncBits (control : Bool) : List Bool := [control, !control]

/-- The bits of a run of blocks on the line, and the scrambler after them. -/
def lineBits (s : BitVec 58) : List (Bool × Bytes) → List Bool × BitVec 58
  | [] => ([], s)
  | (c, block) :: rest =>
    let x := scramble s (blockBits block)
    let r := lineBits x.2 rest
    (syncBits c ++ x.1 ++ r.1, r.2)

/-- The next bits of PRBS31 (R161), x^31 + x^28 + 1. -/
def prbs31 (s : BitVec 31) : Nat → List Bool × BitVec 31
  | 0 => ([], s)
  | n + 1 =>
    let o := xor (s.getLsbD 30) (s.getLsbD 27)
    let r := prbs31 ((s <<< 1) ||| (BitVec.ofBool o).setWidth 31) n
    (o :: r.1, r.2)

/-- What the transmit pair of a lane carries for the unit in hand (R145, R158, R161), with the pair swapped where TXINV says so. -/
def Dev.txBits (d : Dev) (l : Nat) : List Bool :=
  let x := d.lane l
  let bits := match x.sending with
    | some (.prbs bits) => bits
    | _ => (lineBits x.scram x.line).1
  bits.map (xor (d.on F.laneEqTxinv l))

/-! ## Frames on the line (R168 to R170, R179) -/

/-- FLAGS of a frame (R168). -/
def frameFlags (dl void resend loc : Bool) : Nat := flag dl + 2 * flag void + 4 * flag resend + 8 * flag loc

/-- The blocks of a frame as bytes (R168, R169, R172). -/
def frameBytes (ftype seq flags addr : Nat) (deadline : Option Nat) (payload : Bytes) : Bytes :=
  let sof := [0x20, BitVec.ofNat 8 ftype, BitVec.ofNat 8 seq, BitVec.ofNat 8 (payload.length - 1), BitVec.ofNat 8 flags]
    ++ le 2 addr
  let body := (match deadline with | some x => le 4 (x % 2 ^ 32) | none => []) ++ payload
  let data := body ++ le 4 (crc32c (sof.drop 1 ++ body))
  controlBlock sof ++ padTo ((data.length + 7) / 8 * 8) data

/-- Lantern's frame stages over a frame sent or received on a lane (R480): the word at an offset from the SOF on; bytes the
frame does not have match only where the mask leaves them out. -/
def Dev.frameSeen (d : Dev) (l : Nat) (sent : Bool) (at_ : Nat) (bytes : Bytes) : Dev :=
  d.acqLatch at_ fun k =>
    let a := d.rd F.acqSA k
    let lane := a / 2 ^ 25 % 64
    let ofs := a % 512
    let mask := d.rd F.acqSB k
    let w := leAt bytes ofs 4
    let there := (List.range 4).all fun i => decide (ofs + i < bytes.length) || mask / 256 ^ i % 256 == 0
    if d.rd F.acqSKind k = 8 && (a.testBit 31 == sent) && (lane == l || (lane == 63 && decide (l < 48))) && there
        && (w &&& mask) = d.rd F.acqSC k then some w else none

/-- A received frame as the bytes from its SOF on, without CRC and fill (R168, R169). -/
def rxBytes (ftype : Nat) (f : RxFrame) : Bytes :=
  let sof := [0x20, BitVec.ofNat 8 ftype, f.seq, BitVec.ofNat 8 (f.payload.length - 1), f.flags] ++ le 2 f.addr.toNat
  controlBlock sof ++ (if f.flags.getLsbD 0 then wordBytes f.deadline else []) ++ f.payload

/-- The time of so many blocks on a lane at its rate, in fine ticks. -/
def Dev.blocksTicks (d : Dev) (l n : Nat) : Nat := (n * blockTime (d.rd F.laneRate l) + 99) / 100

/-- Put a unit on the line: its blocks follow those of the last one, and it occupies the transmitter for their time. -/
def Dev.onLine (d : Dev) (l : Nat) (u : TxUnit) (blocks : List (Bool × Bytes)) : Dev :=
  let x := d.lane l
  d.setLane l { x with
    sending := some u, inset := none, scram := (lineBits x.scram x.line).2, line := blocks
    busyUntil := d.up + d.blocksTicks l blocks.length }

/-- One control block as a unit. -/
def Dev.oneBlock (d : Dev) (l : Nat) (u : TxUnit) (block : Bytes) : Dev := d.onLine l u [(true, block)]

/-- The blocks of R146 and R167 that carry nothing but their type, and those with a SEQ. -/
def idleBlock : Bytes := 0x1E :: zeros 7
def plainBlock (type : Byte) : Bytes := controlBlock (type :: zeros 6)
def seqBlock (type : Byte) (seq : Nat) : Bytes := controlBlock ([type, BitVec.ofNat 8 seq] ++ zeros 5)

/-- The unit and the block of an ACK or NAK that is due (R167, R177): a NAK first. -/
def Lane.response (x : Lane) : Option (TxUnit × Bytes × Lane) :=
  match x.nakDue, x.ackDue with
  | some n, _ => some (.nak n, seqBlock 0x41 n, { x with nakDue := none })
  | none, some n => some (.ack n, seqBlock 0x40 n, { x with ackDue := none })
  | none, none => none

/-- The blocks of a frame on the line: its SOF and its data blocks (R169). -/
def frameLine (bytes : Bytes) : List (Bool × Bytes) :=
  (List.range (bytes.length / 8)).map fun i => (i == 0, (bytes.drop (8 * i)).take 8)

/-- An ACK or NAK inside a frame without DL that is being sent (R170, R177): at the next block boundary, between two of its blocks. -/
def Dev.insertResponse (d : Dev) (l : Nat) : Dev :=
  let x := d.lane l
  match x.sending, x.response with
  | some (.frame seq bytes), some (u, block, y) =>
    if (bytes.getD 4 0).getLsbD 0 then d
    else
      let one := d.blocksTicks l 1
      let left := (x.busyUntil - d.up) * 100 / blockTime (d.rd F.laneRate l)
      let place := x.line.length - left
      let mark (h : Sent) : Sent := if h.seq = seq then { h with endAt := h.endAt + one } else h
      d.setLane l { y with
        inset := some u, line := x.line.take place ++ [(true, block)] ++ x.line.drop place
        busyUntil := x.busyUntil + one, held := x.held.map mark }
  | _, _ => d

/-- The payload as it leaves (R205, R211): T_TX of a TIME_SYNC, compensated once sixteen exchanges are valid, and of a
TIME_RESP. -/
def Dev.stamped (d : Dev) (l : Nat) (i : TxItem) : Bytes :=
  if i.ftype = 0x06 then
    let comp : Int := if (d.laneTime l).delays.length = 16 then
        (d.rd F.timeLaneDelay l : Int) + sN 16 (d.rd F.timeLaneAsym l) else 0
    le 8 ((d.now : Int) + comp).toNat ++ i.payload.drop 8
  else if i.ftype = 0x07 then i.payload.take 8 ++ le 8 d.now ++ i.payload.drop 16
  else i.payload

/-- What the departure of a TIME_SYNC leaves behind for its exchange (R205, R206). -/
def Dev.noteSync (d : Dev) (l : Nat) (i : TxItem) (resend : Bool) : Dev :=
  if i.ftype = 0x06 then
    d.setLaneTime l { d.laneTime l with t1 := d.now, clean := !resend && (d.laneTime l).clean }
  else d

/-- Send one frame (R168, R179): whole, or VOID when it is void already or its last block would leave too late. -/
def Dev.sendFrame (d : Dev) (l seq : Nat) (i : TxItem) (void resend : Bool) : Dev :=
  let rate := d.rd F.laneRate l
  let size := frameTicks rate i.dl.isSome i.payload.length
  let late := !void && (match i.dl with | some x => decide (timeLeft x (d.now + size) < 0) | none => false)
  let d := if late then ((d.bump F.frmLate l).raise 0x14).revisionVoid i.revision else d
  let gone := void || late
  let bytes := if gone then frameBytes i.ftype seq (frameFlags false true resend i.loc) i.addr none [0]
    else frameBytes i.ftype seq (frameFlags i.dl.isSome false resend i.loc) i.addr i.dl (d.stamped l i)
  let d := if gone then d else d.noteSync l i resend
  let x := d.lane l
  let blocks := frameLine bytes
  let endAt := d.up + d.blocksTicks l blocks.length
  let mark (h : Sent) : Sent := if h.seq = seq then { h with void := gone, resent := h.resent || resend, endAt := endAt } else h
  let held := if resend then x.held.map mark else x.held ++ [{ seq := seq, item := i, void := gone, endAt := endAt }]
  let d := d.setLane l { x with held := held, lastFrameAt := d.up }
  let sofOn := bytes.take (8 + (if i.dl.isSome then 4 else 0) + i.payload.length)
  let d := if gone then d else d.frameSeen l true (d.now + size) sofOn
  (d.wr F.frmReplayFill held.length l).onLine l (.frame seq bytes) blocks

/-- The DOUSE block in its place of the burst (R184). -/
def Dev.douseBlock (d : Dev) (index level : Nat) : Bytes :=
  controlBlock ([0xD5, BitVec.ofNat 8 index, BitVec.ofNat 8 level,
    BitVec.ofNat 8 (if d.holdsWick then d.rd F.twinEpoch else 0)] ++ le 2 d.nodeAddr ++ [0x2A])

/-- The frame that may start now (R33, R180): the first in rank order whose instant has come and whose place in the
replay buffer is free. -/
def Dev.nextItem (d : Dev) (l : Nat) : Option TxItem :=
  let x := d.lane l
  let used := x.held.length
  x.wait.find? fun i => decide (i.notBefore ≤ d.now) && decide (used < if i.rank = 3 then 32 else 28)

/-- Whether a lane's transmitter carries blocks of the frame layer (R151). -/
def Dev.transmits (d : Dev) (l : Nat) : Bool := d.laneUp l || d.laneState l == lsRehunt

/-- Whether a lane's transmitter sends TRAIN (R151): not in its quiet time. -/
def Dev.trains (d : Dev) (l : Nat) : Bool :=
  [lsDetect, lsHunt, lsExchange, lsSwitch, lsVerify, lsFallback].contains (d.laneState l) && !(d.lane l).quiet

/-- Whether Douse may go out on a lane (R155, R161): the transmitter runs at an agreed rate, with no TRAIN at rate 0x0. -/
def Dev.douses (d : Dev) (l : Nat) : Bool :=
  d.on F.clkLocked && ([lsUp, lsLpIdle, lsRehunt].contains (d.laneState l)
    || (d.laneState l == lsVerify && decide (d.rd F.laneRate l ≠ 0))
    || (d.laneState l == lsLoopback && d.rd F.laneLoopback l == 3))

/-- One TRAIN block leaves (R147, R151, R152): the last of 8 READY blocks brings the lane UP, the last of its SWITCH or FALLBACK blocks
may begin the quiet time. -/
def Dev.sendTrain (d : Dev) (l : Nat) : Dev :=
  let x := d.lane l
  let block := d.ownTrain l
  let d := (d.setLane l { x with txCount := (x.txCount + 1) % 256, toSend := x.toSend - 1 }).oneBlock l (.train block) block
  let st := d.laneState l
  if x.toSend = 1 && st == lsVerify && x.ready then (d.enterUp l).twinRate l
  else if x.toSend = 1 && st == lsFallback then d.goQuiet l x.verified
  else d.switchDone l

/-- The frame layer's turn at a block boundary (R182): ACK and NAK, then a frame cut by Douse and replayed frames, then the next new
frame; with none of them an IDLE block. -/
def Dev.transmitFrame (d : Dev) (l : Nat) : Dev :=
  let x := d.lane l
  match x.response with
  | some (u, block, y) => (d.setLane l y).oneBlock l u block
  | none =>
    match x.again, x.replay with
    | some s, _ =>
      let d := d.setLane l { x with again := none }
      match x.held.find? fun h => h.seq == s with
      | some h => d.sendFrame l s h.item h.void true
      | none => d
    | none, s :: rest =>
      let d := d.setLane l { x with replay := rest }
      match x.held.find? fun h => h.seq == s with
      | some h => (d.bump F.frmReplays l).sendFrame l s h.item h.void true
      | none => d
    | none, [] =>
      match d.nextItem l with
      | some i =>
        let seq := d.rd F.frmTxNext l
        let d := d.setLane l { x with wait := x.wait.erase i }
        (d.wr F.frmTxNext ((seq + 1) % 256) l).sendFrame l seq i false false
      | none => d.oneBlock l .idle idleBlock

/-- A block boundary of a lane in LP_IDLE (R151, R160): WAKE blocks once a frame waits, else IDLE. -/
def Dev.transmitIdle (d : Dev) (l : Nat) : Dev :=
  let x := d.lane l
  if x.wait.isEmpty then d.oneBlock l .idle idleBlock
  else
    let y := if x.waking then x else { x with waking := true, wakeAt := d.up }
    (d.setLane l y).oneBlock l (.wakeBlocks 1) (plainBlock 0x17)

/-- A block boundary of a lane in LOOPBACK (R161): electrical idle, the blocks received, or PRBS31. -/
def Dev.transmitLoopback (d : Dev) (l : Nat) : Dev :=
  let x := d.lane l
  match d.rd F.laneLoopback l with
  | 3 => d.setLane l { x with sending := some .looped, line := [], busyUntil := d.up + d.blocksTicks l 1 }
  | 4 =>
    let r := prbs31 x.prbs 66
    d.setLane l { x with sending := some (.prbs r.1), prbs := r.2, line := [], busyUntil := d.up + d.blocksTicks l 1 }
  | _ => d

/-- A block boundary (R151, R182): Douse first, then what the state of the lane sends. -/
def Dev.transmit (d : Dev) (l : Nat) : Dev :=
  let x := d.lane l
  if 0 < x.douseLeft then
    if d.douses l then
      let block := d.douseBlock (8 - x.douseLeft) x.douseLevel
      (d.setLane l { x with douseLeft := x.douseLeft - 1 }).oneBlock l (.douse block) block
    else d.setLane l { x with douseLeft := 0 }
  else if d.up < x.busyUntil then (if d.transmits l then d.insertResponse l else d)
  else if d.trains l then d.sendTrain l
  else if d.laneState l == lsLpIdle then d.transmitIdle l
  else if d.laneState l == lsLoopback then d.transmitLoopback l
  else if d.transmits l then d.transmitFrame l
  else d

/-- A Douse burst on a lane (R183, R186): frames of the control types dropped or made VOID; a frame cut, its blocks not sent yet gone,
goes out again after the burst. -/
def Dev.douseLane (d : Dev) (l level : Nat) : Dev :=
  if !d.douses l then d
  else
    let d := d.dropControl l
    let x := d.lane l
    let cut : Bool := decide (d.up < x.busyUntil)
    let again := match x.sending with
      | some (.frame s _) => if cut && !x.replay.contains s then some s else x.again
      | _ => x.again
    let left := (x.busyUntil - d.up) * 100 / blockTime (d.rd F.laneRate l)
    d.setLane l { x with
      douseLeft := 8, douseLevel := level, again := again, busyUntil := d.up
      line := if cut then x.line.take (x.line.length - left) else x.line }

/-! ## Acknowledgement and replay (R176 to R178) -/

/-- Frames held after those up to a place have been acknowledged: with the SEQ itself, or only those before it. -/
def heldAfter (held : List Sent) (seq : Nat) (withIt : Bool) : List Sent :=
  let rest := held.dropWhile fun h => h.seq != seq
  if withIt then rest.drop 1 else rest

/-- The replay buffer after an acknowledgement. -/
def Dev.acknowledge (d : Dev) (l : Nat) (held : List Sent) (newest : Nat) : Dev :=
  let x := d.lane l
  if held.length = x.held.length then d
  else
    let d := d.setLane l { x with
      held := held, retries := 0, replay := x.replay.filter fun s => held.any fun h => h.seq == s
      again := x.again.filter fun s => held.any fun h => h.seq == s }
    (d.wr F.frmTxAcked newest l).wr F.frmReplayFill held.length l

/-- Whether the oldest unacknowledged frame is overdue (R178). -/
def Dev.replayDue (d : Dev) (h : Sent) : Bool := d.spent h.endAt (d.rd F.frmReplayTo * ticksUs)

/-- Start a replay from a held frame (R178): as often in a row at one oldest frame as FRM.RETRY_MAX, the lane leaves UP. -/
def Dev.startReplay (d : Dev) (l seq : Nat) : Dev :=
  let x := d.lane l
  let oldest := (x.held.head?.map (·.seq)).getD seq
  let n := if 0 < x.retries && x.retrySeq == oldest then x.retries + 1 else 1
  if d.rd F.frmRetryMax ≤ n then d.restartLane l
  else
    d.setLane l { x with
      retries := n, retrySeq := oldest, again := none, replay := (heldAfter x.held seq false).map fun h => h.seq }

/-- ACK (R177, R178): a SEQ that is not held is ignored. -/
def Dev.ackBlock (d : Dev) (l seq : Nat) : Dev :=
  let x := d.lane l
  if d.transmits l && x.held.any (fun h => h.seq == seq) then d.acknowledge l (heldAfter x.held seq true) seq else d

/-- NAK (R177, R178). -/
def Dev.nakBlock (d : Dev) (l seq : Nat) : Dev :=
  let x := d.lane l
  if d.transmits l && x.held.any (fun h => h.seq == seq) then
    (d.acknowledge l (heldAfter x.held seq false) ((seq + 255) % 256)).startReplay l seq
  else d

/-! ## Reception (R171, R173, R176, R177) -/

/-- A NAK for the SEQ expected (R177): at most one until that frame is accepted or 2 µs have passed. -/
def Dev.sendNak (d : Dev) (l : Nat) : Dev :=
  let x := d.lane l
  let e := d.rd F.frmRxExpect l
  if x.naked = some e && decide (d.up < x.nakAt + 2 * ticksUs) then d
  else d.setLane l { x with nakDue := some e, naked := some e, nakAt := d.up }

/-- What is wrong with the SOF flags of a frame on a lane (R168, R171). -/
def badFlags (l flags : Nat) : Bool := decide (16 ≤ flags) || (flags.testBit 3 && cellOrTwin l)

/-- The content of an accepted frame discarded (R173). -/
def Dev.badContent (d : Dev) (l : Nat) : Dev := d.bump F.frmRxBad l

/-- A frame that passed R171 (R176, R177, R179): in sequence it is accepted and acted on, a duplicate is acknowledged
again, any other is answered with a NAK. -/
def Dev.receive (d : Dev) (l ftype : Nat) (f : RxFrame) (act : Dev → Dev) : Dev :=
  if !d.laneUp l then d
  else if badFlags l f.flags.toNat then (d.bump F.frmRxBad l).sendNak l
  else
    let d := if f.flags.toNat.testBit 1 || ftype = 0 then d else d.frameSeen l false d.now (rxBytes ftype f)
    let e := d.rd F.frmRxExpect l
    let seq := f.seq.toNat
    let x := d.lane l
    if seq = e then
      let d := d.setLane l { x with ackDue := some e, naked := none, nakDue := none, lastFrameAt := d.up }
      let d := d.wr F.frmRxExpect ((e + 1) % 256) l
      let d := if l = 53 || l = 54 then d.partnerHeard else d
      if f.flags.toNat.testBit 1 then d.bump F.frmRxVoid l else act d
    else if (e + 255 - seq) % 256 < 32 then d.setLane l { x with ackDue := some ((e + 255) % 256) }
    else (d.bump F.frmRxBad l).sendNak l

/-- The unit slot a frame from a cell names (R168): one its lane carries, or 127 for the node as a whole. -/
def cellAddr (l : Nat) (f : RxFrame) : Option Nat :=
  let a := f.addr.toNat
  if a = 127 || a / 2 = l then some a else none

/-! ## The meanings of the lane events -/

/-- LANE_SIGNAL_DETECT (R152 step 1). -/
def execLaneSignalDetect (t : Nat) (lane : Fin 55) (s : State) : Host.Outcome State Fault Refusal :=
  event t s fun d =>
    if d.laneState lane == lsDetect then
      (d.setLane lane { d.lane lane with attemptAt := d.up, stepAt := d.up, seen := 0, run := 0 }).wr F.laneState lsHunt lane
    else d

/-- LANE_BLOCK_LOCK (R148). -/
def execLaneBlockLock (t : Nat) (lane : Fin 55) (s : State) : Host.Outcome State Fault Refusal :=
  event t s fun d => d.blockLock lane

/-- LANE_LOCK_LOST (R148, R149). -/
def execLaneLockLost (t : Nat) (lane : Fin 55) (s : State) : Host.Outcome State Fault Refusal :=
  event t s fun d => if d.on F.laneLocked lane then d.lockLost lane else d

/-- REHUNT_TIMEOUT (R149): 20 µs after lock was lost. -/
def execRehuntTimeout (t : Nat) (lane : Fin 55) (s : State) : Host.Outcome State Fault Refusal :=
  event t s fun d =>
    if d.laneState lane == lsRehunt && d.spent (d.lane lane).rehuntAt (20 * ticksUs) then d.rehuntFails lane else d

/-- TRAIN (R147, R152, R153). -/
def execTrain (t : Nat) (lane : Fin 55) (phase caps rate role port _count : Byte) (s : State) :
    Host.Outcome State Fault Refusal :=
  event t s fun d => d.trainBlock lane phase.toNat caps.toNat rate.toNat role.toNat port.toNat

/-- LANE_QUIET_END (R152, R153): after 10 µs, the hunt at the rate of the retuned serialiser. -/
def execLaneQuietEnd (t : Nat) (lane : Fin 55) (s : State) : Host.Outcome State Fault Refusal :=
  event t s fun d =>
    let x := d.lane lane
    let st := d.laneState lane
    if x.quiet && (st == lsSwitch || st == lsFallback) && d.spent x.quietAt (10 * ticksUs) then
      (d.setLane lane { x with quiet := false, atNew := st == lsSwitch, seen := 0, run := 0, stepAt := d.up }).wr F.laneState lsHunt lane
    else d

/-- LANE_VERIFY_PASSED (R152 step 3): 1,024 blocks counted. -/
def execLaneVerifyPassed (t : Nat) (lane : Fin 55) (s : State) : Host.Outcome State Fault Refusal :=
  event t s fun d =>
    if d.laneState lane == lsVerify && decide (d.verifyDue lane ≤ d.up) then
      (d.setLane lane { d.lane lane with passed := true }).verifyDone lane
    else d

/-- LANE_ATTEMPT_TIMEOUT (R153). -/
def execLaneAttemptTimeout (t : Nat) (lane : Fin 55) (s : State) : Host.Outcome State Fault Refusal :=
  event t s fun d => d.attemptTimeout lane

/-- LANE_FAILED_HOLD_END (R153): after 100 ms. -/
def execLaneFailedHoldEnd (t : Nat) (lane : Fin 55) (s : State) : Host.Outcome State Fault Refusal :=
  event t s fun d =>
    if d.laneState lane == lsFailed && d.spent (d.lane lane).failedAt (100 * ticksMs) then d.enterDetect lane 31 else d

/-- LANE_IDLE_TIMEOUT (R40, R160): U or a D lane with no frame for 1 ms and nothing outstanding. -/
def execLaneIdleTimeout (t : Nat) (lane : Fin 55) (s : State) : Host.Outcome State Fault Refusal :=
  event t s fun d =>
    let x := d.lane lane
    let l := lane.val
    if 48 ≤ l && l < 53 && d.laneUp l && x.wait.isEmpty && x.held.isEmpty && d.spent x.lastFrameAt ticksMs then
      (d.wr F.laneState lsLpIdle l).onLine l (.sleepBlocks 4) (List.replicate 4 (true, plainBlock 0x14))
    else d

/-- A lane in LP_IDLE is awake again (R160): UP, and its first frame goes. -/
def Dev.wakeUp (d : Dev) (l : Nat) : Dev :=
  let d := (d.setLane l { d.lane l with waking := false, lastFrameAt := d.up, busyUntil := d.up }).wr F.laneState lsUp l
  d.transmit l

/-- WAKE (R160): the answer to a wake of this lane, or the far end's own. -/
def execWake (t : Nat) (lane : Fin 55) (s : State) : Host.Outcome State Fault Refusal :=
  event t s fun d =>
    if d.laneState lane == lsLpIdle then
      if (d.lane lane).waking then d.wakeUp lane
      else
        let d := (d.setLane lane { d.lane lane with lastFrameAt := d.up }).wr F.laneState lsUp lane
        d.onLine lane (.wakeBlocks 8) (List.replicate 8 (true, plainBlock 0x17))
    else d

/-- LANE_WAKE_TIMEOUT (R160): 2 µs after the first WAKE. -/
def execLaneWakeTimeout (t : Nat) (lane : Fin 55) (s : State) : Host.Outcome State Fault Refusal :=
  event t s fun d =>
    let x := d.lane lane
    if d.laneState lane == lsLpIdle && x.waking && d.spent x.wakeAt (2 * ticksUs) then d.wakeUp lane else d

/-- ACK (R177, R178). -/
def execAck (t : Nat) (lane : Fin 55) (seq : Byte) (s : State) : Host.Outcome State Fault Refusal :=
  event t s fun d => d.ackBlock lane seq.toNat

/-- NAK (R178). -/
def execNak (t : Nat) (lane : Fin 55) (seq : Byte) (s : State) : Host.Outcome State Fault Refusal :=
  event t s fun d => d.nakBlock lane seq.toNat

/-- REPLAY_TIMEOUT (R178): the oldest unacknowledged frame has waited FRM.REPLAY_TO. -/
def execReplayTimeout (t : Nat) (lane : Fin 55) (s : State) : Host.Outcome State Fault Refusal :=
  event t s fun d =>
    match (d.lane lane).held.head? with
    | some h =>
      if d.transmits lane && (d.lane lane).replay.isEmpty && d.replayDue h then d.startReplay lane h.seq else d
    | none => d

/-- FRAME_DISCARDED (R171, R173, R176, R177): counted, and answered with a NAK; a frame not listed for its lane and
direction is in sequence or not like any other, and a stray data block is only counted. -/
def execFrameDiscarded (t : Nat) (lane : Fin 55) (why : Discard) (s : State) : Host.Outcome State Fault Refusal :=
  event t s fun d =>
    if !d.laneUp lane then d
    else match why with
      | .badHeader | .cutShort | .badCrc => (d.bump F.frmRxBad lane).sendNak lane
      | .stray => d.bump F.frmRxBad lane
      | .outOfSequence seq | .notListed seq =>
        d.receive lane 0 { seq := seq, flags := 0, addr := 0, deadline := 0, payload := [] } fun d => d.badContent lane

/-- INVALID_BLOCK (R146, R148, R161). -/
def execInvalidBlock (t : Nat) (lane : Fin 55) (why : BadBlock) (s : State) : Host.Outcome State Fault Refusal :=
  event t s fun d =>
    match why with
    | .syncHeader => if d.on F.laneLocked lane then (d.bump F.laneBlocksBad lane).verifyAgain lane else d
    | .unknownType =>
      if d.on F.laneLocked lane then
        let d := d.bump F.laneBlocksUnk lane
        if d.laneState lane == lsExchange then d.setLane lane { d.lane lane with seen := 0 } else d
      else d
    | .badCheck => if d.on F.laneLocked lane then (d.bump F.laneBlocksUnk lane).badTrain lane else d
    | .prbsErrors bits =>
      if d.laneState lane == lsLoopback && d.rd F.laneLoopback lane == 4 then d.bumpBy F.lanePrbsErr bits lane else d

end Sys2Proof.Machine
end

