-- ==== Sys2Proof/Machine/Modes.lean ====
section
/-!
DEFINITION. Machine/Modes.lean: the outputs of the safety island (R433 to R443), the end of a step sequence (R28), and the
change of mode with everything R18 to R31, R183, R192 and R267 attach to it.
-/
namespace Sys2Proof.Machine

/-! ## Switch tests (R436 to R438) -/

/-- The bit of a switch in SAFE.SW_OUT, SW_FB and SW_OK: TRIP_H first. -/
def switchBit (k : Nat) : Nat := 2 ^ (3 - k)

/-- The drives of the four switches; the senses follow them. -/
def Dev.driveSwitches (d : Dev) (out : Nat) : Dev := (d.wr F.safeSwOut out).wr F.safeSwFb out

/-- The next part of a test sequence begins (R437). -/
def Dev.testGoes (d : Dev) (test : SwitchTest) : Dev :=
  { d with island := { d.island with test := test, testFrom := d.up } }

/-- A test that runs is abandoned (R438). -/
def Dev.abandonTest (d : Dev) : Dev :=
  if d.on F.safeTestRun then
    let d := { d with island := { d.island with test := .idle } }
    (((d.wr F.safeTestRun 0).wr F.safeTestPend 1).bump F.safePreempts).raise 0x76
  else d

/-- A switch test sequence falls due (R437): it starts, is deferred, or is served by the one that runs. -/
def Dev.startTests (d : Dev) : Dev :=
  if d.on F.safeTestRun then d
  else if d.on F.safeTripActive || d.on F.safeCloseActive || d.mode = .snuffed then d.wr F.safeTestPend 1
  else
    let d := d.testGoes (.on 0 0)
    ((d.wr F.safeTestRun 1).wr F.safeTestPend 0).driveSwitches (switchBit 0)

/-! ## Breaker, contactors, SAFE_OUTn (R433, R440, R443) -/

/-- Whether BKR_AUX reads open. -/
def Dev.bkrOpen (d : Dev) : Bool := !d.on F.safeBkrClosed

/-- A trip demand (R433, R438): both trip switches on, a close pulse and a test ended. A demand already in force is only
retimed by the entry to SNUFFED. -/
def Dev.tripDemand (d : Dev) (snuffed : Bool) : Dev :=
  let island := { d.island with tripSnuffed := snuffed, tripFailed := false, tripAt := d.up, openAt := d.up }
  if d.on F.safeTripActive then { d with island := island }
  else
    let d := d.abandonTest
    let d := (((d.wr F.safeCloseActive 0).wr F.safeTripActive 1).driveSwitches (switchBit 0 + switchBit 1))
    let d := { d with island := { island with test := d.island.test, tripWait := !d.bkrOpen } }
    if d.bkrOpen then d.raise 0x77 else d

/-- The trip coil released (R433). -/
def Dev.tripEnd (d : Dev) : Dev :=
  if d.on F.safeTripActive then (d.wr F.safeTripActive 0).driveSwitches 0 else d

/-- SAFE_OUTn (R443). -/
def Dev.showSafeOut (d : Dev) : Dev :=
  d.wr F.safeOutLow (flag (d.boot.stage != .light || d.mode = .snuffed || d.on F.fltSet 28))

/-- Whether a used contactor's mirror contact disagrees with its drive (R440). -/
def Dev.contactorWrong (d : Dev) (n : Nat) : Bool :=
  (d.rd F.safeLvcUsed).testBit n && ((d.rd F.safeLvcFb).testBit n == d.island.lvcEn.testBit n)

/-- The contactors that agree are no longer mismatched. -/
def Dev.contactorsSettle (d : Dev) : Dev :=
  let left := ((List.range 4).filter fun n => d.island.lvcMismatch.testBit n && d.contactorWrong n).foldl (fun m n => m + 2 ^ n) 0
  { d with island := { d.island with lvcMismatch := left } }

/-- LVC_EN0 to LVC_EN3 (R440). -/
def Dev.driveContactors (d : Dev) : Dev :=
  let en := if d.island.firstCommit && d.mode ≠ .snuffed then d.rd F.safeLvcClose &&& d.rd F.safeLvcUsed else 0
  let at_ := (List.range 4).map fun n => if en.testBit n == d.island.lvcEn.testBit n then d.island.lvcAt.getD n 0 else d.up
  { d with island := { d.island with lvcEn := en, lvcAt := at_ } }.contactorsSettle

/-! ## The door guard (R429 to R431) -/

/-- Whether the guard is closed, open, or in discrepancy. -/
def Dev.guardClosed (d : Dev) : Bool := d.on F.safeGuardA && !d.on F.safeGuardB
def Dev.guardOpen (d : Dev) : Bool := !d.on F.safeGuardA && d.on F.safeGuardB

/-- The modes in which the guard may be open (R430). -/
def Mode.guardMayOpen : Mode → Bool
  | .spark | .kindle | .held | .snuffed => true
  | _ => false

/-- The start-up test of the guard set pending (R19, R431). -/
def Dev.guardPending (d : Dev) : Dev :=
  let st : GuardTest := if d.guardOpen then .opening else .waitOpen
  { d.wr F.sysGuardPend 1 with island := { d.island with guardTest := st, startTest := true, guardFrom := d.up } }

/-! ## Step sequences (R28) -/

/-- Whether a sequence runs or is paused. -/
def Dev.stepsActive (d : Dev) : Bool := d.rd F.stgStepState == 1 || d.rd F.stgStepState == 2

/-- A sequence ends with an outcome (R28): levels released, forced legs freed, the modulation stopped. -/
def Dev.endSteps (d : Dev) (outcome : Nat) : Dev :=
  if !d.stepsActive then d
  else
    let legs := d.steps.legs
    let d := { d with steps := {}, sched := { d.sched with offNow := true } }
    let d := legs.foldl (fun d n => d.legForce n false (d.on F.legForceGh n) (d.on F.legForceGl n)) d
    ((d.wr F.stgStepState outcome).wr F.stgStepWait 0).raise 0x0C

/-! ## Douse (R183) -/

/-- A Douse burst on every lane that carries it. -/
def Dev.sendDouse (d : Dev) (level : Nat) : Dev :=
  let d := (List.range 55).foldl (fun d l => d.douseLane l level) d
  { d with sched := { d.sched with douseSent := true } }

/-! ## The change of mode (R22, R25, R30, R31) -/

/-- The key of an SRAM test location among the recorded ones; a DRAM page stands for itself. -/
def sramTest (word : Nat) : Nat := 2 ^ 40 + word

/-- The recorded test locations end with SERVICE (R462): SRAM words zero again, DRAM pages unwritten, their poison gone. -/
def Dev.endTests (d : Dev) : Dev :=
  let ts := d.mem.tests
  if ts.isEmpty then d
  else
    let m : Mem := { d.mem with
      tests := [], pages := ts.foldl tdel d.mem.pages, poison := d.mem.poison.filter fun p => !ts.contains p.page,
      window := d.mem.window.map fun e => if ts.contains (sramTest e.1) then (e.1, 0, Config.secded 0) else e,
      sramPoison := d.mem.sramPoison.filter fun x => !(x.1 == 95 && ts.contains (sramTest (x.2 - 15872))) }
    { d with mem := m }.wr F.memScrubPaused 0

/-- What leaving a mode does (R28, R161, R331, R462): the sequence and its return to HELD, the loopbacks, the forced legs, ECC tests. -/
def Dev.leaveMode (d : Dev) (old : Mode) : Dev :=
  let d := if old = .service || old = .calibrate then (d.endSteps 5).forceClear else d
  let d := { d with steps := { d.steps with leave := false } }
  if old = .service then
    let d := (List.range 55).foldl (fun d l => d.endLoopback l) d
    d.endTests
  else d

/-- What entry to a switching mode from another does (R192, R232, R267, R292). After a takeover the slots continue (R393). -/
def Dev.resumeSwitching (d : Dev) (takeover : Bool) : Dev :=
  let d := if d.sched.douseSent && d.holdsWick && !takeover then d.raiseEpoch else d
  let d := { d with sched := { d.sched with douseSent := false } }
  let d := if takeover then d
    else d.enabledSlots.foldl (fun d s => d.setLoop s { d.loop s with fresh := true }) d
  d.enterSwitching takeover

/-- What entry to SNUFFED does (R25, R433, R440, R441); until Light the coil outputs are not driven (R45), and the demand begins with
Light (log entry 152). -/
def Dev.enterSnuffed (d : Dev) : Dev :=
  let d := if d.boot.stage = .light then d.tripDemand true else d
  let d := (d.wr F.safeLvcClose 0).wr F.safeEdgeValid 0
  let d := { d with twin := { d.twin with leaseOut := false } }
  (d.sendDouse 4).driveContactors.raise 0x7A

/-- The mode changes (R30, R31): the mode word, what the old mode ends, what the new one begins. -/
def Dev.changeMode (d : Dev) (m : Mode) (cause : Nat) (takeover : Bool := false) : Dev :=
  let old := d.mode
  let d := d.leaveMode old
  let d := (((d.wr F.sysModePrev (modeCode old)).wr F.sysMode (modeCode m)).bumpWrap F.sysModeSeq).wr F.sysModeCause cause
  let run := if old = .runForm || old = .runFollow then modeCode old else d.modes.runBefore
  let run := if m = .runForm || m = .runFollow then modeCode m else run
  let d := { d with modes := { d.modes with runBefore := run, enteredAt := d.now, insideFor := 0 } }
  let d := match m with
    | .held => d.guardPending.startTests
    | .dark => d.sendDouse 3
    | .snuffed => d.enterSnuffed
    | _ => d
  let d := if m.switching && !old.switching then d.resumeSwitching takeover else d
  let d := if m.guardMayOpen then d else { d with tap := none }
  ((d.legsRefresh.brakeUpdate).showCells.showSafeOut).raise 0x02

/-- Every request granted before a fault changed the mode is refused (R38). -/
def Dev.preemptRequests (d : Dev) : Dev :=
  let isMode (x : Parked) : Bool := match x.why with | .mode _ => true | _ => false
  let d := d.wr F.sysModePend 0
  (d.parked.filter isMode).foldl (fun d x => d.answerParked x stModeRefused (refusalData 0xFFFF 0 0xFF 0x21)) d

/-- A fault reaction changes the mode at once (R22, R38). -/
def Dev.faultMode (d : Dev) (m : Mode) : Dev :=
  ({ d with modes := { d.modes with faultChanged := true } }.changeMode m 5).preemptRequests

/-- The safe state (R25, R441): SNUFFED, from any mode but SPARK. -/
def Dev.safeState (d : Dev) : Dev :=
  if d.mode = .spark || d.mode = .snuffed then d else d.faultMode .snuffed

/-- A class of level Dark acts (R22, R23): DARK from a switching mode; PILOT marks itself unfit. -/
def Dev.goDark (d : Dev) : Dev :=
  let m := d.mode
  if m = .pilot then (if d.rd F.twinRole ≠ 5 && d.rd F.twinRole ≠ 6 then d.markUnfit else d)
  else if m.switching then d.faultMode .dark
  else d

/-- Entry to a mode by anything but a fault (R23): a guard that is open in a mode that needs it closed brings the safe
state at once (R430, R441, log entry 26). -/
def Dev.enterMode (d : Dev) (m : Mode) (cause : Nat) (takeover : Bool := false) : Dev :=
  let old := d.mode
  let d := d.changeMode m cause takeover
  if !m.guardMayOpen && old.guardMayOpen && !d.guardClosed then (d.fault 28 0).safeState else d

end Sys2Proof.Machine
end

