-- ==== Sys2Proof/Machine/Faults.lean ====
section
/-!
DEFINITION. Machine/Faults.lean: the fault collector (chapter 16): causes, classification, escalation and reactions,
history, acknowledging and clearing; with the errors that reach it from the SRAM (R449) and from itself (R411).
-/
namespace Sys2Proof.Machine

/-! ## Causes (R403, R444) -/

/-- Whether a channel of the door guard disagrees with the other (R429). -/
def Dev.guardDiscrepant (d : Dev) : Bool := !d.guardClosed && !d.guardOpen

/-- The causes of class 29 (R444). -/
def Dev.deviceCause (d : Dev) (s : Nat) : Bool :=
  if s = 0 then d.guardDiscrepant
  else if s = 1 then d.on F.safeRstIn
  else if s < 6 then d.island.switchFault.testBit (s - 2)
  else if s = 6 then d.on F.safeBkrClosed
  else if 8 ≤ s && s < 12 then d.contactorWrong (s - 8)
  else false

/-- Whether less than 1 ms has passed since the last valid DOUSE block on U (R403, class 7). -/
def Dev.douseFresh (d : Dev) : Bool :=
  match d.coll.douseUAt with
  | some x => decide (d.now < x + ticksMs)
  | none => false

/-- Whether the cause of source s of class c is active now (the last columns of R403 and R444). -/
def Dev.causeActive (d : Dev) (c s : Nat) : Bool :=
  match c with
  | 0 => d.clk.railsLow.testBit s
  | 1 => decide (s = 0) && d.on F.clkRefSrc && decide (d.rd F.clkRefActive ≠ 2)
  | 2 => d.clk.monBad.testBit s
  | 3 => (decide (s = 0) && !d.on F.clkLocked) || (decide (s = 1) && !d.on F.clkLocked && d.clk.unlocked5ms)
  | 6 => d.lanePresent s && !d.laneLinked s
  | 7 => decide (s < 2) && d.douseFresh && d.coll.douseULevels.testBit s
  | 8 => decide (s = 0) && d.on F.timeHoldover
  | 9 => decide (s = 0) && d.on F.timeMisaligned
  | 10 => d.populated s && decide ((d.cell s).health = 3)
  | 11 => d.populated s && (!d.laneUp (laneOfSlot s) || decide (d.rd F.modCHeld s ≠ 0))
  | 13 => (d.engines.failing.map (·.1)).contains s || d.engines.gone.contains s
  | 14 => decide (s < 12) && (d.legRequests s).1 && (d.legRequests s).2
  | 15 => decide (s < 12) && (d.on F.legDsatIn s || d.on F.legCsScIn s)
  | 16 => decide (s < 12) && d.on F.legCsLimIn s
  | 17 => (decide (s = 0) && d.brake.trip0) || (decide (s = 1) && d.brake.trip1)
  | 18 => decide (s = 0) && d.on F.legBrkInhib
  | 19 => decide (s < 32) && d.on F.measOcIn s
  | 20 => decide (s < 32) && d.on F.measHeld s
  | 21 => decide (s < 8) && (d.rd F.calPageBad).testBit s
  | 22 => decide (s < d.downPorts) && decide (d.rd F.grpDState s ≠ 3) && decide (d.rd F.grpDState s ≠ 4)
  | 23 => decide (s = 0) && (d.rd F.grpUState == 2 || d.rd F.grpUState == 3)
  | 25 => decide (s < 2) && (d.rd F.twinRole == 5 || d.rd F.twinRole == 6)
  | 26 => decide (s = 0) && d.twin.divPending
  | 27 => decide (s = 0) && d.paired && !within d.twin.frameAt d.now d.leaseWait
  | 28 => (decide (s = 0) && !d.guardClosed) || (decide (s = 2) && d.island.watchdogLate)
  | 29 => d.deviceCause s
  | _ => false

/-- A mask of 128 source bits. -/
def sourceMask (p : Nat → Bool) : Nat := ((List.range 128).filter p).foldl (fun m s => m + 2 ^ s) 0

/-- FLT.ACTIVE of a class (R421). -/
def Dev.activeMask (d : Dev) (c : Nat) : Nat := sourceMask (d.causeActive c)

/-- FLT.MASK of a class (R421). -/
def Dev.classMask (d : Dev) (c : Nat) : Nat :=
  d.rd F.fltMask (4 * c) + 2 ^ 32 * d.rd F.fltMask (4 * c + 1) + 2 ^ 64 * d.rd F.fltMask (4 * c + 2)
    + 2 ^ 96 * d.rd F.fltMask (4 * c + 3)

/-- Write FLT.MASK of a class. -/
def Dev.setClassMask (d : Dev) (c m : Nat) : Dev :=
  (List.range 4).foldl (fun d i => d.wr F.fltMask (m / 2 ^ (32 * i) % 2 ^ 32) (4 * c + i)) d

/-- The 32-bit mask of the set classes. -/
def Dev.setClasses (d : Dev) : Nat := ((List.range 32).filter fun c => d.on F.fltSet c).foldl (fun m c => m + 2 ^ c) 0

/-! ## Levels and pins (R406, R410, R423) -/

/-- FLT.ANY, FLT.TOP and FAULT_OUTn (R410): low before Light, and while any class stands at Flicker or above. -/
def Dev.showFaults (d : Dev) : Dev :=
  let set := (List.range 32).filter fun c => d.on F.fltSet c
  let top := (set.map fun c => d.rd F.fltLevel c).foldl max 0
  ((d.wr F.fltAny (flag (!set.isEmpty))).wr F.fltTop top).wr F.fltOutLow
    (flag (decide (d.boot.stage ≠ .light) || decide (1 ≤ top)))

/-- What the level of a class does at once (R406): Dark and Snuff change the mode. -/
def Dev.levelActs (d : Dev) (level : Nat) : Dev :=
  if 4 ≤ level then d.safeState else if level = 3 then d.goDark else d

/-- Step 1 of R12: bypass for what the classes lane lost, cell failed and cell samples lost hold at Gutter or above (R406,
R246). -/
def Dev.latchDegrades (d : Dev) : Dev :=
  let acts (c : Nat) : Bool := d.on F.fltSet c && decide (2 ≤ d.rd F.fltLevel c)
  let lanes := acts 6
  let failed := acts 10
  let lost := acts 11
  d.populatedSlots.foldl (fun d s =>
    let causes := (if lanes && d.maskBit 6 (laneOfSlot s) then 2 ^ 6 else 0)
      + (if failed && d.maskBit 10 s then 2 ^ 10 else 0) + (if lost && d.maskBit 11 s then 2 ^ 11 else 0)
    if causes = 0 then d else d.bypassPending s causes) d

/-! ## Events (R405, R412, R413) -/

/-- A history entry written: the newest of 32. -/
def Dev.writeHistory (d : Dev) (e : EvRec) : Dev :=
  let h := (e :: d.coll.history).take 32
  ({ d with coll := { d.coll with history := h } }.wr F.fltHistSeq e.seq).wr F.fltHistFill h.length

/-- The outcome of a raise on a class (R405): the level after, whether it escalated, whether it stood at its ceiling. -/
def raiseLevel (set acked : Bool) (level base ceil : Nat) : Nat × Bool × Bool :=
  if !set then (base, false, false)
  else if acked then (level, false, false)
  else if level < ceil then (level + 1, true, false)
  else (level, false, true)

/-- One event of a class (R403, R405): its raises of this classifier cycle, the first of them giving DATA. -/
def Dev.faultEvent (d : Dev) (c : Nat) (rs : List Raise) : Dev :=
  let mask := sourceMask fun s => rs.any fun r => r.src == s
  let set := d.on F.fltSet c
  let (level, escal, top) := raiseLevel set (d.on F.fltAcked c) (d.rd F.fltLevel c) (d.rd F.fltBase c) (d.rd F.fltCeil c)
  let old := tget (fun _ => (0, 0)) d.coll.lastEv c
  let recent := if old.1 / 200 = d.now / 200 then old.2 ||| mask else mask
  let d := { d with coll := { d.coll with lastEv := tset (fun _ => (0, 0)) d.coll.lastEv c (d.now, recent) } }
  let d := d.setClassMask c (if set then d.classMask c ||| mask else mask)
  let d := (((d.wr F.fltSet 1 c).wr F.fltLevel level c).wr F.fltAcked 0 c).bump F.fltRaises c
  let d := if escal then d.bump F.fltEscalations c else d
  let grouped := decide (1 < ((List.range 128).filter mask.testBit).length)
  let e : EvRec :=
    { source := 0x80 + c, cls := c, level := level, flags := flag escal + 2 * flag top + 4 * flag grouped
      seq := (d.rd F.fltHistSeq + 1) % 2 ^ 32, at_ := d.now, mask := mask, data := (rs.head?.map (·.data)).getD 0 }
  let d := (d.writeHistory e).showFaults
  let d := if c = 13 then
      let lost := ((rs.map (·.src)).filter fun s => !(d.causeActive 13 s)).eraseDups
      { d with engines := { d.engines with failing := d.engines.failing ++ lost.map fun s => (s, false) } }
    else d
  let d := d.raiseRec e
  let d := if escal then d.raise 0xA1 else d
  (d.levelActs level).showSafeOut

/-! ## Errors of the SRAM and of the collector itself (R411, R449) -/

/-- Memory errors corrected since the last Pilot report (R396 bytes 44 to 47). -/
def Dev.noteCorrected (d : Dev) (n : Nat) : Dev := { d with twin := { d.twin with repCorrected := d.twin.repCorrected + n } }

/-- A correctable error in a bank (R449). -/
def Dev.sramCorrected (d : Dev) (bank : Nat) : Dev :=
  (((d.noteCorrected 1).bump F.memSCorr).bump F.memBCorr bank).raise 0xA8

/-- An uncorrectable word of a bank, found for the first time (R449). -/
def Dev.sramUncorrectable (d : Dev) (bank : Nat) : Dev := (d.fault 30 (16 + bank)).raise 0xA9

/-- What a cause with no row of its own adds to the classifier cycle, before its events. -/
def Dev.extraRaise (d : Dev) : ExtraRaise → Dev
  | .engineFailed e => if d.causeActive 13 e then d else d.fault 13 e
  | .firmware code packet =>
    let d := if packet then { d with ports := { d.ports with internalDue := true } } else d
    d.fault 30 0 code.toNat
  | .classParity w => (((d.wr F.fltCollErr 1).safeState).fault 31 w)
  | .historyCorrectable e =>
    match d.coll.history[e.val]? with
    | some r =>
      let h := d.coll.history.set e.val { r with flags := r.flags ||| 8 }
      ({ d with coll := { d.coll with history := h } }.bump F.fltCorr).raise 0xA2
    | none => d
  | .historyUncorrectable e =>
    match d.coll.history[e.val]? with
    | some r =>
      let h := d.coll.history.set e.val { r with flags := r.flags ||| 16 }
      { d with coll := { d.coll with history := h } }.fault 31 32
    | none => d
  | .sramCorrected b => d.sramCorrected b
  | .sramUncorrectable b => d.sramUncorrectable b

/-- A class word that failed parity, forced once the events are made (R411). -/
def Dev.forceClass (d : Dev) : ExtraRaise → Dev
  | .classParity w =>
    let d := ((d.wr F.fltSet 1 w).wr F.fltAcked 0 w).wr F.fltLevel (d.rd F.fltCeil w) w
    ((d.setClassMask w (2 ^ 128 - 1)).showFaults.levelActs (d.rd F.fltCeil w)).showSafeOut
  | _ => d

/-- One classifier cycle (R402, R403): every raise that waits, one event for each class, in class order (log entry 29). -/
def Dev.classify (d : Dev) (extra : List ExtraRaise) : Dev :=
  let d := extra.foldl (fun d x => d.extraRaise x) d
  let rs := d.coll.raises
  let d := { d with coll := { d.coll with raises := [] } }
  let d := (List.range 32).foldl (fun d c =>
    let mine := rs.filter fun r => r.cls == c
    if mine.isEmpty then d else d.faultEvent c mine) d
  extra.foldl (fun d x => d.forceClass x) d

/-- FAULT_CLASSIFY (R402 to R406). -/
def execFaultClassify (t : Nat) (extra : List ExtraRaise) (s : State) : Host.Outcome State Fault Refusal :=
  event t s fun d => d.classify extra

/-! ## Acknowledging and clearing (R407, R408) -/

/-- The classes of a 32-bit mask. -/
def classesOf (mask : Nat) : List Nat := (List.range 32).filter mask.testBit

/-- A class is clear: level, mask and acknowledgement reset, and the counts of this setting. -/
def Dev.resetClass (d : Dev) (c : Nat) : Dev :=
  ((((d.wr F.fltSet 0 c).wr F.fltLevel 0 c).wr F.fltAcked 0 c).wr F.fltEscalations 0 c).setClassMask c 0

/-- ACK_FAULT on a mask (R407): the classes set among those named, and the block after. -/
def Dev.ackFaults (d : Dev) (mask : Nat) : Nat × Dev :=
  let cs := (classesOf mask).filter fun c => d.on F.fltSet c
  (cs.foldl (fun m c => m + 2 ^ c) 0, cs.foldl (fun d c => d.wr F.fltAcked 1 c) d)

/-- CLEAR_FAULT of one class (R408). -/
def Dev.clearClass (d : Dev) (c : Nat) : Dev :=
  if !d.on F.fltSet c || c = 28 || c = 31 || d.rd F.fltLevel c = 4 then d
  else
    let ev := tget (fun _ => (0, 0)) d.coll.lastEv c
    let fresh (s : Nat) : Bool := decide (ev.1 / 200 = d.now / 200) && ev.2.testBit s
    let left := sourceMask fun s => (d.classMask c).testBit s && (d.causeActive c s || fresh s)
    if left = 0 then ((d.resetClass c).showFaults).raise 0xA0 else d.setClassMask c left

/-- The exit from SNUFFED clears a class whatever its causes (R442). -/
def Dev.dropClass (d : Dev) (c : Nat) : Dev :=
  if d.on F.fltSet c then ((d.resetClass c).showFaults).raise 0xA0 else d

/-- ACK_FAULT. -/
def hAckFault (mask : Word) : Handler := fun _ d =>
  let (m, d) := d.ackFaults mask.toNat
  .reply stOk (le 4 m) d

/-- CLEAR_FAULT of class 15 or 16 also clears the trip latch of every leg whose causing input is inactive (R329). -/
def Dev.clearTrips (d : Dev) (mask : Nat) : Dev :=
  let named (n : Nat) : Bool := d.on F.legTripped n && mask.testBit (if d.rd F.legTripSrc n = 3 then 16 else 15)
  ((List.range 12).filter named).foldl (fun d n => d.legClear n) d

/-- CLEAR_FAULT (R101, R329, R408): raises that wait come first (R32). -/
def hClearFault (mask : Word) : Handler := fun _ d =>
  let d := (classesOf mask.toNat).foldl (fun d c => d.clearClass c) ((d.classify []).clearTrips mask.toNat)
  let left := d.setClasses &&& mask.toNat
  if left = 0 then okEmpty d else .reply stCauseActive (le 4 left) d

/-- ACK_FAULT (R407). -/
def execAckFault (t : Nat) (src : Src) (h : Hdr) (mask : Word) (s : State) : Host.Outcome State Fault Refusal :=
  opcode 0x82 t src h (le 4 mask.toNat) { auth := authP } (hAckFault mask) s

/-- CLEAR_FAULT (R408). -/
def execClearFault (t : Nat) (src : Src) (h : Hdr) (mask : Word) (s : State) : Host.Outcome State Fault Refusal :=
  opcode 0x83 t src h (le 4 mask.toNat) { auth := authP } (hClearFault mask) s

end Sys2Proof.Machine
end

