-- ==== Sys2Proof/Machine/Island.lean ====
section
/-!
DEFINITION. Machine/Island.lean: the safety island's events and opcodes (chapter 17). The island counts its own intervals in
ticks of 1 µs (R427): an event row says that one of them has ended.
-/
namespace Sys2Proof.Machine

/-! ## The door guard (R429 to R431) -/

/-- Where the guard test goes when the guard reads a new pair (R431). -/
def guardNext (st : GuardTest) (startTest closed opened : Bool) : GuardTest :=
  match st with
  | .idle => .idle
  | .waitOpen => if opened then .opening else .waitOpen
  | .opening => if opened then .opening else .waitOpen
  | .waitClose =>
    if closed then .closing else if opened || !startTest then .waitClose else .waitOpen
  | .closing =>
    if closed then .closing else if opened || !startTest then .waitClose else .waitOpen

/-- A filtered channel changes (R429 to R431, R445). -/
def Dev.guardChange (d : Dev) (a b : Bool) : Dev :=
  let was := d.guardClosed
  let wasBad := d.guardDiscrepant
  let d := (d.wr F.safeGuardA (flag a)).wr F.safeGuardB (flag b)
  let now := d.guardClosed
  let d := d.wr F.safeGuardClosed (flag now)
  let d := { d with island := { d.island with
    guardTest := guardNext d.island.guardTest d.island.startTest now d.guardOpen
    discrepancy := d.island.discrepancy && d.guardDiscrepant, guardFrom := d.up
    discFrom := if wasBad then d.island.discFrom else d.up } }
  if was && !now then
    let d := d.raise 0x70
    if !d.mode.guardMayOpen then (d.fault 28 0).safeState
    else if d.mode = .held && !d.on F.sysGuardPend then
      { d.wr F.sysGuardPend 1 with island := { d.island with guardTest := .waitClose, startTest := false } }
    else d
  else if !was && now then d.raise 0x71
  else d

/-- GUARD_CHANGE. -/
def execGuardChange (t : Nat) (a b : Bool) (s : State) : Host.Outcome State Fault Refusal :=
  event t s fun d => d.guardChange a b

/-- GUARD_DISCREPANCY (R429). -/
def execGuardDiscrepancy (t : Nat) (s : State) : Host.Outcome State Fault Refusal :=
  event t s fun d =>
    if d.guardDiscrepant && !d.island.discrepancy && d.islandSpent d.island.discFrom (1000 * d.rd F.safeDiscMs) then
      { d with island := { d.island with discrepancy := true } }.fault 29 0
    else d

/-- GUARD_HOLD_EXPIRY (R431): the open part of the start-up test ends, or the test passes. -/
def execGuardHoldExpiry (t : Nat) (s : State) : Host.Outcome State Fault Refusal :=
  event t s fun d =>
    if !d.islandSpent d.island.guardFrom (10000 * d.rd F.safeGuardHold) then d
    else match d.island.guardTest with
    | .opening => { d with island := { d.island with guardTest := .waitClose } }
    | .closing => ({ d with island := { d.island with guardTest := .idle, startTest := false } }.wr F.sysGuardPend 0).raise 0x72
    | _ => d

/-! ## The reset button and the watchdog (R428, R432) -/

/-- SAFE_RST_RELEASE (R432): a press of so many ticks ends. -/
def execSafeRstRelease (t : Nat) (pressTicks : Nat) (s : State) : Host.Outcome State Fault Refusal :=
  event t s fun d =>
    if d.boot.stage ≠ .light then d
    else
      let valid := !d.island.stuckActive && decide (50000 ≤ pressTicks) && decide (pressTicks < 5000000)
      let d := { d.wr F.safeRstIn 0 with island := { d.island with stuckActive := false } }
      if valid then
        ((d.wrPair F.safeEdgeAt d.now).wr F.safeEdgeValid (flag (decide (d.mode = .snuffed)))).raise 0x73
      else d

/-- RESET_INPUT_STUCK (R432): a press that lasts has reached 5 s. -/
def execResetInputStuck (t : Nat) (s : State) : Host.Outcome State Fault Refusal :=
  event t s fun d =>
    if d.boot.stage ≠ .light || d.island.stuckActive then d
    else ({ d with island := { d.island with stuckActive := true } }.wr F.safeRstIn 1).fault 29 1

/-- WATCHDOG_EXPIRY (R428): class 28 and the safe state. -/
def execWatchdogExpiry (t : Nat) (s : State) : Host.Outcome State Fault Refusal :=
  event t s fun d =>
    if d.island.watchdogLate then d
    else ({ d with island := { d.island with watchdogLate := true, lateAt := d.up } }.fault 28 2).safeState

/-! ## The breaker (R433 to R435) -/

/-- BKR_AUX_CHANGE (R433 to R435): reports a trip or a close. -/
def execBkrAuxChange (t : Nat) (closed : Bool) (s : State) : Host.Outcome State Fault Refusal :=
  event t s fun d =>
    if d.on F.safeBkrClosed == closed then d
    else
      let d := d.wr F.safeBkrClosed (flag closed)
      if closed then
        if d.on F.safeCloseActive && !d.island.closeSeen then
          { d with island := { d.island with closeSeen := true, closedAt := d.up } }.raise 0x78
        else d
      else if d.island.tripWait then { d with island := { d.island with tripWait := false, openAt := d.up } }.raise 0x77
      else d

/-- SAFE.TRIP_MAX of the demand in force in ms (R433): 1 s for a demand of BREAKER_TRIP where it is 0. -/
def Dev.tripMax (d : Dev) : Nat := if d.rd F.safeTripMax = 0 then 1000 else d.rd F.safeTripMax

/-- TRIP_RELEASE (R433): SAFE.TRIP_HOLD after the later of the demand and BKR_AUX open, or SAFE.TRIP_MAX after the demand. A demand of
SNUFFED with SAFE.TRIP_MAX 0 is not released. -/
def execTripRelease (t : Nat) (atMax : Bool) (s : State) : Host.Outcome State Fault Refusal :=
  event t s fun d =>
    if !d.on F.safeTripActive || (d.island.tripSnuffed && decide (d.rd F.safeTripMax = 0)) then d
    else if !atMax then
      (if d.island.tripWait || !d.islandSpent d.island.openAt (1000 * d.rd F.safeTripHold) then d else d.tripEnd)
    else if !d.islandSpent d.island.tripAt (1000 * d.tripMax) then d
    else if d.on F.safeBkrClosed then
      ({ d.tripEnd with island := { d.tripEnd.island with tripFailed := true, failedAt := d.up } }).fault 29 6
    else d.tripEnd

/-- TRIP_REPEAT (R433): in SNUFFED the demand that failed is made again, 10 s after its release (log entry 154). -/
def execTripRepeat (t : Nat) (s : State) : Host.Outcome State Fault Refusal :=
  event t s fun d =>
    if d.mode = .snuffed && d.island.tripFailed && d.on F.safeBkrClosed && !d.on F.safeTripActive
        && d.islandSpent d.island.failedAt 10000000 then d.tripDemand true
    else d

/-- Whether the close pulse is over (R435): 20 ms after BKR_AUX read closed, or SAFE.CLOSE_MS. -/
def Dev.closeOver (d : Dev) : Bool :=
  (d.island.closeSeen && d.islandSpent d.island.closedAt 20000) || d.islandSpent d.island.closeAt (10000 * d.rd F.safeCloseMs)

/-- CLOSE_PULSE_END (R435). -/
def execClosePulseEnd (t : Nat) (s : State) : Host.Outcome State Fault Refusal :=
  event t s fun d =>
    if d.on F.safeCloseActive && d.closeOver then
      let d := (d.wr F.safeCloseActive 0).driveSwitches 0
      if d.island.closeSeen then d else d.fault 29 7
    else d

/-- BREAKER_CLOSE: the first row of R435 that applies, or the pulse. -/
def hBreakerClose : Handler := fun _ d =>
  if (d.mode ≠ .held && d.mode ≠ .precharge) || decide (1 < d.rd F.twinRole) then refuse stWrongMode 0 d
  else if d.on F.sysGuardPend then refuse stBadParam 0x70 d
  else if d.on F.safeTripActive || d.on F.safeTestRun || d.on F.fltSet 28 || d.on F.fltSet 29 then
    refuse stBadParam 0x72 d
  else if d.rd F.safeSwOk ≠ 15 then refuse stBadParam 0x71 d
  else if d.on F.safeBkrClosed || d.on F.safeCloseActive then refuse stBadParam 0x73 d
  else
    let d := { d with island := { d.island with closeSeen := false, closeAt := d.up } }
    .reply stAccepted [] ((d.wr F.safeCloseActive 1).driveSwitches (switchBit 2 + switchBit 3))

/-- BREAKER_TRIP (R433, R434). -/
def hBreakerTrip : Handler := fun _ d =>
  if d.mode.switching then .reply stAccepted [] ((d.fault 28 1).safeState)
  else if d.on F.safeTripActive then .reply stAccepted [] d
  else .reply stAccepted [] (d.tripDemand (decide (d.mode = .snuffed)))

/-- BREAKER_CLOSE (R435). -/
def execBreakerClose (t : Nat) (src : Src) (h : Hdr) (s : State) : Host.Outcome State Fault Refusal :=
  opcode 0xE3 t src h [] { auth := authP, hostOnly := true } hBreakerClose s

/-- BREAKER_TRIP (R433, R434). -/
def execBreakerTrip (t : Nat) (src : Src) (h : Hdr) (s : State) : Host.Outcome State Fault Refusal :=
  opcode 0xE4 t src h [] { auth := authP } hBreakerTrip s

/-! ## Switch tests (R436 to R438) -/

/-- A switch's fault stands from now on (R403, R436, R437). -/
def Dev.switchFails (d : Dev) (k : Nat) : Dev :=
  let d := d.wr F.safeSwOk (d.rd F.safeSwOk &&& (15 ^^^ switchBit k))
  if d.island.switchFault.testBit k then d
  else { d with island := { d.island with switchFault := d.island.switchFault ||| 2 ^ k } }.fault 29 (2 + k)

/-- A switch passes its test (R437). -/
def Dev.switchPasses (d : Dev) (k : Nat) : Dev :=
  { d.wr F.safeSwOk (d.rd F.safeSwOk ||| switchBit k) with
    island := { d.island with switchFault := d.island.switchFault &&& (15 ^^^ 2 ^ k) } }

/-- SWITCH_FEEDBACK_MISMATCH (R436): outside a test, a sense has differed from its drive. -/
def execSwitchFeedbackMismatch (t : Nat) (switch : Fin 4) (s : State) : Host.Outcome State Fault Refusal :=
  event t s fun d =>
    if d.on F.safeTestRun then d
    else
      let bit := switchBit switch
      let other := if d.rd F.safeSwOut &&& bit = 0 then d.rd F.safeSwFb ||| bit else d.rd F.safeSwFb &&& (15 ^^^ bit)
      (d.wr F.safeSwFb other).switchFails switch

/-- One step of the sequence (R437): a test is judged and its gap begins, or the next switch turns on. -/
def Dev.testStep (d : Dev) (senseOn senseOff : Bool) : Dev :=
  match d.island.test with
  | .idle => d
  | .on k passed =>
    if !d.islandSpent d.island.testFrom (10 * d.rd F.safeTestUs) then d
    else
    let good := senseOn && senseOff
    let d := d.driveSwitches 0
    let d := if senseOff then d else d.wr F.safeSwFb (switchBit k)
    let d := if good then d.switchPasses k else d.switchFails k
    let passed := if good then passed + 1 else passed
    if k < 3 then d.testGoes (.gap k passed)
    else
      let d := { d with island := { d.island with test := .idle } }
      ((d.wr F.safeTestRun 0).wrPair F.safeTestAt d.now).raise (if passed = 4 then 0x74 else 0x75)
  | .gap k passed =>
    if d.islandSpent d.island.testFrom 1000 then (d.testGoes (.on (k + 1) passed)).driveSwitches (switchBit (k + 1)) else d

/-- SWITCH_TEST_STEP (R437). -/
def execSwitchTestStep (t : Nat) (senseOn senseOffInTime : Bool) (s : State) : Host.Outcome State Fault Refusal :=
  event t s fun d => d.testStep senseOn senseOffInTime

/-- PERIODIC_SWITCH_TEST (R437): SAFE.TEST_HOURS hours since Light or the last one (log entry 154). -/
def execPeriodicSwitchTest (t : Nat) (s : State) : Host.Outcome State Fault Refusal :=
  event t s fun d =>
    if d.boot.stage = .light && d.rd F.safeTestHours ≠ 0
        && decide (d.island.periodFrom + d.rd F.safeTestHours * 3600 * ticksSec ≤ d.up) then
      { d with island := { d.island with periodFrom := d.up } }.startTests
    else d

/-- SAFE_TEST: a sequence, in HELD only. -/
def hSafeTest : Handler := fun _ d =>
  if d.mode ≠ .held then refuse stWrongMode 0 d else .reply stAccepted [] d.startTests

/-- SAFE_TEST (R437). -/
def execSafeTest (t : Nat) (src : Src) (h : Hdr) (switch : Byte) (s : State) : Host.Outcome State Fault Refusal :=
  opcode 0xE1 t src h (switch :: zeros 3) { auth := authM, hostOnly := true } hSafeTest s

/-! ## Contactors (R440) -/

/-- LVC_FB_CHANGE (R440, R445). -/
def execLvcFbChange (t : Nat) (contactor : Fin 4) (level : Bool) (s : State) : Host.Outcome State Fault Refusal :=
  event t s fun d =>
    let bit := 2 ^ contactor.val
    let fb := if level then d.rd F.safeLvcFb ||| bit else d.rd F.safeLvcFb &&& (15 ^^^ bit)
    if fb = d.rd F.safeLvcFb then d else ((d.wr F.safeLvcFb fb).contactorsSettle).raise 0x79

/-- CONTACTOR_MISMATCH (R440). -/
def execContactorMismatch (t : Nat) (contactor : Fin 4) (s : State) : Host.Outcome State Fault Refusal :=
  event t s fun d =>
    if d.contactorWrong contactor && !d.island.lvcMismatch.testBit contactor
        && d.islandSpent (d.island.lvcAt.getD contactor 0) (10000 * d.rd F.safeLvcMs) then
      { d with island := { d.island with lvcMismatch := d.island.lvcMismatch ||| 2 ^ contactor.val } }.fault 29
        (8 + contactor)
    else d

/-! ## Leaving SNUFFED (R442) -/

/-- Whether a valid reset edge since entry to SNUFFED is recent enough (R442, SAFE.EDGE_VALID). -/
def Dev.edgeValid (d : Dev) : Bool :=
  d.on F.safeEdgeValid && decide (d.now ≤ d.rdPair F.safeEdgeAt + d.rd F.safeAckWin * ticksSec)

/-- The classes that keep the node in SNUFFED (R442): bit 28 also for the guard, the breaker and the contactors. -/
def Dev.snuffHolds (d : Dev) : Nat :=
  let cs := (List.range 32).filter fun c =>
    (c = 28 || (d.on F.fltSet c && d.rd F.fltLevel c == 4)) && d.activeMask c != 0
  let welded := (d.rd F.safeLvcUsed &&& d.rd F.safeLvcFb) != d.rd F.safeLvcUsed
  let plant := !d.guardClosed || d.on F.safeBkrClosed || welded
  (if plant && !cs.contains 28 then cs ++ [28] else cs).foldl (fun m c => m + 2 ^ c) 0

/-- What SAFE_ACK does when nothing holds (R442). -/
def Dev.leaveSnuffed (d : Dev) : Dev :=
  let cs := (List.range 32).filter fun c => c = 28 || c = 31 || d.rd F.fltLevel c == 4
  let d := cs.foldl (fun d c => d.dropClass c) d
  let d := d.tripEnd.wr F.safeEdgeValid 0
  let d := { d with island := { d.island with tripFailed := false } }
  ((d.changeMode .held 8).driveContactors).raise 0x7B

/-- SAFE_ACK. -/
def hSafeAck : Handler := fun _ d =>
  if d.mode ≠ .snuffed then refuse stWrongMode 0 d
  else if !d.edgeValid then refuse stBadParam 0x74 d
  else if d.snuffHolds ≠ 0 then .reply stCauseActive (le 4 d.snuffHolds) d
  else .reply stOk (le 4 (d.leaveSnuffed.word 0x0002 0)) d.leaveSnuffed

/-- SAFE_ACK (R442). -/
def execSafeAck (t : Nat) (src : Src) (h : Hdr) (s : State) : Host.Outcome State Fault Refusal :=
  opcode 0xE2 t src h [] { auth := authP, hostOnly := true } hSafeAck s

end Sys2Proof.Machine
end

