-- ==== Sys2Proof/Machine/Boot.lean ====
section
/-!
DEFINITION. Machine/Boot.lean: reset, Spark and Kindle (chapter 2), the clocks (chapter 3) and the die temperature (R515).
-/
namespace Sys2Proof.Machine

/-! ## Reset (R43, R44, R400, R412) -/

/-- The code of a rail in SYS.RESET_RAIL (R44). -/
def railCode : Rail → Nat
  | .vddCore => 1 | .vddaLane => 2 | .vddhLane => 3 | .vddqMem => 4 | .vddIo18 => 5 | .vddIo33 => 6 | .vddaPll => 7

/-- A reset with a cause and a rail: everything at its reset value but what R44, R356, R400 and R412 keep. -/
def Dev.resetWith (d : Dev) (cause rail : Nat) : Dev :=
  let broken := match d.cal.writing with | some w => d.cal.broken ++ [w.1] | none => d.cal.broken
  let n : Dev := { cal := { pages := d.cal.pages, counts := d.cal.counts, broken := broken }, fresh := d.fresh }
  if cause = 0 then n
  else
    let n := { n with coll := { n.coll with history := d.coll.history } }
    let n := ((n.wr F.sysResetCount (min 65535 (d.rd F.sysResetCount + 1))).wr F.sysResetCause cause).wr F.sysResetRail rail
    let n := (n.wr F.twinEpoch (d.rd F.twinEpoch)).wr F.fltHistSeq (d.rd F.fltHistSeq)
    (n.wr F.fltHistBoot (d.rd F.fltHistSeq)).wr F.fltHistFill (d.rd F.fltHistFill)

/-- The device resets under R43; out of a Spark stopped under R47 the cause is 0x5. -/
def Dev.deviceReset (d : Dev) (c : ResetCause) : Dev :=
  let stopped := decide (d.boot.stage = .stopped)
  match c with
  | .powerOn => d.resetWith 0 0
  | .pornPin => d.resetWith (if stopped then 5 else 1) 0
  | .railMonitor r => d.resetWith (if stopped then 5 else 2) (railCode r)

/-- DEVICE_RESET (R43, R44). -/
def execDeviceReset (t : Nat) (cause : ResetCause) (s : State) : Host.Outcome State Fault Refusal :=
  event t s fun d => d.deviceReset cause

/-- WATCHDOG_RESET (R428): a further 100 ms without service. -/
def execWatchdogReset (t : Nat) (s : State) : Host.Outcome State Fault Refusal :=
  event t s fun d => if d.island.watchdogLate && d.islandSpent d.island.lateAt 100000 then d.resetWith 4 0 else d

/-- RESET: kind 0 only (R115). -/
def hReset (kind : Byte) : Handler := fun _ d =>
  if kind ≠ 0 then refuse stBadParam 0x92 d else okEmpty { d with resetAt := some (d.up + ticksMs) }

/-- RESET (R115). -/
def execReset (t : Nat) (src : Src) (h : Hdr) (kind : Byte) (s : State) : Host.Outcome State Fault Refusal :=
  opcode 0xF0 t src h (kind :: zeros 3) { auth := authM, hostOnly := true, confirm := true } (hReset kind) s

/-- RESET_DELAY_EXPIRY (R115): 1 ms after the reply. -/
def execResetDelayExpiry (t : Nat) (s : State) : Host.Outcome State Fault Refusal :=
  event t s fun d =>
    match d.resetAt with
    | some x => if d.timeRuns && !d.spent (x - ticksMs) ticksMs then d else d.resetWith 3 0
    | none => d

/-- SUPPLY_OUT_OF_RANGE (R43, R403): a rail falls below its warning threshold, or is above it again. -/
def execSupplyOutOfRange (t : Nat) (rail : RailCross) (s : State) : Host.Outcome State Fault Refusal :=
  event t s fun d =>
    let k := railCode rail.rail
    if d.clk.railsLow.testBit k == rail.below then d
    else
      let d := { d with clk := { d.clk with railsLow := d.clk.railsLow ^^^ 2 ^ k } }
      if rail.below then d.fault 0 k else d

/-! ## Spark (R42, R46 to R48) -/

/-- SPARK_START (R42, R65): t0 of Spark. -/
def execSparkStart (t : Nat) (refSel : Bool) (s : State) : Host.Outcome State Fault Refusal :=
  event t s fun d =>
    if d.boot.stage = .waiting then
      let d := { d with boot := { d.boot with stage := .sparkFuses } }
      let d := (d.wr F.clkRefSel (flag refSel)).wr F.clkRefActive (flag refSel)
      ((((d.wr F.clkLocked 0).wr F.sysMode 1).wr F.sysModePrev 0).wr F.sysModeSeq 0)
    else d

/-- SYS.VARIANT of a part (R64). -/
def variantCode : Variant → Nat
  | .aqv9648 => 0x48 | .aqv9632 => 0x32 | .aqv9616 => 0x16

/-- The capability words of a variant (R64): cell lanes, down ports, twin, acquisition level, loop slots, DRAM, cells. -/
def variantCaps : Variant → Nat × Nat × Nat × Nat × Nat × Nat × Nat
  | .aqv9648 => (48, 4, 1, 2, 256, 8, 96)
  | .aqv9632 => (32, 2, 1, 1, 192, 4, 64)
  | .aqv9616 => (16, 0, 0, 0, 128, 2, 32)

/-- The eight words of a key hash, hash bytes 0 to 3 in the first. -/
def hashWords (h : BitVec 256) : List Word := (List.range 8).map fun i => h.extractLsb' (32 * i) 32

/-- The fuses as they stand after a read (R48): what a read has found of this part once stands, with what has been programmed since. -/
def Fuse.merge (f : Fuse) (r : FuseRead) : Fuse :=
  match f.part with
  | some _ => f
  | none =>
    match r.key with
    | some (hash, signed) =>
      if f.keyLocked then { f with part := some r }
      else { signedBoot := signed, keyLocked := true, keyHash := hashWords hash, part := some r }
    | none => { f with part := some r }

/-- The words derived from the fuses (R64, R475). -/
def Dev.showFuses (d : Dev) (f : Fuse) (corrected : Bool) : Dev :=
  match f.part with
  | none => d
  | some r =>
    let (lanes, ports, twin, acq, loops, gib, cells) := variantCaps r.variant
    let d := (((d.wr F.sysVariant (variantCode r.variant)).wr F.sysCellLanes lanes).wr F.sysDownPorts ports).wr F.sysTwinPresent twin
    let d := (((d.wr F.sysAcqLevel acq).wr F.sysLoopSlots loops).wr F.sysDramMaxGib gib).wr F.sysCellSlots cells
    let d := (d.wr F.sysSignedBoot (flag f.signedBoot)).wr F.sysKeyLocked (flag f.keyLocked)
    let d := (List.range 4).foldl (fun d i => d.wr F.sysUid (r.uid.extractLsb' (32 * i) 32).toNat i) d
    let d := (f.keyHash.take 8).zipIdx.foldl (fun d x => d.wr F.sysKeyHash x.1.toNat x.2) d
    let d := (r.spares.take 96).zipIdx.foldl (fun d x => (d.wr F.memBRows x.1.1 x.2).wr F.memBCols x.1.2 x.2) d
    (d.wr F.sysFuseCorr (flag corrected)).wr F.sysRepairUsed (flag r.repairUsed)

/-- FUSE_READ_DONE (R46 to R48): the fuses as read and whether a word was corrected, or Spark stops. -/
def execFuseReadDone (t : Nat) (outcome : Option (FuseRead × Bool)) (s : State) : Host.Outcome State Fault Refusal :=
  match outcome with
  | none =>
    event t s fun d =>
      if d.boot.stage = .sparkFuses then { d with boot := { d.boot with stage := .stopped } } else d
  | some (r, corrected) =>
    if s.dev.boot.stage = .sparkFuses then
      let f := s.fuse.merge r
      let d := { s.dev with boot := { s.dev.boot with stage := .sparkPll } }
      .next { s with fuse := f, dev := d.showFuses f corrected }
    else .next s

/-- SPARK_PLL_TIMEOUT (R47): Spark stops. -/
def execSparkPllTimeout (t : Nat) (s : State) : Host.Outcome State Fault Refusal :=
  event t s fun d =>
    if d.boot.stage = .sparkPll then { d with boot := { d.boot with stage := .stopped } } else d

/-- RAMP_END (R74). -/
def execRampEnd (t : Nat) (s : State) : Host.Outcome State Fault Refusal :=
  event t s fun d =>
    if d.on F.clkRamping then
      let stage := if d.boot.stage = .sparkRamp then .sparkSram else d.boot.stage
      { d.wr F.clkRamping 0 with boot := { d.boot with stage := stage } }
    else d

/-- SRAM_INIT_DONE (R46 step 6): Kindle begins. -/
def execSramInitDone (t : Nat) (s : State) : Host.Outcome State Fault Refusal :=
  event t s fun d =>
    if d.boot.stage = .sparkSram then
      let d := { d with boot := { d.boot with stage := .kindle } }
      (((d.wr F.sysMode 2).wr F.sysModePrev 1).wr F.sysModeSeq 1).raise 0x02
    else d

/-! ## Kindle (R49 to R56) -/

/-- The known section types and the most blocks each may take (R52). -/
def sectionLimit (typ : Nat) : Option Nat :=
  match typ with
  | 0x01 => some 261 | 0x02 => some 1 | 0x03 => some 4 | 0x04 => some 1 | 0x05 => some 2 | 0x06 => some 4
  | 0x07 => some 256 | 0x08 => some 16 | 0x09 => some 4 | 0x0A => some 2 | 0x0B => some 4 | 0x0C => some 2
  | 0x0D => some 2048 | 0xFF => some 1 | _ => none

/-- One entry of the directory (R51). -/
def dirEntry (b : Bytes) (i : Nat) : DirEntry :=
  let a := 20 + 8 * i
  { typ := byteAt b a, flags := byteAt b (a + 1), first := leAt b (a + 2) 2, count := leAt b (a + 4) 2
    lastLen := leAt b (a + 6) 2 }

/-- The header in a block 0 with a good CRC (R50, R51): magic, format, length, read mode and clock. A DUMMY above 15, reserved bytes and
flag bits that are not 0 and directory entries beyond SECTIONS make no header invalid (log entry 155). -/
def parseHeader (b : Bytes) : Option ImgHdr :=
  let len := leAt b 12 2
  if b.take 4 == [0x46, 0x49, 0x4C, 0x55] && leAt b 4 2 == 1 && decide (2 ≤ len) && decide (len ≤ 16384)
      && decide (byteAt b 14 ≤ 2) && decide (byteAt b 16 ≤ 2) then
    some { seq := leAt b 8 4, length := len, readMode := byteAt b 14, dummy := byteAt b 15, readClock := byteAt b 16
           romMatch := leAt b 18 2
           dir := if byteAt b 17 ≤ 29 then (List.range (byteAt b 17)).map (dirEntry b) else [] }
  else none

/-- Whether sections follow block 0 in directory order without overlap, within the slot and their limits (R51, R52). -/
def dirConsistent (len : Nat) : Nat → List DirEntry → Bool
  | _, [] => true
  | at_, e :: t =>
    let limit := (sectionLimit e.typ).getD 16384
    decide (at_ ≤ e.first) && decide (1 ≤ e.count) && decide (e.first + e.count ≤ len) && decide (e.count ≤ limit)
      && decide (e.lastLen ≤ 252) && (e.typ != 0x01 || decide (252 * (e.count - 1) + e.lastLen ≤ 65536))
      && (e.typ != 0xFF || decide (e.first + 1 = len)) && dirConsistent len (e.first + e.count) t

/-- Why a header's slot is rejected before its blocks are read (R51, R52, R54): the cause, or none. -/
def headerCause (fw : Nat) (signedBoot : Bool) (h : ImgHdr) : Option Nat :=
  if h.dir.isEmpty || !dirConsistent h.length 1 h.dir then some 5
  else if h.dir.any fun e => (sectionLimit e.typ).isNone && e.flags % 2 = 0 then some 4
  else if h.dir.any fun e => e.typ == 1 && h.romMatch != fw then some 9
  else if signedBoot && !(h.dir.any fun e => e.typ == 0xFF) then some 6
  else none

/-- SYS.SLOT_A_CAUSE or SYS.SLOT_B_CAUSE. -/
def slotCause (slotB : Bool) : Fld := if slotB then F.sysSlotBCause else F.sysSlotACause

/-- The header of a slot, if valid. -/
def Boot.hdr (b : Boot) (slotB : Bool) : Option ImgHdr := if slotB then b.hdrB else b.hdrA

/-- The blocks of a slot as its reading begins: block 0 alone (R53). -/
def Boot.header (b : Boot) (slotB : Bool) : List (Nat × Bytes) := tset (fun _ => []) [] 0 (if slotB then b.blockB else b.blockA)

/-- Try the next slot that may be tried (R50, R53): the valid ones not yet judged, the larger IMAGE_SEQ first and slot A
first when equal; a slot whose header alone rejects it is rejected at once. -/
def Dev.tryNext : Nat → Dev → Dev
  | 0, d => d
  | fuel + 1, d =>
    let open_ (slotB : Bool) : Option ImgHdr := if d.rd (slotCause slotB) = 0 then d.boot.hdr slotB else none
    let pick : Option (Bool × ImgHdr) := match open_ false, open_ true with
      | some a, some b => if a.seq < b.seq then some (true, b) else some (false, a)
      | some a, none => some (false, a)
      | none, some b => some (true, b)
      | none, none => none
    match pick with
    | none => { d with boot := { d.boot with trying := none } }
    | some (b, h) =>
      match headerCause (d.rd F.sysFwRelease) (d.on F.sysSignedBoot) h with
      | some c => (d.wr (slotCause b) c).tryNext fuel
      | none => { d with boot := { d.boot with trying := some b, next := 1, blocks := d.boot.header b, rereads := 0, sigWait := false } }

/-- The slot being tried is rejected (R53, R54). -/
def Dev.rejectSlot (d : Dev) (b : Bool) (cause : Nat) : Dev :=
  let d := d.wr (slotCause b) cause
  { d with boot := { d.boot with trying := none, blocks := [], sigWait := false } }.tryNext 3

/-- The blocks of a section of the accepted slot; of two directory entries of one type, those of the first (log entry 155). -/
def Boot.section (b : Boot) (h : ImgHdr) (typ : Nat) : List Bytes :=
  match h.dir.find? fun e => e.typ == typ with
  | none => []
  | some e => (List.range e.count).map fun i => tget (fun _ => []) b.blocks (e.first + i)

/-- The payload bytes of a section as one string, the last block cut to its length (R51). -/
def Boot.sectionBytes (b : Boot) (h : ImgHdr) (typ : Nat) : Bytes :=
  match h.dir.find? fun e => e.typ == typ with
  | none => []
  | some e => ((b.section h typ).flatMap fun x => padTo 252 x).take (252 * (e.count - 1) + e.lastLen)

/-- Whether a state object belongs to the content that R52 names for a typed section whose layout the spec does not give. -/
def typedSo (typ so : Nat) : Bool :=
  match typ with
  | 0x02 => so == 0x0082 || so == 0x0083
  | 0x04 => so / 256 == 0x0D || so == 0x0E00
  | 0x05 => so == 0x0201
  | 0x08 => so / 256 == 0x04 || so / 256 == 0x08 || (so / 256 == 0x09 && !([0x0900, 0x0901, 0x0911].contains so))
  | 0x09 => so == 0x0F03 || so == 0x0F10
  | 0x0A => so == 0x1000
  | 0x0B => so == 0x0B00
  | _ => false

/-- A word that an image puts into the Basket or, of boot class, into force: its key, the bits of RS and RW fields, its value. -/
def wholeWord (so word : Nat) (v : Nat) : Nat × (Word × Word) :=
  (wordKey so word, (accMask so word (fun a => a == .rs || a == .rw), BitVec.ofNat 32 v))

/-- The words that a typed section gives, where the image has it (log entry 83). -/
def Boot.typedWords (b : Boot) (h : ImgHdr) (typ : Nat) : List (Nat × (Word × Word)) :=
  if h.dir.any fun e => e.typ == typ then
    let bytes := b.sectionBytes h typ
    (soTable.filter fun s => typedSo typ s.so).flatMap fun s => (List.range s.soN).flatMap fun i =>
      (List.range s.words).filterMap fun w =>
        (Config.sectionWord typ bytes (s.so + i) w).map fun v => wholeWord (s.so + i) w v.toNat
  else []

/-- Words put into force, each in the bits of its mask. -/
def Dev.force (d : Dev) (ws : List (Nat × (Word × Word))) : Dev :=
  { d with regs := ws.foldl (fun r e => tset resetWord r e.1 ((tget resetWord r e.1 &&& ~~~ e.2.1) ||| (e.2.2 &&& e.2.1))) d.regs }

/-- Whether an equalisation entry is valid (R158, R159). -/
def eqValid (e : Bytes) : Bool :=
  let pre := byteAt e 1
  let main := byteAt e 2
  let post := byteAt e 3
  byteAt e 0 % 2 = 1 && decide (byteAt e 0 < 8) && decide (pre ≤ 15) && decide (main ≤ 63) && decide (post ≤ 31)
    && decide (byteAt e 4 ≤ 15) && zeroRange e 5 3 && decide (pre + main + post ≤ 63) && decide (16 + pre + post ≤ main)

/-- The equalisation of one lane taken from an entry. -/
def Dev.eqLane (d : Dev) (l : Nat) (e : Bytes) : Dev :=
  if eqValid e && decide (l < 55) then
    let d := ((d.wr F.laneEqPre (byteAt e 1) l).wr F.laneEqMain (byteAt e 2) l).wr F.laneEqPost (byteAt e 3) l
    let d := (d.wr F.laneEqCtle (byteAt e 4) l).wr F.laneEqTxinv (byteAt e 0 / 2 % 2) l
    (d.wr F.laneEqRxinv (byteAt e 0 / 4 % 2) l).wr F.laneEqDefault 0 l
  else d

/-- Section 0x03 takes effect (R158, R159). A block whose COUNT is above 16 counts as one with 16 entries (log entry 155). -/
def Dev.eqTable (d : Dev) (blocks : List Bytes) : Dev :=
  blocks.foldl (fun d b =>
    let first := byteAt b 0
    if [0, 16, 32, 48].contains first then
      (List.range (min 16 (byteAt b 1))).foldl (fun d k => d.eqLane (first + k) ((b.drop (8 + 8 * k)).take 8)) d
    else d) d

/-- The slot being tried is accepted (R53 to R55, R63). -/
def Dev.acceptSlot (d : Dev) (b : Bool) (h : ImgHdr) (signed : Bool) : Dev :=
  let d := d.wr (slotCause b) 1
  let d := if d.rd (slotCause (!b)) = 0 then d.wr (slotCause (!b)) 10 else d
  let d := ((d.wr F.sysSlotLoaded (if b then 2 else 1)).wr F.sysSigned (flag signed)).wr F.sysFlashWidth h.readMode
  let d := (d.wr F.sysFlashClock h.readClock).wr F.sysImageSeq h.seq
  let patch := d.boot.section h 1
  let d := if patch.isEmpty then d else d.wr F.sysPatchLevel (Config.patchLevel patch.flatten).toNat
  let d := (d.eqTable (d.boot.section h 3)).force (d.boot.typedWords h 0x02)
  { d with boot := { d.boot with accepted := true, sigWait := false } }

/-- KINDLE_HEADER_READ (R50, R53): block 0 of slot A, then of slot B; a block that fails its CRC is read again up to 3
times. -/
def Dev.headerRead (d : Dev) (slotB : Bool) (b : Bytes) : Dev :=
  if d.boot.stage ≠ .kindle || decide (d.boot.headersRead ≠ (if slotB then 1 else 0)) then d
  else if !blockGood b && decide (d.boot.rereads < 3) then
    { d with boot := { d.boot with rereads := d.boot.rereads + 1 } }.bump F.sysBootRereads
  else
    let h := if blockGood b then parseHeader b else none
    let boot := { d.boot with headersRead := d.boot.headersRead + 1, rereads := 0 }
    let p := b.take 252
    let d := { d with boot := if slotB then { boot with hdrB := h, blockB := p } else { boot with hdrA := h, blockA := p } }
    let d := if h.isNone then d.wr (slotCause slotB) 2 else d
    if slotB then d.tryNext 3 else d

/-- KINDLE_BLOCK_READ (R53): the next block of the slot being tried, or a re-read of it. -/
def Dev.blockRead (d : Dev) (b : Bytes) : Dev :=
  match d.boot.trying with
  | none => d
  | some slotB =>
    match d.boot.hdr slotB with
    | none => d
    | some h =>
      if d.boot.stage ≠ .kindle || d.boot.accepted || d.boot.sigWait then d
      else if !blockGood b then
        if d.boot.rereads < 3 then
          { d with boot := { d.boot with rereads := d.boot.rereads + 1 } }.bump F.sysBootRereads
        else (d.wr (if slotB then F.sysFailBlockB else F.sysFailBlockA) d.boot.next).rejectSlot slotB 3
      else
        let d := { d with boot := { d.boot with
          blocks := tset (fun _ => []) d.boot.blocks d.boot.next (b.take 252), next := d.boot.next + 1, rereads := 0 } }
        if d.boot.next < h.length then d
        else if d.on F.sysSignedBoot then { d with boot := { d.boot with sigWait := true } }
        else d.acceptSlot slotB h false

/-- The payloads of blocks 0 to LENGTH − 2 of the slot being tried (R54). -/
def Boot.signedBytes (b : Boot) (h : ImgHdr) : Bytes :=
  (List.range (h.length - 1)).flatMap fun i => padTo 252 (tget (fun _ => []) b.blocks i)

/-- SIGNATURE_VERIFIED (R54): the hash of the key against the fuses, and the Ed25519 verification of what the blocks hold. -/
def Dev.signature (d : Dev) : Dev :=
  match d.boot.trying with
  | none => d
  | some slotB =>
    match d.boot.hdr slotB with
    | none => d
    | some h =>
      let block := tget (fun _ => []) d.boot.blocks (h.length - 1)
      let key := block.take 32
      let hash := (List.range 8).flatMap fun i => le 4 (d.rd F.sysKeyHash i)
      if !d.boot.sigWait then d
      else if sha256 key != hash then d.rejectSlot slotB 7
      else if !Config.ed25519 key (d.boot.signedBytes h) ((block.drop 32).take 64) || !zeroRange block 96 156 then
        d.rejectSlot slotB 8
      else d.acceptSlot slotB h true

/-- KINDLE_HEADER_READ (R50, R53): a read that gives other than 256 bytes fails like one of bad CRC. -/
def execKindleHeaderRead (t : Nat) (slotB : Bool) (block : List Byte) (s : State) : Host.Outcome State Fault Refusal :=
  event t s fun d => d.headerRead slotB block

/-- KINDLE_BLOCK_READ (R53), the same. -/
def execKindleBlockRead (t : Nat) (block : List Byte) (s : State) : Host.Outcome State Fault Refusal :=
  event t s fun d => d.blockRead block

/-- SIGNATURE_VERIFIED: the final verification ends. -/
def execSignatureVerified (t : Nat) (_key _signature : Unit) (s : State) : Host.Outcome State Fault Refusal :=
  event t s fun d => d.signature

/-- DRAM_TRAINING_DONE (R56, R452, R453): the size found, of which the controller addresses SYS.DRAM_MAX_GIB (log entry 8). -/
def execDramTrainingDone (t : Nat) (passed : Bool) (ranks : Fin 4) (mib : Nat) (s : State) :
    Host.Outcome State Fault Refusal :=
  event t s fun d =>
    if d.boot.stage ≠ .kindle then d
    else if passed then
      let mib := min mib (1024 * d.rd F.sysDramMaxGib)
      (((d.wr F.memDramOk 1).wr F.memRanks ranks).wr F.memDramMib mib).wr F.memDataPages (mib * 1048576 / 1088)
    else
      let d := { d with boot := { d.boot with dramFailed := true } }
      ((d.wr F.memDramOk 0).wr F.memDramMib 0).wr F.memDataPages 0

/-! ## Lock and relock (R72 to R77) -/

/-- A paired unit after a relock counts as returning from repair (R76, R394). -/
def Dev.relocked (d : Dev) : Dev :=
  let d := d.bump F.clkRelocks
  if d.paired then
    let d := { d with twin := { d.twin with waitRound := true, inRound := false, leaseOut := false } }
    (((d.wr F.twinRole 3).wr F.twinEligible 0).wr F.twinCopyFull 0)
  else d

/-- Lock is declared (R73), and the outputs are released (R81): in Spark, or after a loss, when fabric time resumes at the value held
plus 400 fine ticks for each reference cycle counted until the release edge (R200), SAFE leaves the supervisor oscillator (log entry
156), and a local reference in use is there again. -/
def Dev.pllLock (d : Dev) (band refCycles : Nat) : Dev :=
  if d.boot.stage = .sparkPll then
    let d := { d with boot := { d.boot with stage := .sparkRamp } }
    ((d.wr F.clkLocked 1).wr F.clkRamping 1).wr F.clkBand band
  else if d.clk.relocking then
    let fromTable := d.clk.tableBand
    let d := { d with clk := { d.clk with
      relocking := false, unlocked5ms := false, tableBand := none, safeOnSup := false
      localLost := d.clk.localLost && decide (d.rd F.clkRefActive = 2) } }
    let d := ((d.wr F.clkLocked 1).wr F.clkRamping 1).wr F.clkBand (fromTable.getD band)
    let d := if d.boot.stage = .light then d.advance (d.now + 400 * refCycles) else d
    (d.wr F.clkBandFromTable (flag fromTable.isSome)).relocked.legsRefresh.brakeUpdate
  else d

/-- PLL_LOCKED (R73, R81, R200): with the band found, and the reference cycles counted since lock was lost. -/
def execPllLocked (t : Nat) (found : LockFound) (s : State) : Host.Outcome State Fault Refusal :=
  event t s fun d => d.pllLock found.band found.refCycles

/-- BAND_TABLE_LOCK_TIMEOUT (R72): the automatic search runs. -/
def execBandTableLockTimeout (t : Nat) (s : State) : Host.Outcome State Fault Refusal :=
  event t s fun d => if d.clk.relocking && d.clk.tableBand.isSome then (d.loadBand none).raise 0x06 else d

/-- PLL_LOCK_LOST (R76). -/
def execPllLockLost (t : Nat) (s : State) : Host.Outcome State Fault Refusal := event t s fun d => d.pllLost

/-- LOCK_NOT_REGAINED (R77). -/
def execLockNotRegained (t : Nat) (s : State) : Host.Outcome State Fault Refusal :=
  event t s fun d =>
    if d.clk.relocking && !d.clk.unlocked5ms then
      { d with clk := { d.clk with unlocked5ms := true } }.fault 3 1
    else d

/-! ## The reference (R67 to R70) -/

/-- A commit of CLK.REF_SRC (R67, R68). -/
def Dev.refCommit (d : Dev) (old : Dev) : Dev :=
  if d.rd F.clkRefSrc = old.rd F.clkRefSrc then d
  else if d.on F.clkRefSrc then d.wr F.clkRefActive 2
  else
    let d := d.wr F.clkRefActive (d.rd F.clkRefSel)
    if d.clk.localLost && old.rd F.clkRefActive = 2 then d.pllLost else d

/-- The recovered reference is no good at this instant (R69): its second starts again, and it falls back where it is in use. -/
def Dev.refBad (d : Dev) : Dev := { d with clk := { d.clk with refGoodFrom := d.up } }.refFallback

/-- REF_RECOVERED_CLOCK_MISSING (R69). -/
def execRefRecoveredClockMissing (t : Nat) (s : State) : Host.Outcome State Fault Refusal :=
  event t s fun d => d.refBad

/-- REF_FREQUENCY_WINDOW (R69): the recovered frequency was so many ppm off the local one. -/
def execRefFrequencyWindow (t : Nat) (ppmOff : Int) (s : State) : Host.Outcome State Fault Refusal :=
  event t s fun d => if 200 < ppmOff.natAbs then d.refBad else d

/-- REF_RESTORE (R69): U has held block lock and passed the frequency check for 1 s. -/
def execRefRestore (t : Nat) (s : State) : Host.Outcome State Fault Refusal :=
  event t s fun d =>
    if d.on F.clkRefSrc && d.on F.laneLocked laneU && d.spent d.clk.refGoodFrom ticksSec then d.wr F.clkRefActive 2 else d

/-- LOCAL_REF_LOST (R70): the local reference shows no edge, or edges again. -/
def execLocalRefLost (ref : LocalRef) (s : State) : Host.Outcome State Fault Refusal :=
  event ref.t s fun d =>
    let d := { d with clk := { d.clk with localLost := ref.lost } }
    if !ref.lost then d else if d.rd F.clkRefActive = 2 then d.wr F.clkRefLostLocal 1 else d.pllLost

/-! ## Supervision (R82, R515) -/

/-- CLOCK_MONITOR_CHECK (R82): the outputs whose count was out of range; a failure of SAFE moves it onto the supervisor oscillator. -/
def execClockMonitorCheck (t : Nat) (bad : BitVec 12) (s : State) : Host.Outcome State Fault Refusal :=
  event t s fun d =>
    let hit := (List.range 12).filter fun i => bad.getLsbD i && d.on F.clkEn i && !d.outputGated i
    let new := hit.filter fun i => !d.clk.monBad.testBit i
    let mask := hit.foldl (fun m i => m + 2 ^ i) 0
    let d := { d with clk := { d.clk with monBad := mask, safeOnSup := d.clk.safeOnSup || mask.testBit 1 } }
    let d := d.wr F.clkMonFail (d.rd F.clkMonFail ||| mask)
    new.foldl (fun d i => d.fault 2 i) d

/-- DIE_TEMPERATURE_UPDATE (R515). -/
def execDieTemperatureUpdate (t : Nat) (t0 t1 t2 t3 : BitVec 16) (s : State) : Host.Outcome State Fault Refusal :=
  event t s fun d =>
    let d := [t0, t1, t2, t3].zipIdx.foldl (fun d x => d.wr F.sysDieT x.1.toNat x.2) d
    let top := d.dieTemp
    let d := if sN 16 (d.rd F.sysTPeak) < top then d.wr F.sysTPeak (BitVec.ofInt 16 top).toNat else d
    let warn := 16 * sN 8 (d.rd F.sysTWarn)
    if !d.clk.tWarned && decide (warn ≤ top) then
      { d with clk := { d.clk with tWarned := true } }.raise 0x0B
    else if d.clk.tWarned && decide (top ≤ warn - 80) then { d with clk := { d.clk with tWarned := false } }
    else d

/-- AC_TEST_INSTRUCTION (R162): in force in SPARK, KINDLE, HELD and SNUFFED, in any other mode as BYPASS. -/
def execAcTestInstruction (t : Nat) (instruction : AcTest) (s : State) : Host.Outcome State Fault Refusal :=
  event t s fun d => { d with tap := if d.mode.guardMayOpen then some instruction else none }

end Sys2Proof.Machine
end

