-- ==== Sys2Proof/Machine/Views.lean ====
section
/-!
DEFINITION. Machine/Views.lean: what a state-object word reads as: the register words of State, and those the block forms
from the rest of its state when they are read (R2, R140).
-/
namespace Sys2Proof.Machine

/-- A word with a field replaced. -/
def put (w : Nat) (f : Fld) (v : Nat) : Nat := (putBits (BitVec.ofNat 32 w) f.hi f.lo v).toNat

/-- The low and high half of a 64-bit number. -/
def lo32 (v : Nat) : Nat := v % 2 ^ 32
def hi32 (v : Nat) : Nat := v / 2 ^ 32 % 2 ^ 32

/-- One word of SO 0x0020 (R116). -/
def Dev.viewPort (d : Dev) (i w : Nat) : Nat :=
  let win := if i = 1 then 4 else d.windowSize (if i = 0 then 0 else 17)
  let lim := if i = 1 then 0 else d.creditLimit (if i = 0 then 0 else 17)
  put (put w F.cmdWindow win) F.cmdCreditLimit lim

/-- Whether a session reads as open (R103, R117). -/
def Dev.sessionOpen (d : Dev) (n : Nat) : Bool := decide (n = 0) || (d.session n).isOpen

/-- The port of a session number (R117). -/
def sessionPort (n : Nat) : Nat := if n = 0 then 3 else if n < 16 then 0 else if n < 32 then 1 else 2

/-- One word of SO 0x0021 (R117): host sessions read the port's limit, open or not; a network or parent session that is not open reads 0. -/
def Dev.viewSession (d : Dev) (n : Nat) : Nat :=
  let s := d.session n
  let isOpen := d.sessionOpen n
  let limit := if isOpen || n < 16 then d.creditLimit (sessionWindow n) else 0
  let idle := if isOpen then min 65535 ((d.up - s.lastAt) / ticksSec) else 0
  limit * 2 ^ 24 + (if s.isOpen then s.auth else 0) * 2 ^ 22 + flag isOpen * 2 ^ 21
    + flag (decide (d.rd F.stgOwner = n)) * 2 ^ 20 + sessionPort n * 2 ^ 18 + idle

/-- One word of SO 0x0022 (R117). -/
def Dev.viewBound (d : Dev) (w : Nat) : Nat :=
  let s := d.session (16 + w / 2)
  if !s.isOpen then 0 else if w % 2 = 0 then s.ip else s.udp

/-- Word w of the CHECK report (R126). -/
def Dev.viewReport (d : Dev) (w : Nat) : Nat :=
  match d.basket.report[w / 2]? with
  | some (so, word, bit, rule) => if w % 2 = 0 then so * 65536 + word else bit * 256 + rule
  | none => 0

/-- Word w of the commit log (R139). -/
def Dev.viewLog (d : Dev) (w : Nat) : Nat :=
  match d.basket.log[w / 4]? with
  | some e => (e.getD (w % 4) 0).toNat
  | none => 0

/-- A time-pulse output and a capture input. -/
def Dev.tpo (d : Dev) (n : Nat) : Tpo := tget (fun _ => {}) d.tpos n
def Dev.tci (d : Dev) (n : Nat) : List Nat := tget (fun _ => []) d.tcis n

/-- Word w of SO 0x0308 (R224): the next firing, then the period. -/
def Dev.viewTpo (d : Dev) (w : Nat) : Nat :=
  let x := d.tpo (w / 4)
  match w % 4 with
  | 0 => lo32 x.next | 1 => hi32 x.next | 2 => lo32 x.period | _ => hi32 x.period

/-- Word w of SO 0x0309 (R225): the FIFO oldest first. -/
def Dev.viewTci (d : Dev) (w : Nat) : Nat :=
  let e := (d.tci (w / 32)).getD (w % 32 / 2) 0
  if w % 2 = 0 then lo32 e else hi32 e

/-- The counter of a leg (R316). -/
def Dev.legCount (d : Dev) (n : Nat) : Nat :=
  let l := d.leg n
  if l.counting && l.periods != 0 then min 65535 (d.ctrlSince l.zeroAt) else 0

/-- The word of a chunk in SO 0x0908 (R297). -/
def Dev.viewChunk (d : Dev) (c : Nat) : Nat :=
  match d.queues.find? fun e => e.2.chunks.contains c with
  | some e => 2 ^ 31 + e.1 * 2 ^ 16 + min 65535 (e.2.chunks.idxOf c)
  | none => 0

/-- Word w of the history (R413, R424). -/
def Dev.viewHistory (d : Dev) (w : Nat) : Nat :=
  match d.coll.history[w / 10]? with
  | some e => leAt e.bytes (4 * (w % 10)) 4
  | none => 0

/-- Word w of the poison list (R474). -/
def Dev.viewPoison (d : Dev) (w : Nat) : Nat :=
  match d.mem.poison[w / 3]? with
  | some p =>
    (match w % 3 with
     | 0 => 2 ^ 31 + flag p.cleared * 2 ^ 30 + p.tag * 2 ^ 23 + p.page
     | 1 => lo32 p.at_
     | _ => hi32 p.at_)
  | none => 0

/-- MEM.DSCRUB_LAG (R461): the written pages by which the DRAM scrubber trails an even spread of its pass. -/
def Dev.scrubLag (d : Dev) : Nat :=
  let pass := d.rd F.memDscrubMin * 60 * ticksSec
  min 65535 (d.mem.pages.length * (d.up - d.mem.passFrom) / pass - d.mem.passDone)

/-- Word w of SO 0x1201 (R476): fill and packets, then the credit a queue has granted (R465). -/
def Dev.viewQueue (d : Dev) (w : Nat) : Nat :=
  let q := d.queue (w / 2)
  if w % 2 = 0 then min (2 ^ 24 - 1) q.fill * 256 + min 255 (packetCount q.entries)
  else if d.boot.stage = .light then min (2 ^ 24 - 1) (d.queueCapacity (w / 2) - q.fill) * 256 else 0

/-- The class word of a class (R420). -/
def Dev.viewClass (d : Dev) (c w : Nat) : Nat :=
  put (put w F.fltCause (flag (d.activeMask c != 0))) F.fltAtCeil
    (flag (d.on F.fltSet c && d.rd F.fltLevel c == d.rd F.fltCeil c))

/-- The words the block forms when they are read, given the register word. -/
def Dev.viewWord (d : Dev) (so word w : Nat) : Nat :=
  match so with
  | 0x0020 => d.viewPort word w
  | 0x0021 => d.viewSession word
  | 0x0022 => d.viewBound word
  | 0x0084 => put w F.clkGated (flag (d.outputGated word))
  | 0x0100 => if word = 1 then put w F.stgCount d.stagedCount else w
  | 0x0103 => d.viewReport word
  | 0x0104 => d.viewLog word
  | 0x0301 => if word = 0 then lo32 d.now else if word = 1 then hi32 d.now else w
  | 0x0308 => d.viewTpo word
  | 0x0309 => d.viewTci word
  | 0x0802 => put w F.legPump (flag ((d.leg word).pumping d.now))
  | 0x0803 => if word % 3 = 2 then put w F.legCount (d.legCount (word / 3)) else w
  | 0x0903 => if word = 4 then put w F.hmpCkptAge (min 65535 ((d.now - d.ledger.doneAt) / (60 * ticksSec))) else w
  | 0x0907 => put w F.hmpQChunks (d.queue word).chunks.length
  | 0x0908 => d.viewChunk word
  | 0x0F00 => d.viewClass word w
  | 0x0F02 => d.activeMask (word / 4) / 2 ^ (32 * (word % 4)) % 2 ^ 32
  | 0x0F08 => d.viewHistory word
  | 0x1001 => if word = 0 then put w F.safeEdgeValid (flag d.edgeValid) else w
  | 0x1102 => if word = 2 then put w F.memDscrubLag (if d.hasDram then d.scrubLag else 0) else w
  | 0x1104 => d.viewPoison word
  | 0x1201 => d.viewQueue word
  | _ => w

/-- What a word reads as (R2): a word of an absent unit in an object that is present reads 0. -/
def Dev.readWord (d : Dev) (so word : Nat) : Nat :=
  if d.wordPresent so word then d.viewWord so word (d.word so word) else 0

/-- A range of words as read. -/
def Dev.readRange (d : Dev) (so first count : Nat) : List Nat := (List.range count).map fun i => d.readWord so (first + i)

/-- Words as bytes. -/
def natsBytes (ws : List Nat) : Bytes := ws.flatMap fun w => le 4 w

/-- Whether every word of a range belongs to an absent unit (R2). -/
def Dev.rangeAbsent (d : Dev) (so first count : Nat) : Bool :=
  (List.range count).all fun i => !d.wordPresent so (first + i)

/-- Existence of an object and of a range of its words (R518): the refusal, or none. -/
def rangeExists (so first count : Nat) (d : Dev) : Option HRes :=
  match soFind so with
  | none => some (refuseAt stBadParam so 0 0xFF 0x91 d)
  | some s => if s.words < first + count then some (refuseAt stBadParam so s.words 0xFF 0x90 d) else none

end Sys2Proof.Machine
end

