-- ==== Sys2Proof/Machine/Check.lean ====
section
/-!
DEFINITION. Machine/Check.lean: the rules of CHECK (R125) over the merged view (R124): every function here reads a block
whose register words are those that would stand after the commit.
-/
namespace Sys2Proof.Machine

/-- A failure entry of the report (R126): state object, word, bit, rule code. -/
abbrev CkEntry := Nat × Nat × Nat × Nat

/-- An entry for instance i of a field, if the condition holds; its bit is the field's lowest (log entry 34). -/
def Fld.fails (f : Fld) (i rule : Nat) (bad : Bool) : List CkEntry :=
  if bad then [(f.soAt i, f.wordAt i, f.lo, rule)] else []

/-- An entry for a whole word, if the condition holds. -/
def wordFails (so word rule : Nat) (bad : Bool) : List CkEntry := if bad then [(so, word, 0xFF, rule)] else []

/-- Entries over the instances of a field. -/
def overAll (n : Nat) (f : Nat → List CkEntry) : List CkEntry := (List.range n).flatMap f

/-- The merged view (R124): the words as they would stand after the commit. -/
def mergedRegs (t : RegFile) (words : List (Nat × (Word × Word))) : RegFile :=
  words.foldl (fun r e => tset resetWord r e.1 ((tget resetWord r e.1 &&& ~~~ e.2.1) ||| (e.2.2 &&& e.2.1))) t

/-- The block as it would stand after the commit. -/
def Dev.merged (d : Dev) : Dev := { d with regs := mergedRegs d.regs d.basket.words }

/-- Whether a word is staged (R120). -/
def Dev.isStaged (d : Dev) (so word : Nat) : Bool := d.basket.words.any fun e => e.1 == wordKey so word

/-! ## Rule 0x02: ranges of single fields -/

/-- The fields whose owning chapter gives a range of values, with the range. -/
def fieldRanges : List (Fld × Nat × Nat) :=
  [(F.sysTWarn, 60, 120), (F.stgPrechargeMax, 1, 65535), (F.cmdNetIdle, 1, 3600), (F.cmdParentMaxAuth, 0, 2),
   (F.cmdNetMaxAuth, 0, 2), (F.frmReplayTo, 1, 64), (F.frmRetryMax, 2, 15), (F.frmReasmTo, 1, 1000)]
  ++ [(F.timeSlewLimit, 1, 1000), (F.timeSyncInt, 10, 10000), (F.timeSrc, 0, 3), (F.timePtpDomain, 0, 127),
   (F.timePtpLogAnn, 0, 3), (F.timePtpAnnTo, 2, 10), (F.timePtpProfile, 0, 1), (F.timeTpoWidth, 8, 16777215)]
  ++ [(F.modReinsertRamp, 1, 255), (F.modDabSpread, 0, 1), (F.hmpSpread, 0, 8388608), (F.hmpKStride, 1, 95),
   (F.hmpTwDt, 1, 255), (F.hmpTwHyst, 1, 255), (F.hmpTwTmw, 1, 255), (F.hmpCkptHours, 0, 168)]
  ++ [(F.grpStateInt, 1, 255), (F.grpULostAct, 0, 1), (F.grpUHold, 1, 60000), (F.grpChildTo, 2, 255),
   (F.grpReturnRamp, 1, 255)]
  ++ [(F.safeGuardFilt, 1, 255), (F.safeDiscMs, 10, 255), (F.safeGuardHold, 1, 255), (F.safeTestHours, 0, 168),
   (F.safeTripMax, 0, 60000), (F.safeTripHold, 1, 255), (F.safeCloseMs, 1, 100), (F.safeTestUs, 10, 100),
   (F.safeFbUs, 1, 100), (F.safeLvcMs, 1, 255), (F.safeAckWin, 1, 3600)]
  ++ [(F.memSscrubMs, 100, 60000), (F.memDscrubMin, 10, 10080), (F.memDscrubBatch, 64, 65535), (F.queTDest, 0, 2),
   (F.queTK, 1, 13), (F.queTPeriod, 1, 65535)]

/-- Fields outside their range, of units that are present. -/
def Dev.ckRanges (m : Dev) : List CkEntry :=
  fieldRanges.flatMap fun r => overAll r.1.n fun i =>
    r.1.fails i 2 (m.wordPresent r.1.so (r.1.wordAt i) && (decide (m.rd r.1 i < r.2.1) || decide (r.2.2 < m.rd r.1 i)))

/-! ## Selectors (R258; rules 0x01 and 0x0C) -/

/-- Whether a defined value set covers value j (R359). -/
def Dev.setCovers (m : Dev) (j : Nat) : Bool :=
  (List.range 16).any fun k => m.word 0x0B10 k != 0 && decide (m.rd F.measSetFirst k ≤ j) && decide (j ≤ m.rd F.measSetLast k)

/-- Whether a selector names a reserved class or index, or an absent or unconfigured signal (R258). -/
def Dev.selBad (m : Dev) (sel : Nat) : Bool :=
  let i := selIndex sel
  match selClass sel with
  | 0 => decide (i ≠ 0)
  | 1 => !(decide (i < m.loopSlots) && m.on F.loopEn i)
  | 2 => !(decide (i < 32) && m.on F.measEn i)
  | 3 => !(m.populated (i / 64) && decide (i % 64 < 60) && (decide (i % 64 < 6) || m.setCovers (i % 64)))
  | 4 => decide (10 < i)
  | 5 => !(decide (i / 8 < 8) && m.on F.modArmEn (i / 8) && decide (i % 8 < 6))
  | _ => true

/-- Whether a selector names a unit that is absent or a cell slot that is not populated (R3, R13). -/
def Dev.selAbsent (m : Dev) (sel : Nat) : Bool :=
  match selClass sel with
  | 1 => decide (m.loopSlots ≤ selIndex sel)
  | 3 => !m.populated (selIndex sel / 64)
  | _ => false

/-- The entries of one selector: rule 0x0C, and rule 0x01 where its word is staged and it names an absent unit. -/
def Dev.ckSel (d m : Dev) (f : Fld) (i : Nat) : List CkEntry :=
  f.fails i 12 (m.selBad (m.rd f i)) ++ f.fails i 1 (d.isStaged (f.soAt i) (f.wordAt i) && m.selAbsent (m.rd f i))

/-- A field of an arm that names a loop slot: rule 0x0C unless the slot is present and enabled, where the arm reads it (R252), and rule 0x01
where the field is staged and names an absent slot (R3). -/
def Dev.ckSlot (d m : Dev) (f : Fld) (i : Nat) (reads : Bool) : List CkEntry :=
  let slot := m.rd f i
  f.fails i 12 (reads && !(decide (slot < m.loopSlots) && m.on F.loopEn slot))
    ++ f.fails i 1 (d.isStaged (f.soAt i) (f.wordAt i) && decide (m.loopSlots ≤ slot))

/-- The selectors of a loop slot. -/
def slotSelFields : List Fld := [F.loopRSel, F.loopFSel, F.loopFfSel, F.loopTrkSel, F.loopMaxSel, F.loopMinSel]

/-- The selectors of a telemetry set above words 1 to 7. -/
def telSelFields : List Fld :=
  [F.queTSel1Hi, F.queTSel1Lo, F.queTSel2Hi, F.queTSel2Lo, F.queTSel3Hi, F.queTSel3Lo, F.queTSel4Hi, F.queTSel4Lo]
    ++ [F.queTSel5Hi, F.queTSel5Lo, F.queTSel6Hi, F.queTSel6Lo, F.queTSel7Hi, F.queTSel7Lo]

/-- Every selector (R258): of the loop slots, the ride-through envelope in use (R27), the reports, the telemetry sets and the arms. -/
def Dev.ckSelectors (d m : Dev) : List CkEntry :=
  (overAll m.loopSlots fun s => slotSelFields.flatMap fun f => d.ckSel m f s)
    ++ (if m.on F.stgRtEn then d.ckSel m F.stgRtSel 0 else [])
    ++ (overAll 6 fun i => d.ckSel m F.grpRepHi i ++ d.ckSel m F.grpRepLo i)
    ++ F.grpRepLo.fails 5 2 (selClass (m.rd F.grpRepLo 5) != 0)
    ++ (overAll 16 fun t => telSelFields.flatMap (fun f => d.ckSel m f t)
          ++ F.queTSel7Lo.fails t 2 (selClass (m.rd F.queTSel7Lo t) != 0))
    ++ (overAll 8 fun a => d.ckSlot m F.modArmRefSlot a (m.on F.modArmEn a)
          ++ d.ckSlot m F.modArmDabSlot a (m.on F.modArmEn a && m.on F.modArmDabEn a))

/-! ## Absent units (R3; rule 0x01) and entries of section 0x0D (rule 0x03) -/

/-- Staged fields that name the twin lanes or Lantern where the variant has none (R3): a pairing, a time source, event routes. -/
def Dev.absentNames (d m : Dev) : List CkEntry :=
  let names (f : Fld) (i : Nat) (bad : Bool) : List CkEntry := f.fails i 1 (bad && d.isStaged (f.soAt i) (f.wordAt i))
  names F.twinPaired 0 (m.on F.twinPaired && !m.hasTwin) ++ names F.timeSrc 0 (m.rd F.timeSrc == 2 && !m.hasTwin)
    ++ overAll 256 fun s => names F.fltRTwin s (m.on F.fltRTwin s && !m.hasTwin)
      ++ names F.fltRAcq s (m.on F.fltRAcq s && m.acqLevel == 0)

/-- Staged words of absent units whose value would not be their reset value, a ledger clear of an absent slot, and the
entries of section 0x0D that name nothing that can be staged. -/
def Dev.ckAbsent (d m : Dev) : List CkEntry :=
  (d.basket.words.flatMap fun e =>
    wordFails (e.1 / 65536) (e.1 % 65536) 1 (!m.wordPresent (e.1 / 65536) (e.1 % 65536)
      && tget resetWord m.regs e.1 != resetWord e.1))
    ++ F.hmpLedgerClrSlot.fails 0 1 (d.isStaged 0x0910 2 && m.on F.hmpLedgerClrAct && !m.populated (m.rd F.hmpLedgerClrSlot))
    ++ d.absentNames m
    ++ d.basket.badEntries.flatMap fun e => wordFails e.1 e.2.1 e.2.2 true

/-! ## Settings (rule 0x02 where the condition joins fields; rules 0x08 to 0x0B, 0x0F, 0x12) -/

/-- The ride-through envelope (R27). -/
def Dev.ckRideThrough (m : Dev) : List CkEntry :=
  if m.on F.stgRtEn then
    F.stgRtSel.fails 0 2 (selClass (m.rd F.stgRtSel) = 0)
      ++ F.stgRtLow.fails 0 2 (s32 (m.rd F.stgRtHigh) ≤ s32 (m.rd F.stgRtLow))
      ++ F.stgRtRecover.fails 0 2 (m.rd F.stgRtRecover = 0) ++ F.stgRtMax.fails 0 2 (m.rd F.stgRtMax = 0)
  else []

/-- The network port and PTP (R119, R201, R208, R221, R222). -/
def Dev.ckNetTime (m : Dev) : List CkEntry :=
  let mac := m.rd F.cmdNetMacHi * 65536 + m.rd F.cmdNetMacLo
  let inv := 2 ^ 32 - 1 - m.rd F.cmdNetMask
  let prof := m.on F.timePtpProfile && (m.on F.timePtpUdp || !m.on F.timePtpP2p)
  let logBad (n : Nat) (hi : Int) : Bool := decide (sN 4 n < -4) || decide (hi < sN 4 n)
  F.cmdNetIp.fails 0 2 (m.on F.cmdNetEn && m.rd F.cmdNetIp == 0)
    ++ F.cmdNetMacHi.fails 0 2 (m.on F.cmdNetEn && (mac == 0 || mac.testBit 40))
    ++ F.cmdNetMask.fails 0 2 (m.on F.cmdNetEn && (inv &&& (inv + 1)) != 0)
    ++ F.cmdVlanId.fails 0 2 (m.on F.cmdVlanEn && (m.rd F.cmdVlanId == 0 || m.rd F.cmdVlanId == 0xFFF))
    ++ F.timePtpEn.fails 0 2 (m.on F.timePtpEn && !m.on F.cmdNetEn) ++ F.timePtpProfile.fails 0 2 prof
    ++ F.timePtpLogSync.fails 0 2 (logBad (m.rd F.timePtpLogSync) 1)
    ++ F.timePtpLogDelay.fails 0 2 (logBad (m.rd F.timePtpLogDelay) 2)
    ++ F.timeJumpLimit.fails 0 2 (decide (m.rd F.timeJumpLimit < m.rd F.timeSlewLimit) || decide (100000 < m.rd F.timeJumpLimit))
    ++ F.timeSrc.fails 0 2 ((m.rd F.timeSrc == 2 && !m.on F.twinPaired) || (m.rd F.timeSrc == 3 && !m.on F.timePtpEn)
        || (m.rd F.timeSrc == 1 && !m.on F.laneEn laneU))
    ++ F.clkRefSrc.fails 0 2 (m.on F.clkRefSrc && !m.on F.laneEn laneU)

/-- The outputs of the clock tree that CLK.EN may stop (R78, R80). -/
def mayStop (output : Nat) : Bool := [0, 2, 4, 9].contains output

/-- The ramp profile (R75, R86), the clock delays (R78, R79), and a CLK.EN that stops an output that R78 marks refused (R80; log
entry 161). -/
def Dev.ckClocks (m : Dev) : List CkEntry :=
  let last := (List.range 16).find? fun i => m.on F.clkRpLast i
  let n := (last.map (· + 1)).getD 16
  let falls := (List.range (n - 1)).any fun i => decide (m.rd F.clkRpK (i + 1) < m.rd F.clkRpK i)
  let total := ((List.range n).map fun i => m.rd F.clkRpLen i).sum
  let top : Nat → Nat := fun i =>
    match i with | 11 => 3 | 10 => 7 | 9 => 7 | 8 => 15 | 7 => 15 | 6 => 19 | 5 => 31 | 4 => 39 | 3 => 49 | _ => 63
  wordFails 0x0083 0 15 (last.isNone || falls || decide (100000 < total))
    ++ (if last.isSome then overAll n fun i => F.clkRpLen.fails i 2 (m.rd F.clkRpLen i = 0) else [])
    ++ overAll 12 fun i => F.clkDelay.fails i 15 (top i < m.rd F.clkDelay i) ++ F.clkEn.fails i 2 (!m.on F.clkEn i && !mayStop i)

/-- Lanes and cells (R164, R308, R309; rules 0x02, 0x08, 0x09). -/
def Dev.ckCells (m : Dev) : List CkEntry :=
  let inArm (a s : Nat) : Bool := m.populated s && m.on F.hmpUInarm s && m.rd F.hmpUArm s == a
  (overAll 55 fun l => F.laneRateEn.fails l 2 (m.lanePresent l && m.on F.laneEn l && m.rd F.laneRateEn l % 2 == 0))
    ++ (m.populatedSlots.flatMap fun s => F.hmpUPop.fails s 8 (!m.on F.laneEn (s / 2) || m.rd F.laneRateEn (s / 2) == 0))
    ++ (overAll 8 fun a => F.hmpRedund.fails a 9 (decide (((List.range 96).filter (inArm a)).length < m.rd F.hmpRedund a))
          ++ F.hmpMinCells.fails a 9 (m.rd F.hmpRedund a < m.rd F.hmpMinCells a))
    ++ (overAll 96 fun s => F.hmpUArm.fails s 2 (decide (s < m.cellSlots) && m.on F.hmpUInarm s && !m.on F.modArmEn (m.rd F.hmpUArm s)))
    ++ F.hmpDtrimMax.fails 0 2 (m.rd F.modDMax < m.rd F.hmpDtrimMax)

/-- The ranges of the enabled down ports, by their lowest address: each must begin where the one before ends, the first
after the node's own address (R16, rule 0x0A). -/
def rangeChain (m : Dev) : Nat → List (Nat × Nat) → List CkEntry
  | _, [] => []
  | next, (n, lo) :: t =>
    F.grpDLo.fails n 10 (decide (lo ≠ next) || decide (m.rd F.grpDHi n < lo)) ++ rangeChain m (m.rd F.grpDHi n + 1) t

/-- The hierarchy and the twin (R16, R373, R374, R377; rules 0x02, 0x0A, 0x0B, 0x12). -/
def Dev.ckTree (m : Dev) : List CkEntry :=
  let ports := (List.range 4).filter fun n => m.lanePresent (laneD n) && m.on F.laneEn (laneD n)
  let sorted := sortBy (fun x : Nat × Nat => (x.2 : Int)) (ports.map fun n => (n, m.rd F.grpDLo n))
  rangeChain m (m.nodeAddr + 1) sorted
    ++ F.grpBase.fails 0 2 (!ports.isEmpty && m.rd F.grpBase == 0)
    ++ (ports.flatMap fun n => F.grpDBase.fails n 2 (m.rd F.grpDBase n = 0))
    ++ F.twinPaired.fails 0 11 (m.on F.twinPaired && !m.hasTwin)
    ++ F.twinLease.fails 0 18 (m.rd F.twinLease = 0 || decide (64 < m.rd F.twinLease))

/-! ## The step table (R28) -/

/-- Whether a level is one of a target of R237. -/
def levelValid (target level : Nat) : Bool :=
  level == 0xFF || (if target ≤ 1 then decide (level ≤ 2) else decide (level ≤ 4))

/-- One step of the table. -/
def Dev.ckStep (d m : Dev) (i : Nat) : List CkEntry :=
  let a := m.rd F.stgStA i
  let b := m.rd F.stgStB i
  let c := m.rd F.stgStC i
  match m.rd F.stgStKind i with
  | 0 => []
  | 1 => F.stgStA.fails i 2 (a = 0)
  | 2 => []
  | 3 => F.stgStA.fails i 1 (m.loopSlots ≤ a / 256) ++ F.stgStA.fails i 2 (decide (a % 64 < 5) || decide (39 < a % 64))
  | 4 => F.stgStA.fails i 2 (1 < a)
  | 5 => F.stgStA.fails i 1 (!m.populated (a % 128)) ++ F.stgStB.fails i 2 (!([0, 1, 0x40, 0x41, 0x42].contains (b % 256)))
      ++ F.stgStC.fails i 2 (!levelValid (b % 256) (c % 256))
  | 6 => F.stgStA.fails i 2 (11 < a % 16)
  | 7 => d.ckSel m F.stgStA i
  | _ => F.stgStKind.fails i 2 true

/-! ## Loop slots (chapter 10) -/

/-- Whether a fast-path slot has a trigger and a structure of R270. -/
def Dev.fastOk (m : Dev) (s : Nat) : Bool :=
  let sel := m.rd F.loopFSel s
  let cls := selClass sel
  (cls == 2 || cls == 3 || (cls == 5 && selIndex sel % 8 == 4)) && !m.on F.loopDEn s && !m.on F.loopGroupEn s
    && decide (m.rd F.loopBqCount s ≤ if m.on F.loopLegEn s then 1 else 2)
    && m.rd F.loopDiv s == 0 && m.rd F.loopPhase s == 0

/-- Whether another enabled slot or an enabled arm reads the output of a slot (R379). -/
def Dev.readBySomething (m : Dev) (s : Nat) : Bool :=
  (m.enabledSlots.any fun p => decide (p ≠ s) && (m.slotSels p).contains (8192 + s))
    || m.enabledArms.any fun a => m.rd F.modArmRefSlot a == s || (m.on F.modArmDabEn a && m.rd F.modArmDabSlot a == s)

/-- The conditions of one enabled slot by itself (R270, R283, R379). -/
def Dev.ckLoopSlot (m : Dev) (s : Nat) : List CkEntry :=
  let fast := m.on F.loopFast s
  let fed2 := fast && selClass (m.rd F.loopFSel s) == 2
  F.loopFast.fails s 2 (fast && !m.fastOk s)
    ++ F.loopLeg.fails s 2 (m.on F.loopLegEn s
        && m.enabledSlots.any fun p => decide (p ≠ s) && m.on F.loopLegEn p && m.rd F.loopLeg p == m.rd F.loopLeg s)
    ++ F.loopLegEn.fails s 2 (m.on F.twinPaired && fed2 && (!m.on F.loopLegEn s || m.readBySomething s))

/-- The conditions of every present slot, enabled or not (R263, R264, R278, R283). -/
def Dev.ckLoopWords (m : Dev) (s : Nat) : List CkEntry :=
  F.loopIAction.fails s 2 (m.rd F.loopIAction s = 3)
    ++ F.loopBqCount.fails s 2 (4 < m.rd F.loopBqCount s) ++ F.loopPhase.fails s 2 (m.rd F.loopDiv s < m.rd F.loopPhase s)
    ++ F.loopLeg.fails s 2 (11 < m.rd F.loopLeg s)
    ++ F.loopIMin.fails s 2 (decide (s32 (m.rd F.loopIMax s) < s32 (m.rd F.loopIMin s)))
    ++ F.loopOutMin.fails s 2 (decide (s32 (m.rd F.loopOutMax s) < s32 (m.rd F.loopOutMin s)))

/-- The conditions of a min-select group (R269; rules 0x02 and 0x0D). -/
def Dev.ckGroup (m : Dev) (g : Nat) : List CkEntry :=
  let ms := m.enabledSlots.filter fun s => m.groupOf s == some g
  match ms with
  | [] => []
  | s0 :: _ =>
    F.loopGroup.fails s0 13 (8 < ms.length)
      ++ ms.flatMap fun s => F.loopGroupEn.fails s 2 (!m.on F.loopFast s && (m.rd F.loopDiv s != m.rd F.loopDiv s0
          || m.rd F.loopPhase s != m.rd F.loopPhase s0 || m.rd F.loopModes s != m.rd F.loopModes s0))

/-- The active cells of the enabled arms, by the merged unit map. -/
def Dev.cellsInArms (m : Dev) : Nat :=
  (m.populatedSlots.filter fun s =>
    m.on F.hmpUInarm s && m.on F.modArmEn (m.rd F.hmpUArm s) && (m.cell s).stage != 2 && (m.cell s).stage != 3).length

/-- The capacity of the engines (R280; rule 0x0E): the work of an engine ends with its last slot, waits included, so that a
configuration that passes does not overrun (R268, log entry 102). -/
def Dev.ckPlacement (m : Dev) : List CkEntry :=
  let gone := m.engines.gone
  let ps := m.placement gone
  let pins := m.pins gone
  let pre := m.preSchedule ((List.range m.loopSlots).filter m.regular)
  let sched := m.rd F.loopSchedAt
  let cycle := m.rd F.modCycleLen / 2
  let occ (e : Nat) : Nat := match pins.find? fun x => x.2 == e with | some x => (m.fastCost x.1).2 | none => 0
  let work (e : Nat) (p : Placed → Bool) : Nat := ((ps.filter fun x => x.engine == e && p x).map (·.fin)).foldl max 0
  let up (a : Nat) : Nat := (a + 624) / 625
  let overload := (List.range 8).any fun e =>
    decide (sched < work e (fun x => pre.contains x.slot) + up sched * occ e)
      || decide (cycle - 64 < work e (fun _ => true) + up (cycle - 64) * occ e)
  let chain := ps.any fun x => pre.contains x.slot && decide (sched < x.pub)
  let lead := 25 * m.rd F.modLead
  let room := 625 ≤ sched && decide (32 * (sched + 16 * m.enabledArms.length + 6 * m.cellsInArms) + lead ≤ 32 * cycle)
  let fast := m.enabledSlots.filter fun s => m.on F.loopFast s
  F.loopSchedAt.fails 0 14 (overload || chain || !room)
    ++ fast.flatMap fun s => F.loopPin.fails s 14 (fast.any fun p => decide (p < s) && m.rd F.loopPin p == m.rd F.loopPin s)

/-! ## The modulator (R250; rules 0x07 and 0x13) -/

/-- Entries a cell lane carries in an epoch (R250). -/
def Dev.laneEntryCount (m : Dev) (l c tc td : Nat) : Nat :=
  let slots := [2 * l, 2 * l + 1].filter fun s => m.populated s && m.on F.hmpUInarm s && m.on F.modArmEn (m.rd F.hmpUArm s)
  (slots.map fun s =>
    let hb := 2 * ((c + tc - 1) / tc) + 1
    let b := if m.on F.modArmDabEn (m.rd F.hmpUArm s) && td != 0 then 8 * c / td else 0
    2 + 4 * hb + b).sum

/-- The rules of R250. -/
def Dev.ckModulator (m : Dev) : List CkEntry :=
  let c := m.cycle
  let tc := m.rd F.modCarrierPeriod
  let td := m.rd F.modDabPeriod
  let n := m.rd F.modCycleLen
  let dabArms := m.enabledArms.filter fun a => m.on F.modArmDabEn a
  let tcBad := if tc = 0 then !m.enabledArms.isEmpty
    else c == 0 || tc % c != 0 || decide (256 < tc / c) || tc % 4 != 0
  let tdBad := if td = 0 then !dabArms.isEmpty else td % 2 != 0 || c % td != 0 || decide (16 < c / td) || c / td == 0
  F.modCarrierPeriod.fails 0 19 tcBad ++ F.modDabPeriod.fails 0 19 tdBad
    ++ F.modDead.fails 0 19 (m.rd F.modDead < 100) ++ F.modDabDead.fails 0 19 (m.rd F.modDabDead < 100)
    ++ F.modMinPulse.fails 0 19 (m.rd F.modMinPulse < 2 * m.rd F.modDead)
    ++ F.modLead.fails 0 19 (decide (m.rd F.modLead < 400) || decide (10000 < m.rd F.modLead) || decide (c < 40 * m.rd F.modLead))
    ++ F.modMMax.fails 0 19 (0x01000000 < m.rd F.modMMax) ++ F.modDMax.fails 0 19 (0x00800000 < m.rd F.modDMax)
    ++ F.modSmp0Ofs.fails 0 19 (m.on F.modSmp0En && decide (c ≤ m.rd F.modSmp0Ofs))
    ++ F.modSmp1Ofs.fails 0 19 (m.on F.modSmp1En && decide (c ≤ m.rd F.modSmp1Ofs))
    ++ (overAll 8 fun a => F.modArmOfs.fails a 19 ((tc != 0 || m.on F.modArmEn a) && decide (tc ≤ m.rd F.modArmOfs a)))
    ++ (if tc = 0 then [] else overAll 48 fun l => wordFails 0x0201 l 19 (60 < m.laneEntryCount l c tc td))
    ++ wordFails 0x0400 11 7 (n % 2 == 1 || decide (n < 2500) || decide (1250000 < n))

/-! ## The local stage and measurement (R338, R346, R351, R359; rules 0x02 and 0x14) -/

/-- One enabled leg (R338). -/
def Dev.ckLeg (m : Dev) (n : Nat) : List CkEntry :=
  let prd := m.rd F.legPrd n
  let on := m.rd F.legMinOn n
  if !m.on F.legEn n then []
  else
    F.legPrd.fails n 2 (prd < 624) ++ F.legPhase.fails n 2 (prd < m.rd F.legPhase n)
      ++ F.legDtRise.fails n 2 (m.rd F.legDtRise n < 8) ++ F.legDtFall.fails n 2 (m.rd F.legDtFall n < 8)
      ++ F.legMinOn.fails n 2 (decide (on < m.rd F.legDtRise n) || decide (on < m.rd F.legDtFall n) || decide (prd + 1 < 2 * on))
      ++ F.legCsLim.fails n 2 (m.rd F.legCsLim n = 0) ++ F.legCsSc.fails n 2 (m.rd F.legCsSc n = 0)
      ++ F.legSrc.fails n 2 (m.on F.legSrc n && m.enabledSlots.any fun s => m.on F.loopLegEn s && m.rd F.loopLeg s == n)

/-- One over-voltage input (R338). -/
def Dev.ckInput (m : Dev) (en on off trip : Fld) : List CkEntry :=
  if m.on en then
    on.fails 0 2 (m.rd on = 0 || decide (m.rd on ≤ m.rd off)) ++ off.fails 0 2 (m.rd off = 0)
      ++ trip.fails 0 2 (m.rd trip = 0 || decide (m.rd trip ≤ m.rd on))
  else []

/-- The brake and the over-voltage inputs (R338). -/
def Dev.ckBrake (m : Dev) : List CkEntry :=
  m.ckInput F.legOv0En F.legOv0On F.legOv0Off F.legOv0Trip ++ m.ckInput F.legOv1En F.legOv1On F.legOv1Off F.legOv1Trip
    ++ F.legBrkTau.fails 0 2 (20 < m.rd F.legBrkTau)
    ++ F.legBrkHres.fails 0 2 (m.on F.legBrkEn && decide (m.rd F.legBrkHmax ≤ m.rd F.legBrkHres))

/-- One measurement channel (R346, R350, R351). -/
def Dev.ckChannel (m : Dev) (n : Nat) : List CkEntry :=
  let osr := m.rd F.measOsr n
  let fp := m.rd F.measFpOsr n
  let top := if m.on F.measOrder n then 128 else 256
  F.measOsr.fails n 20 (m.on F.measEn n && (decide (osr < 8) || decide (top < osr)))
    ++ F.measOcLo.fails n 2 (s32 (m.rd F.measOcHi n) ≤ s32 (m.rd F.measOcLo n))
    ++ F.measFpOsr.fails n 2 (decide (fp < 4) || decide (16 < fp))
    ++ F.measFpOsr.fails n 20 (m.on F.measFpEn n && decide (19 < fp * (m.rd F.measOcCnt n + 2)))

/-- One marker value set (R359). -/
def Dev.ckSet (m : Dev) (k : Nat) : List CkEntry :=
  let a := m.rd F.measSetFirst k
  let b := m.rd F.measSetLast k
  F.measSetFirst.fails k 2 (m.word 0x0B10 k != 0 && (decide (a < 6) || decide (59 < a) || decide (b < a) || decide (59 < b)))

/-! ## Fault classes and event routes (R404, R415, R419; rules 0x02 and 0x11) -/

/-- The classes whose levels are fixed (R403). -/
def fixedClass (c : Nat) : Bool := [3, 24, 25, 28, 31].contains c

/-- One class. -/
def Dev.ckClass (m : Dev) (c : Nat) : List CkEntry :=
  let b := m.rd F.fltBase c
  let t := m.rd F.fltCeil c
  let out (x : Nat) : Bool := decide (x < (classAllowed c).1) || decide ((classAllowed c).2 < x)
  if fixedClass c then
    F.fltBase.fails c 2 (b ≠ (classDefault c).1) ++ F.fltCeil.fails c 2 (t ≠ (classDefault c).2)
  else F.fltBase.fails c 2 (out b) ++ F.fltCeil.fails c 2 (out t || decide (t < b))

/-- The event sources that no chapter allocates (R415, R445, R477, R498). -/
def sourceReserved (s : Nat) : Bool :=
  (decide (0x7C ≤ s) && decide (s ≤ 0x7F)) || (decide (0xA5 ≤ s) && decide (s ≤ 0xA7)) || s == 0xB3
    || (decide (0xB5 ≤ s) && decide (s ≤ 0xBF)) || decide (0xC9 ≤ s)

/-- One event route. -/
def Dev.ckRoute (m : Dev) (s : Nat) : List CkEntry :=
  wordFails 0x0F10 s 2 (sourceReserved s && m.word 0x0F10 s != 0)
    ++ F.fltRAcq.fails s 17 (m.on F.fltRAcq s && m.acqLevel == 0)

/-! ## Memory, queues and Lantern (R453, R455, R476, R478 to R496; rules 0x02, 0x0C, 0x10, 0x11) -/

/-- The strength regions (R455, R471). -/
def Dev.ckRegions (m : Dev) : List CkEntry :=
  let b (r : Nat) : Nat := m.rd F.memRBase r
  let e (r : Nat) : Nat := b r + m.rd F.memRSize r
  overAll 8 fun r =>
    if m.on F.memREn r then
      F.memRSize.fails r 2 (m.rd F.memRSize r = 0 || decide (8192 < m.rd F.memRSize r))
        ++ F.memRBase.fails r 2 (decide (m.rd F.memDramMib < e r) || (List.range 8).any fun q =>
            decide (q ≠ r) && m.on F.memREn q && decide (b r < e q) && decide (b q < e r))
    else []

/-- Cooler sizes (R297, R476). -/
def Dev.ckCooler (m : Dev) : List CkEntry :=
  (overAll 64 fun q => F.queCoolerMax.fails q 16 (256 < m.rd F.queCoolerMax q))
    ++ wordFails 0x1200 0 16 (m.chunkCount < m.poolSize)

/-- The enabled channels of Lantern. -/
def Dev.acqChannels (m : Dev) : List Nat := (List.range 16).filter fun c => m.on F.acqCEn c

/-- The samples of a segment (R493: 0 means 1,048,576). -/
def Dev.acqLen (m : Dev) : Nat := if m.rd F.acqLen = 0 then 1048576 else m.rd F.acqLen

/-- The pages of a segment (R486). -/
def Dev.acqPages (m : Dev) : Nat := 1 + (4 * m.acqChannels.length * m.acqLen + 1023) / 1024

/-- One channel's source (R478). -/
def Dev.ckAcqChannel (d m : Dev) (c : Nat) : List CkEntry :=
  let src := m.rd F.acqCSrc c
  let absent (b : Bool) : List CkEntry :=
    F.acqCSrc.fails c 12 b ++ F.acqCSrc.fails c 1 (b && d.isStaged 0x1301 c)
  match m.rd F.acqCKind c with
  | 0 => F.acqCSrc.fails c 12 (m.selBad (src % 65536)) ++ F.acqCSrc.fails c 1 (d.isStaged 0x1301 c && m.selAbsent (src % 65536))
  | 1 => absent (!(decide (src / 256 % 256 < m.loopSlots))) ++ F.acqCSrc.fails c 12
      ((decide (src / 256 % 256 < m.loopSlots) && !m.on F.loopEn (src / 256 % 256)) || decide (src % 32 < 2) || decide (25 < src % 32))
  | 2 => absent (!m.populated (src % 128))
  | 3 => absent (!m.populated (src % 128))
  | 4 => F.acqCSrc.fails c 12 (11 < src % 16)
  | _ => F.acqCKind.fails c 12 true

/-- One trigger stage (R480); of a staged frame stage the lane it names must be present (R3). -/
def Dev.ckAcqStage (d m : Dev) (k : Nat) : List CkEntry :=
  let kind := m.rd F.acqSKind k
  let lane := m.rd F.acqSA k / 2 ^ 25 % 64
  F.acqSKind.fails k 2 (10 ≤ kind) ++ F.acqSChan.fails k 2 (decide (kind ≤ 5) && !m.on F.acqCEn (m.rd F.acqSChan k))
    ++ F.acqSA.fails k 17 (kind == 6 && !m.on F.fltRAcq (m.rd F.acqSA k % 256))
    ++ F.acqSB.fails k 2 ((kind == 2 || kind == 3) && decide (s32 (m.rd F.acqSB k) < 0))
    ++ F.acqSA.fails k 2 (kind == 8 && decide (55 ≤ lane) && lane != 63)
    ++ F.acqSA.fails k 1 (kind == 8 && decide (lane < 55) && !m.lanePresent lane && d.isStaged 0x1302 (4 * k + 1))

/-- Lantern's settings: where the sources and storage are judged once a channel is enabled (log entry 38). -/
def Dev.ckAcq (d m : Dev) : List CkEntry :=
  let n := m.acqChannels.length
  let base := m.rd F.acqBaseMib
  let size := m.rd F.acqSizeMib
  let top := (base + size) * 1024
  if m.acqLevel = 0 then []
  else
    (m.acqChannels.flatMap fun c => d.ckAcqChannel m c)
      ++ (if n = 0 then [] else overAll (m.rd F.acqStages + 1) fun k => d.ckAcqStage m k)
      ++ F.acqLen.fails 0 2 (m.rd F.acqLen != 0 && (decide (m.rd F.acqLen < 64) || decide (1048576 < m.rd F.acqLen)))
      ++ F.acqPre.fails 0 2 (decide (m.acqLen ≤ m.rd F.acqPre) || decide (1048576 < 4 * n * m.rd F.acqPre))
      ++ (if m.on F.acqStore && n != 0 then
            F.acqSegs.fails 0 2 (decide (size * 1024 < (m.rd F.acqSegs + 1) * m.acqPages))
              ++ F.acqBaseMib.fails 0 16 (decide (m.rd F.memDataPages < top)
                  || decide ((m.chunkCount - m.poolSize) * 1024 < top && 0 < m.poolSize))
          else [])
      ++ (overAll 4 fun u => F.acqHChan.fails u 2 (m.on F.acqHEn u && !m.on F.acqCEn (m.rd F.acqHChan u)))
      ++ (if m.acqLevel < 2 then []
          else overAll 2 fun u => F.acqAChan.fails u 2 (m.on F.acqAEn u && !m.on F.acqCEn (m.rd F.acqAChan u)))

/-! ## Mode-bound content (R131; rule 0x04), authority (rule 0x05) and the mode request (rule 0x06) -/

/-- The modes in which a field that names mode-bound content may change: none where the content is free. CLK.EN changes only in SERVICE,
through the Basket as live (R80; log entry 161). -/
def Dev.boundModes (d m : Dev) (so word : Nat) (f : Fld) : Option (Mode → Bool) :=
  let held (x : Mode) : Bool := x == .held
  let bench (x : Mode) : Bool := x == .held || x == .service || x == .calibrate
  let idle (x : Mode) : Bool := !x.switching
  if so = 0x1000 then (if f.acc = .rs then some held else none)
  else if [F.grpNodeAddr, F.twinPaired, F.twinIndex, F.grpDLo, F.grpDHi].contains f then some held
  else if [F.modCycleLen, F.timeCycleOriginLo, F.timeCycleOriginHi, F.clkDelay].contains f then some bench
  else if f = F.clkEn then some fun x => x == .service
  else if [F.laneEn, F.laneRateEn].contains f then
    (if decide (word < 48) && [2 * word, 2 * word + 1].any (fun s => d.populated s || m.populated s) then some idle else none)
  else if f = F.hmpUPop then some idle
  else none

/-- Whether a state object holds mode-bound content (R141 bit 5). -/
def soBound (so : Nat) : Bool :=
  [0x0101, 0x1000, 0x0D00, 0x0E00, 0x0D01, 0x0400, 0x0301, 0x0084, 0x0201, 0x0900].contains so

/-- The bits of a word whose staging needs Maintain authority (R29, R141, R214, R313, R314, R446). -/
def maintainMask (so word : Nat) : Word :=
  if so = 0x0110 || so = 0x0911 || so = 0x1000 || (so = 0x0302 && word = 5) || (so = 0x0910 && word = 2) then
    accMask so word (fun a => a != .ro)
  else 0

/-- The authority a staged word needs beyond Configure. -/
def needsMaintain (e : Nat × (Word × Word)) : Bool := (e.2.1 &&& maintainMask (e.1 / 65536) (e.1 % 65536)) != 0

/-- STG.NEED_AUTH (R127): the highest authority any staged word needs, and never less than Configure. -/
def needAuth (words : List (Nat × (Word × Word))) : Nat := if words.any needsMaintain then authM else authC

/-- Rule 0x04 in a mode. -/
def Dev.ckBound (d m : Dev) (mode : Mode) : List CkEntry :=
  d.basket.words.flatMap fun e =>
    let so := e.1 / 65536
    let word := e.1 % 65536
    let diff := tget resetWord m.regs e.1 ^^^ tget resetWord d.regs e.1
    (wordFlds so word).flatMap fun f =>
      match d.boundModes m so word f with
      | some ok => if diff &&& maskBits f.hi f.lo != 0 && !ok mode then [(so, word, f.lo, 4)] else []
      | none => []

/-- Rule 0x05 against an authority. -/
def Dev.ckAuth (d : Dev) (auth : Nat) : List CkEntry :=
  if authM ≤ auth then []
  else d.basket.words.flatMap fun e => wordFails (e.1 / 65536) (e.1 % 65536) 5 (needsMaintain e)

/-- Whether every populated cell link stands at or above a voltage (R23). -/
def Dev.linksAbove (d : Dev) (v : Int) : Bool := d.populatedSlots.all fun s => decide (v ≤ (d.cell s).u)

/-- Whether every populated cell link stands below a voltage (R23). -/
def Dev.linksBelow (d : Dev) (v : Int) : Bool := d.populatedSlots.all fun s => decide ((d.cell s).u < v)

/-- Whether a row of R23 leads from a mode to a run mode by its From and To columns. -/
def rowToRun (m : Mode) (target : Nat) : Bool :=
  (target == 6 || target == 7) &&
    match m with
    | .precharge | .dark => true
    | .runForm => target == 7
    | .runFollow => target == 6
    | _ => false

/-- Whether the conditions of that row hold (R21, R23). -/
def Dev.rowConditions (d : Dev) : Bool :=
  match d.mode with
  | .precharge => d.linksAbove (s32 (d.rd F.stgPrechargeDone))
  | .dark => !d.anyAt 3 && d.linksAbove (s32 (d.rd F.stgPrechargeDone))
  | _ => true

/-- The mode a staged STG.MODE_REQ asks for; 0 is no request (R138). -/
def Dev.stagedMode (d : Dev) : Nat :=
  match d.basket.words.find? fun e => e.1 == wordKey 0x0101 0 with
  | some e => (e.2.1 &&& e.2.2 &&& 15).toNat
  | none => 0

/-- Rule 0x06 in a mode; at the boundary the conditions of the row count too. -/
def Dev.ckModeReq (d m : Dev) (boundary : Bool) : List CkEntry :=
  let r := d.stagedMode
  F.stgModeReq.fails 0 6 (r != 0 && !(rowToRun d.mode r && (!boundary || { d with regs := m.regs }.rowConditions)))

/-! ## The whole CHECK (R124 to R126) -/

/-- Every failure over the merged view, before sorting. -/
def Dev.ckAll (d m : Dev) (auth : Nat) : List CkEntry :=
  m.ckRanges ++ d.ckSelectors m ++ d.ckAbsent m ++ m.ckRideThrough ++ m.ckNetTime ++ m.ckClocks ++ m.ckCells ++ m.ckTree
    ++ (overAll 128 fun i => d.ckStep m i)
    ++ (m.enabledSlots.flatMap fun s => m.ckLoopSlot s) ++ (overAll m.loopSlots fun s => m.ckLoopWords s)
    ++ (overAll 32 fun g => m.ckGroup g) ++ m.ckPlacement ++ m.ckModulator
    ++ (overAll 12 fun n => m.ckLeg n) ++ m.ckBrake ++ (overAll 32 fun n => m.ckChannel n) ++ (overAll 16 fun k => m.ckSet k)
    ++ (overAll 32 fun c => m.ckClass c) ++ (overAll 256 fun s => m.ckRoute s) ++ m.ckRegions ++ m.ckCooler ++ d.ckAcq m
    ++ d.ckBound m d.mode ++ d.ckAuth auth ++ d.ckModeReq m false

/-- The order of the report (R126): state object, word, bit, rule. -/
def ckKey (e : CkEntry) : Int := (((e.1 * 65536 + e.2.1) * 256 + e.2.2.1) * 256 + e.2.2.2 : Nat)

/-- A list without repeats that follow each other. -/
def dedup {α : Type} [DecidableEq α] : List α → List α
  | [] => []
  | a :: t => match t with
    | [] => [a]
    | b :: _ => if a = b then dedup t else a :: dedup t

/-- The failures in the order of the report. -/
def Dev.ckReport (d : Dev) (auth : Nat) : List CkEntry := dedup (sortBy ckKey (d.ckAll d.merged auth))

/-- The fine ticks a CHECK takes: what the spec bounds and does not fix (R124, log entry 9). -/
def Dev.checkTicks (d : Dev) : Nat := min (Config.checkTime d.stagedCount) (1000000 + 120 * d.stagedCount)

/-- The CHECK runs (R124, R126): the report is kept, STG.CHECKED is set when the rules pass; nothing in force changes. DESIGN CHOICE (log
entry 162): a CHECK that fails on contents that passed before leaves STG.CHECKED set, since no rule but R123 clears it. -/
def Dev.runCheck (d : Dev) (auth : Nat) : Dev :=
  let rs := d.ckReport auth
  let time := (d.checkTicks + 9999) / 10000
  let kept := rs.take 512
  let d := { d with basket := { d.basket with report := kept } }
  let d := ((d.wr F.stgCkPass (flag rs.isEmpty)).wr F.stgCkTrunc (flag (decide (512 < rs.length)))).wr F.stgCkEntries kept.length
  let d := ((d.wr F.stgCkVersion (d.rd F.stgVersion)).wr F.stgCkTime time).wr F.stgCkWords d.stagedCount
  if rs.isEmpty then d.wr F.stgChecked 1 else d

end Sys2Proof.Machine
end

