-- ==== Sys2Proof/Machine/Basket.lean ====
section
/-!
DEFINITION. Machine/Basket.lean: staging, CHECK, arming and cancelling a commit, and reading back (chapter 5).
-/
namespace Sys2Proof.Machine

/-! ## Refusals in order (R100) -/

/-- The first refusal of a list of checks, or the answer when none fails. -/
def orRefuse (checks : List (Option HRes)) (ok : HRes) : HRes := (checks.findSome? id).getD ok

/-- A refusal on a condition. -/
def refuseIf (bad : Bool) (status reason : Nat) (d : Dev) : Option HRes := if bad then some (refuse status reason d) else none

/-- The first word of a list that a test finds, refused with a status. -/
def refuseWord (ws : List (Nat × Nat)) (bad : Nat × Nat → Bool) (status : Nat) (d : Dev) : Option HRes :=
  (ws.find? bad).map fun x => refuseAt status x.1 x.2 0xFF 0 d

/-- The first word of a list with bits that may not be written, refused with a status that names it and the lowest such bit (R98). -/
def refuseBits (ws : List (Nat × Nat × Word)) (status : Nat) (d : Dev) : Option HRes :=
  (ws.find? fun x => x.2.2 != 0).map fun x => refuseAt status x.1 x.2.1 (lowBit x.2.2) 0 d

/-- The words of a range. -/
def wordRange (so first count : Nat) : List (Nat × Nat) := (List.range count).map fun i => (so, first + i)

/-- Step 9 of R100 for writes: a word of an absent unit (R2, R3). -/
def Dev.anyAbsent (d : Dev) (ws : List (Nat × Nat)) : Option HRes :=
  refuseWord ws (fun x => wordExists x.1 x.2 && !d.wordPresent x.1 x.2) stUnitAbsent d

/-- Step 9 of R100 for reads: refused when every word of the range belongs to an absent unit (log entry 39). -/
def Dev.allAbsent (d : Dev) (so first count : Nat) : Option HRes :=
  if count != 0 && (List.range count).all (fun i => wordExists so (first + i)) && d.rangeAbsent so first count then
    some (refuseAt stUnitAbsent so first 0xFF 0 d)
  else none

/-! ## The Basket as a table (R120, R121, R123) -/

/-- The mask and value kept for a word; a mask of 0 where it is not staged. -/
def Dev.keptWord (d : Dev) (so word : Nat) : Word × Word := tget (fun _ => (0, 0)) d.basket.words (wordKey so word)

/-- The bits that staging may reach: RS, RW and WE fields (R121). -/
def stageMask (so word : Nat) : Word := accMask so word (fun a => a == .rs || a == .rw || a == .we)

/-- Merge bits into the Basket (R121): the later value of a bit stands. -/
def stageOne (t : List (Nat × (Word × Word))) (x : Nat × (Word × Word)) : List (Nat × (Word × Word)) :=
  let old : Word × Word := tget (fun _ => (0, 0)) t x.1
  tset (fun _ => (0, 0)) t x.1 (old.1 ||| x.2.1, (old.2 &&& ~~~ x.2.1) ||| (x.2.2 &&& x.2.1))

/-- The Basket after a staging write (R35, R122, R123, R419): a first write takes ownership, a change counts a version and
clears STG.CHECKED, FLT.EVC_ARM clears. -/
def Dev.rebasket (d : Dev) (session : Nat) (words : List (Nat × (Word × Word))) (bad : List (Nat × Nat × Nat)) : Dev :=
  let changed := decide (words ≠ d.basket.words) || decide (bad ≠ d.basket.badEntries)
  let d := { d with basket := { d.basket with words := words, badEntries := bad } }
  let d := if d.rd F.stgOwner = 0xFF then d.wr F.stgOwner session else d
  let d := (d.wr F.stgNeedAuth (needAuth words)).wr F.fltEvcArm 0
  if changed then (d.bumpWrap F.stgVersion).wr F.stgChecked 0 else d

/-- The authority that staging some bits needs (R114, R122). -/
def stageNeed (bits : List (Nat × (Word × Word))) : OpNeed := { auth := needAuth bits }

/-- The refusals that every staging write shares (R122): ownership, and an armed commit, which names the first word written. -/
def Dev.stageRefusals (d : Dev) (c : Ctx) (ws : List (Nat × Nat)) : List (Option HRes) :=
  let first := ws.head?.getD (0xFFFF, 0)
  [refuseIf (d.rd F.stgOwner != 0xFF && d.rd F.stgOwner != c.ticket.session) stBasketOwned 0 d,
   if d.on F.stgArmed then some (refuseAt stCommitArmed first.1 first.2 0xFF 0x34 d) else none]

/-- Stage bits, unless R122 refuses them: ownership, the armed commit, a full Basket. -/
def Dev.stageBits (d : Dev) (c : Ctx) (bits : List (Nat × (Word × Word))) : HRes :=
  let words := bits.foldl stageOne d.basket.words
  orRefuse (d.stageRefusals c (bits.map fun x => (x.1 / 65536, x.1 % 65536))
      ++ [refuseIf (131072 < words.length) stBadParam 0x30 d])
    (okEmpty (d.rebasket c.ticket.session words d.basket.badEntries))

/-! ## Staging (R121, R122) -/

/-- The bits that STAGE_WORDS stages: every bit of the words that staging may reach, with its value. -/
def stageWordsBits (so first : BitVec 16) (values : List Word) : List (Nat × (Word × Word)) :=
  values.zipIdx.map fun x => (wordKey so.toNat (first.toNat + x.2), (stageMask so.toNat (first.toNat + x.2), x.1))

/-- The reserved bits that some values set. -/
def reservedSet (es : List (Nat × Nat × Word)) : List (Nat × Nat × Word) :=
  es.map fun x => (x.1, x.2.1, x.2.2 &&& reservedMask x.1 x.2.1)

/-- The refusals of STAGE_WORDS before those that every staging write shares. -/
def Dev.stageWordsRefusals (d : Dev) (so first : BitVec 16) (values : List Word) : List (Option HRes) :=
  let n := values.length
  let ws := wordRange so.toNat first.toNat n
  [d.anyAbsent ws, rangeExists so.toNat first.toNat n d, refuseIf (n = 0) stBadParam 0x92 d,
    refuseBits (reservedSet (values.zipIdx.map fun x => (so.toNat, first.toNat + x.2, x.1))) stReservedSet d,
    refuseWord ws (fun x => stageMask x.1 x.2 == 0) stAccessRefused d]

/-- STAGE_WORDS. -/
def hStageWords (so first : BitVec 16) (values : List Word) : Handler := fun c d =>
  orRefuse (d.stageWordsRefusals so first values) (d.stageBits c (stageWordsBits so first values))

/-- The bits that STAGE_FIELDS stages: those of each mask that staging may reach. -/
def stageFieldsBits (entries : List (BitVec 16 × BitVec 16 × Word × Word)) : List (Nat × (Word × Word)) :=
  entries.map fun e => (wordKey e.1.toNat e.2.1.toNat, (e.2.2.1 &&& stageMask e.1.toNat e.2.1.toNat, e.2.2.2))

/-- The refusals of STAGE_FIELDS before those that every staging write shares. -/
def Dev.stageFieldsRefusals (d : Dev) (entries : List (BitVec 16 × BitVec 16 × Word × Word)) : List (Option HRes) :=
  let es := entries.map fun e => (e.1.toNat, e.2.1.toNat, e.2.2.1, e.2.2.2)
  let ws := es.map fun e => (e.1, e.2.1)
  let missing := (ws.find? fun x => !wordExists x.1 x.2).bind fun x => rangeExists x.1 x.2 1 d
  let barred (a : Acc) : Bool := a == .ro || a == .w1c
  [d.anyAbsent ws, missing, refuseIf es.isEmpty stBadParam 0x92 d,
    refuseBits (reservedSet (es.map fun e => (e.1, e.2.1, e.2.2.1 &&& e.2.2.2))) stReservedSet d,
    refuseBits (es.map fun e => (e.1, e.2.1, e.2.2.1 &&& accMask e.1 e.2.1 barred)) stAccessRefused d]

/-- STAGE_FIELDS. -/
def hStageFields (entries : List (BitVec 16 × BitVec 16 × Word × Word)) : Handler := fun c d =>
  orRefuse (d.stageFieldsRefusals entries) (d.stageBits c (stageFieldsBits entries))

/-- STAGE_MODE_REQ (R21, R121). -/
def hStageModeReq (mode : Byte) : Handler := fun c d =>
  orRefuse [if 15 < mode.toNat then some (refuseAt stBadParam 0x0101 0 0xFF 0x92 d) else none]
    (d.stageBits c [(wordKey 0x0101 0, (15, BitVec.ofNat 32 mode.toNat))])

/-- Whether a word stands in a range. -/
def inWordRange (so first count : BitVec 16) (s w : Nat) : Bool :=
  s == so.toNat && decide (first.toNat ≤ w) && decide (w < first.toNat + count.toNat)

/-- The staged words that UNSTAGE takes out. -/
def Dev.unstaged (d : Dev) (so first count : BitVec 16) : List (Nat × (Word × Word)) :=
  d.basket.words.filter fun e => inWordRange so first count (e.1 / 65536) (e.1 % 65536)

/-- The authority of UNSTAGE: that of the words it takes out (R122). -/
def unstageNeed (so first count : BitVec 16) : OpNeed :=
  { auth := authC, more := fun d => needAuth (d.unstaged so first count) }

/-- UNSTAGE (R121, R122). -/
def hUnstage (so first count : BitVec 16) : Handler := fun c d =>
  let words := d.basket.words.filter fun e => !inWordRange so first count (e.1 / 65536) (e.1 % 65536)
  let bad := d.basket.badEntries.filter fun e => !inWordRange so first count e.1 e.2.1
  orRefuse ([rangeExists so.toNat first.toNat count.toNat d] ++ d.stageRefusals c [(so.toNat, first.toNat)])
    (okEmpty (d.rebasket c.ticket.session words bad))

/-! ## CHECK and the commits (R124 to R134) -/

/-- The authority against which rule 0x05 judges (R125). -/
def Dev.judgeAuth (d : Dev) (session : Nat) : Nat :=
  if d.rd F.stgOwner = 0xFF then d.grant session else d.grant (d.rd F.stgOwner)

/-- The reply of CHECK (R126): SO 0x0102, then as many entries as fit. -/
def Dev.checkReply (d : Dev) (src : Src) : Bytes :=
  let entries := d.basket.report.take ((replyLimit src - 16) / 8)
  natsBytes (d.readRange 0x0102 0 4)
    ++ entries.flatMap fun e => le 2 e.2.1 ++ le 2 e.1 ++ le 1 e.2.2.2 ++ le 1 e.2.2.1 ++ zeros 2

/-- CHECK. -/
def hCheck : Handler := fun c d =>
  let d := d.runCheck (d.judgeAuth c.ticket.session)
  .reply stOk (d.checkReply c.ticket.src) d

/-- The cases tested before CHECK (R127). DESIGN CHOICE (log entry 164): a Basket that holds only entries of image section 0x0D that
CHECK fails is not empty, and CHECK runs. -/
def Dev.commitRefusals (d : Dev) (c : Ctx) : List (Option HRes) :=
  [refuseIf (d.rd F.stgOwner != c.ticket.session) stBasketOwned 0 d,
   refuseIf (decide (c.auth < d.rd F.stgNeedAuth)) stAuthority 0 d,
   refuseIf (d.basket.words.isEmpty && d.basket.badEntries.isEmpty) stBadParam 0x31 d,
   refuseIf (d.on F.stgArmed) stCommitArmed 0 d]

/-- The refusal of a commit whose CHECK fails (R127): the first failure entry. -/
def Dev.checkFailed_ (d : Dev) : HRes :=
  match d.basket.report with
  | [] => refuse stCheckFailed 0 d
  | e :: _ => refuseAt stCheckFailed e.1 e.2.1 e.2.2.1 e.2.2.2 d

/-- The end of preload for a commit taken now (R124, R128): after its CHECK. -/
def Dev.preloadEnd (d : Dev) : Nat := d.now + d.checkTicks + d.preloadTicks

/-- COMMIT_NOW (R127, R129). -/
def hCommitNow : Handler := fun c d =>
  let k := d.runCheck (d.judgeAuth c.ticket.session)
  orRefuse (d.commitRefusals c)
    (if k.rd F.stgCkPass = 0 then k.checkFailed_
     else .park .commit (k.arm (k.boundaryCeil (k.preloadEnd + 1)) .now c.ticket.session))

/-- The instant a COMMIT_AT names, in fabric time (R130). -/
def Dev.commitInstant (d : Dev) (kind : Nat) (instant : BitVec 80) : Nat :=
  let v := instant.toNat
  match kind with
  | 0 => d.origin + v % 2 ^ 64 * d.cycle
  | 1 => v % 2 ^ 64
  | _ => d.toFabric (v % 2 ^ 48 * 1000000000 + v / 2 ^ 48)

/-- COMMIT_AT (R127, R130). DESIGN CHOICE (log entry 163): an instant of kind 2 whose nanoseconds are 1,000,000,000 or more, which no rule
speaks of, is refused as a parameter out of range. -/
def hCommitAt (kind : Byte) (instant : BitVec 80) : Handler := fun c d =>
  let kd := kind.toNat
  let k := d.runCheck (d.judgeAuth c.ticket.session)
  let x := k.commitInstant kd instant
  let r := k.boundaryCeil x
  orRefuse ([refuseIf (decide (2 < kd)) stBadParam 0x92 d,
      refuseIf (decide (kd < 2) && decide (2 ^ 64 ≤ instant.toNat)) stReservedSet 0 d,
      refuseIf (kd == 2 && decide (1000000000 ≤ instant.toNat / 2 ^ 48)) stBadParam 0x92 d] ++ d.commitRefusals c)
    (if k.rd F.stgCkPass = 0 then k.checkFailed_
     else if kd = 2 && !k.on F.timeNetValid then refuse stBadParam 0x36 k
     else if x < k.now then refuse stExpired 0x32 k
     else if k.now + 36000000000000 < r then refuse stBadParam 0x35 k
     else if r ≤ k.preloadEnd then refuse stExpired 0x37 k
     else .reply stAccepted (le 8 r) (k.arm r .at c.ticket.session))

/-- Cancel an armed commit; a parked COMMIT_NOW is answered with CANCELLED and a reason (R129). -/
def Dev.cancelCommit (d : Dev) (reason : Nat) : Dev :=
  let waits := d.parked.filter fun x => decide (x.why = .commit)
  waits.foldl (fun d x => d.answerParked x stCancelled (refusalData 0xFFFF 0 0xFF reason)) d.unarm

/-- DISARM (R133). -/
def hDisarm : Handler := fun c d =>
  orRefuse [refuseIf (d.rd F.stgOwner != c.ticket.session) stBasketOwned 0 d,
      refuseIf (!d.on F.stgArmed) stBadParam 0x33 d]
    (okEmpty (d.cancelCommit 0x3B))

/-- The Basket emptied and left without an owner (R134, R135). -/
def Dev.emptyBasket (d : Dev) : Dev :=
  let d := { d with basket := { d.basket with words := [], badEntries := [] } }
  (d.wr F.stgOwner 0xFF).wr F.stgNeedAuth authC

/-- DISCARD (R106, R123, R134, R419). DESIGN CHOICE (log entry 165): DISCARD of a Basket that is owned and empty changes the Basket, since it
loses its owner, and counts in STG.VERSION. -/
def hDiscard : Handler := fun c d =>
  let changed := !d.basket.words.isEmpty || !d.basket.badEntries.isEmpty || d.rd F.stgOwner != 0xFF
  let e := (d.cancelCommit 0x3C).emptyBasket.wr F.fltEvcArm 0
  orRefuse [refuseIf (d.rd F.stgOwner != 0xFF && d.rd F.stgOwner != c.ticket.session) stBasketOwned 0 d]
    (okEmpty (if changed then (e.bumpWrap F.stgVersion).wr F.stgChecked 0 else e))

/-! ## Reading back (R140, R141) -/

/-- The length of the reply that a range of words asks for, at so many bytes a word (R94): a count outside R114's range asks for
none. -/
def rangeReply (count : BitVec 16) (bytes : Nat) : Nat := if count.toNat ≤ 1020 then bytes * count.toNat else 0

/-- What READ_WORDS needs: the words of R64 are served from Kindle on. -/
def readNeed (so count : BitVec 16) : OpNeed :=
  { kindle := [0x0010, 0x0011, 0x0012].contains so.toNat, reply := rangeReply count 4 }

/-- The instant by which the evaluation of a slot that is under way has ended and published, at most 34 CTRL cycles ahead (R284). -/
def Dev.slotSettles (d : Dev) (s : Nat) : Nat :=
  let g := d.engines
  let jobs := (g.jobs.filter fun j => j.slot == s && j.isOpen && j.startAt.isSome).map fun j =>
    (j.group.bind fun grp => g.resolveAt j.cycle grp).getD j.endAt
  let fast := (g.fast.filter fun f => f.slot == s && f.latched).map (·.doneAt)
  min ((jobs ++ fast).foldl max d.now) (d.now + 16 * 34)

/-- A read of words is served when the state words of a loop slot stand between two of its evaluations (R284). -/
def Dev.readable (d : Dev) (so : Nat) : Dev :=
  if 0x0700 ≤ so ∧ so < 0x0800 then d.advance (d.slotSettles (so - 0x0700)) else d

/-- READ_WORDS. -/
def hReadWords (so first count : BitVec 16) : Handler := fun _ d =>
  let n := count.toNat
  let e := d.readable so.toNat
  orRefuse [d.allAbsent so.toNat first.toNat n, rangeExists so.toNat first.toNat n d,
      refuseIf (n == 0 || decide (1020 < n)) stBadParam 0x92 d]
    (.reply stOk (natsBytes (e.readRange so.toNat first.toNat n)) e)

/-- What READ_STAGED needs. -/
def readStagedNeed (count : BitVec 16) : OpNeed := { reply := rangeReply count 8 }

/-- READ_STAGED: the kept mask, then the kept value. -/
def hReadStaged (so first count : BitVec 16) : Handler := fun _ d =>
  let n := count.toNat
  orRefuse [d.allAbsent so.toNat first.toNat n, rangeExists so.toNat first.toNat n d,
      refuseIf (n == 0 || decide (1020 < n)) stBadParam 0x92 d]
    (.reply stOk ((List.range n).flatMap fun i =>
      wordBytes (d.keptWord so.toNat (first.toNat + i)).1 ++ wordBytes (d.keptWord so.toNat (first.toNat + i)).2) d)

/-- READ_BASKET_INDEX: the staged words from an entry on, as many as the reply holds. -/
def hReadBasketIndex (first : BitVec 16) : Handler := fun c d =>
  let es := (d.basket.words.drop first.toNat).take (replyLimit c.ticket.src / 4)
  .reply stOk (es.flatMap fun e => le 2 (e.1 / 65536) ++ le 2 (e.1 % 65536)) d

/-- The flags of a state object in the directory (R141). -/
def Dev.soFlags (d : Dev) (s : SoDef) (so : Nat) : Nat :=
  let has (a : Acc) : Nat := flag (s.flds.any fun f => f.acc == a)
  let m := (List.range s.words).any fun w => maintainMask so w != 0
  s.block * 256 + flag m * 64 + flag (soBound so) * 32 + has .we * 16 + has .w1c * 8 + has .rw * 4 + has .rs * 2
    + flag (d.soPresent so)

/-- READ_DIRECTORY: state objects from an identifier on, in ascending order, as many as the reply holds. -/
def hReadDirectory (first : BitVec 16) : Handler := fun c d =>
  let sos := soTable.flatMap fun s => (List.range s.soN).map fun i => (s.so + i, s)
  let es := (sos.filter fun x => decide (first.toNat ≤ x.1)).take (replyLimit c.ticket.src / 8)
  .reply stOk (es.flatMap fun x => le 2 x.1 ++ le 2 x.2.words ++ le 4 (d.soFlags x.2 x.1)) d

/-! ## The rows -/

/-- A range parameter block: SO, first word, count, 0. -/
def rangeParams (so first count : BitVec 16) : Bytes := le 2 so.toNat ++ le 2 first.toNat ++ le 2 count.toNat ++ zeros 2

/-- STAGE_WORDS: at most 1,018 values fit a packet. -/
def execStageWords (t : Nat) (src : Src) (h : Hdr) (so first : BitVec 16) (values : List Word) (s : State) :
    Host.Outcome State Fault Refusal :=
  opcodeLen true 0x10 t src h (rangeParams so first (BitVec.ofNat 16 values.length) ++ wordsBytes values)
    (stageNeed (stageWordsBits so first values)) (hStageWords so first values) s

/-- STAGE_FIELDS: at most 340 entries fit a packet. -/
def execStageFields (t : Nat) (src : Src) (h : Hdr) (entries : List (BitVec 16 × BitVec 16 × Word × Word)) (s : State) :
    Host.Outcome State Fault Refusal :=
  opcodeLen true 0x11 t src h
    (entries.flatMap fun e => le 2 e.1.toNat ++ le 2 e.2.1.toNat ++ wordBytes e.2.2.1 ++ wordBytes e.2.2.2)
    (stageNeed (stageFieldsBits entries)) (hStageFields entries) s

/-- STAGE_MODE_REQ. -/
def execStageModeReq (t : Nat) (src : Src) (h : Hdr) (mode : Byte) (s : State) : Host.Outcome State Fault Refusal :=
  opcode 0x12 t src h (mode :: zeros 3) { auth := authP } (hStageModeReq mode) s

/-- UNSTAGE. -/
def execUnstage (t : Nat) (src : Src) (h : Hdr) (so first count : BitVec 16) (s : State) : Host.Outcome State Fault Refusal :=
  opcode 0x14 t src h (rangeParams so first count) (unstageNeed so first count) (hUnstage so first count) s

/-- CHECK. -/
def execCheck (t : Nat) (src : Src) (h : Hdr) (s : State) : Host.Outcome State Fault Refusal :=
  opcode 0x20 t src h [] { auth := authC } hCheck s

/-- COMMIT_NOW. -/
def execCommitNow (t : Nat) (src : Src) (h : Hdr) (s : State) : Host.Outcome State Fault Refusal :=
  opcode 0x22 t src h [] { auth := authC } hCommitNow s

/-- COMMIT_AT. -/
def execCommitAt (t : Nat) (src : Src) (h : Hdr) (kind : Byte) (instant : BitVec 80) (s : State) :
    Host.Outcome State Fault Refusal :=
  opcode 0x24 t src h ([kind, 0] ++ le 10 instant.toNat) { auth := authC } (hCommitAt kind instant) s

/-- DISARM. -/
def execDisarm (t : Nat) (src : Src) (h : Hdr) (s : State) : Host.Outcome State Fault Refusal :=
  opcode 0x26 t src h [] { auth := authC } hDisarm s

/-- DISCARD. -/
def execDiscard (t : Nat) (src : Src) (h : Hdr) (s : State) : Host.Outcome State Fault Refusal :=
  opcode 0x27 t src h [] { auth := authC } hDiscard s

/-- READ_WORDS. -/
def execReadWords (t : Nat) (src : Src) (h : Hdr) (so first count : BitVec 16) (s : State) : Host.Outcome State Fault Refusal :=
  opcode 0x30 t src h (rangeParams so first count) (readNeed so count) (hReadWords so first count) s

/-- READ_STAGED. -/
def execReadStaged (t : Nat) (src : Src) (h : Hdr) (so first count : BitVec 16) (s : State) : Host.Outcome State Fault Refusal :=
  opcode 0x32 t src h (rangeParams so first count) (readStagedNeed count) (hReadStaged so first count) s

/-- READ_BASKET_INDEX. -/
def execReadBasketIndex (t : Nat) (src : Src) (h : Hdr) (first : BitVec 16) (s : State) : Host.Outcome State Fault Refusal :=
  opcode 0x33 t src h (le 2 first.toNat ++ zeros 2) {} (hReadBasketIndex first) s

/-- READ_DIRECTORY. -/
def execReadDirectory (t : Nat) (src : Src) (h : Hdr) (first : BitVec 16) (s : State) : Host.Outcome State Fault Refusal :=
  opcode 0x34 t src h (le 2 first.toNat ++ zeros 2) {} (hReadDirectory first) s

end Sys2Proof.Machine
end

