-- ==== Sys2Proof/Machine/Time.lean ====
section
/-!
DEFINITION. Machine/Time.lean: the servo and acquisition (R199 to R206), network time and PTP (R208 to R214), time pulses and
captures (R216 to R218).
-/
namespace Sys2Proof.Machine

/-- The reply data of an opcode whose layout the spec does not give (log entry 11), over the facts it would be made from. -/
def openReply (op : Nat) (facts : List Nat) : Bytes :=
  (List.range (min 1456 (Config.replyLen op facts))).map (Config.replyByte op facts)

/-! ## The servo (R199, R202, R203) -/

/-- The limit of TIME.RATE and TIME.FREQ (R196). -/
def rateLimit : Int := 429496

def Dev.setTpo (d : Dev) (n : Nat) (x : Tpo) : Dev := { d with tpos := tset (fun _ => {}) d.tpos n x }

/-- Whether a time-pulse output is armed (R199): by the programme in force or by one that waits for a pulse to end. -/
def Dev.tpoArmed (d : Dev) : Bool :=
  (List.range 8).any fun n => d.rd F.timeTpoMode n != 0 || (d.tpo n).pending.any (·.mode != 0)

/-- The instants of a leg in the loaded timeline. -/
def Leg.rebase (mv : Nat → Nat) (x : Leg) : Leg :=
  { x with
    zeroAt := mv x.zeroAt, startAt := mv x.startAt, aDone := x.aDone.map mv, bDone := x.bDone.map mv
    dead := x.dead.map fun e => (e.1, mv e.2), blank := x.blank.map mv, cutAt := mv x.cutAt, ghSince := x.ghSince.map mv
    pumpFrom := x.pumpFrom.map mv, pumpTill := x.pumpTill.map mv, shadow := none }

/-- The instants of the loop engines in the loaded timeline. -/
def Engines.rebase (mv : Nat → Nat) (x : Engines) : Engines :=
  { x with
    outs := x.outs.map fun o => { o with due := mv o.due, at_ := mv o.at_ }
    snapAt := mv x.snapAt, prevAt := mv x.prevAt
    jobs := x.jobs.map fun j => { j with startAt := j.startAt.map mv, endAt := mv j.endAt, doneAt := j.doneAt.map mv }
    fast := x.fast.map fun f => { f with trigger := mv f.trigger, startAt := mv f.startAt, doneAt := mv f.doneAt }
    busy := x.busy.map fun e => (e.1, mv e.2), schedAt := x.schedAt.map mv, triggers := x.triggers.map fun e => (e.1, mv e.2) }

/-- The instants of Lantern, the twin, the group and the ledger in the loaded timeline: the lease ends at its EXPIRY read there. -/
def Dev.rebaseUnits (d : Dev) (mv : Nat → Nat) : Dev :=
  { d with
    acq := { d.acq with firstAt := mv d.acq.firstAt, lastAt := mv d.acq.lastAt
                        latches := d.acq.latches.map fun e => (e.1, { e.2 with at_ := mv e.2.at_ }) }
    twin := { d.twin with wickAt := d.twin.wickAt.map mv, frameAt := d.twin.frameAt.map mv
                          reportAt := d.twin.reportAt.map mv, checkAt := mv d.twin.checkAt }
    group := { d.group with heardAt := mv d.group.heardAt, lostAt := mv d.group.lostAt
                            children := d.group.children.map fun e =>
                              (e.1, { e.2 with sentAt := mv e.2.sentAt, reportAt := mv e.2.reportAt }) }
    ledger := { d.ledger with
      restoredAt := mv d.ledger.restoredAt, ckptAt := mv d.ledger.ckptAt, doneAt := mv d.ledger.doneAt
      retryAt := d.ledger.retryAt.map fun e => (mv e.1, e.2) }
    brake := { d.brake with onAt := mv d.brake.onAt, tickAt := mv d.brake.tickAt }
    modes := { d.modes with enteredAt := mv d.modes.enteredAt }
    coll := { d.coll with douseUAt := d.coll.douseUAt.map mv }
    reasm := d.reasm.map fun r => { r with at_ := mv r.at_ } }

/-- Every interval that the block has begun to count goes on over the acquisition load (R199; log entry 166): the instants it began at are
those of the loaded timeline. -/
def Dev.rebase (d : Dev) (theta : Int) : Dev :=
  let mv (x : Nat) : Nat := ((x : Int) - theta).toNat
  let d := { d.rebaseUnits mv with engines := d.engines.rebase mv }
  let d := d.legs.foldl (fun d e => d.setLeg e.1 ((d.leg e.1).rebase mv)) d
  let d := d.loops.foldl (fun d e =>
    d.setLoop e.1 { d.loop e.1 with evals := (d.loop e.1).evals.map fun v => (mv v.1, mv v.2.1, v.2.2) }) d
  (List.range 8).foldl (fun d n => d.setTpo n { d.tpo n with endAt := mv (d.tpo n).endAt }) d

/-- Fabric time is set back or forward once, at acquisition (R199): the cycle in progress ends at the first boundary at
least 2,500 EDGE cycles later, the index continues from the loaded time, no exchange mixes the two timelines, and the sample is the
previous one of the next (log entry 166). -/
def Dev.loadTime (d : Dev) (theta : Int) : Dev :=
  let now := ((d.now : Int) - theta).toNat
  let b := d.boundaryCeil (now + 20000)
  let d := d.rebase theta
  let d := { d with
    clock := { d.clock with
      now := now, shift := d.clock.shift + ((d.now : Int) - now), boundary := b, index := d.boundaryIndex b
      lastSampleAt := d.up, haveSample := true }
    sched := { d.sched with expanded := 0 } }
  let d := d.laneTimes.foldl (fun d e => d.setLaneTime e.1 { d.laneTime e.1 with pending := false }) d
  (d.wr F.timeAcquired 1).wr F.timeMisaligned 0

/-- One offset sample into the servo (R202): the first only starts the interval. -/
def Dev.servo (d : Dev) (theta : Int) : Dev :=
  let gap : Int := (d.up - d.clock.lastSampleAt : Nat)
  let d' := { d with clock := { d.clock with lastSampleAt := d.up, haveSample := true } }
  if !d.clock.haveSample || gap = 0 then d'
  else
    let f := clampI (-rateLimit) rateLimit (s32 (d.rd F.timeFreq) - Int.tdiv (theta * 2 ^ 32) (16 * gap))
    let r := clampI (-rateLimit) rateLimit (f - Int.tdiv (theta * 2 ^ 32) (4 * gap))
    (d'.wr F.timeFreq (u32 f)).wr F.timeRate (u32 r)

/-- Whether the load still has to come (R199), and whether nothing holds it back. -/
def Dev.loadWaits (d : Dev) : Bool := !d.on F.timeAcquired && (d.rd F.timeSrc == 1 || d.rd F.timeSrc == 2)
def Dev.mayLoad (d : Dev) : Bool := !d.mode.switching && !d.on F.stgArmed && !d.tpoArmed

/-- A valid sample from the source in force (R199, R202, R203), in fine ticks, local minus source: the first one that may loads fabric
time, every other one, those that come while the load waits too, goes into the servo. -/
def Dev.offsetSample (d : Dev) (theta : Int) : Dev :=
  let d := d.wr F.timeHoldover 0
  if d.loadWaits && d.mayLoad then d.loadTime theta
  else
    let off := decide (100 < theta.natAbs)
    let wasOff := d.on F.timeMisaligned
    let d := ((d.wr F.timeLastOfs (u32 (sat32 theta))).wr F.timeMisaligned (flag off)).servo theta
    if off && !wasOff then d.fault 9 0 else d

/-! ## Exchanges on lanes (R204 to R206) -/

/-- A frame this node sends for the far end of a lane itself (R168): LOCAL on U and D lanes. -/
def farItem (l ftype rank : Nat) (payload : Bytes) : TxItem :=
  { ftype := ftype, rank := rank, loc := !cellOrTwin l, payload := payload
    addr := if l < 48 then 127 else if l = 53 || l = 54 then 0xFFFF else 0 }

/-- The lanes on which this node initiates exchanges (R204). -/
def Dev.initiates (d : Dev) (l : Nat) : Bool :=
  d.laneUp l && (decide (l < 48) || (decide (49 ≤ l) && decide (l ≤ 53)) || (decide (l = 54) && !d.laneUp 53))

/-- The interval of the exchanges of a lane (R204): 10 µs until sixteen are valid, then TIME.SYNC_INT. -/
def Dev.syncInterval (d : Dev) (l : Nat) : Nat :=
  if (d.laneTime l).delays.length < 16 then 10 * ticksUs else d.rd F.timeSyncInt * ticksUs

/-- A TIME_SYNC queued on a lane: a new SYNC_ID, or that of a start-up exchange that failed and is repeated (R204; log entry 167). -/
def Dev.sendSync (d : Dev) (l : Nat) : Dev :=
  let x := d.laneTime l
  let id := if x.done || 16 ≤ x.delays.length then (x.syncId + 1) % 65536 else x.syncId
  (d.setLaneTime l { x with syncId := id, sentAt := d.up, done := false, pending := true, clean := true }).queueFrame l
    (farItem l 0x06 3 (zeros 8 ++ le 2 id ++ zeros 6))

/-- The exchanges that are due (R204). -/
def Dev.syncLanes (d : Dev) : Dev :=
  ((List.range 55).filter fun l => d.initiates l && d.spent (d.laneTime l).sentAt (d.syncInterval l)).foldl (fun d l => d.sendSync l) d

/-- TIME_SYNC_INTERVAL (R204). -/
def execTimeSyncInterval (t : Nat) (s : State) : Host.Outcome State Fault Refusal := event t s fun d => d.syncLanes

/-- A TIME_SYNC in sequence (R204 to R206): answered, and from number 17 on a sample of the source. An exchange repeated has the SYNC_ID
it had (log entry 167). -/
def Dev.timeSync (d : Dev) (l : Nat) (f : RxFrame) : Dev :=
  let p := f.payload
  if (l ≠ 48 && l ≠ 53 && l ≠ 54) || p.length ≠ 16 || !zeroRange p 10 6 then d.badContent l
  else
    let id := leAt p 8 2
    let x := d.laneTime l
    let seen := d.clock.syncSeen.contains (l * 65536 + id)
    let number := if x.lastId = some id then x.answered else x.answered + 1
    let d := d.setLaneTime l { x with answered := min 17 number, lastId := some id }
    let d := { d with clock := { d.clock with syncSeen := ((l * 65536 + id) :: d.clock.syncSeen).take 16 } }
    let d := d.queueFrame l (farItem l 0x07 3 (le 8 d.now ++ zeros 8 ++ le 2 id ++ zeros 6))
    if !(f.flags.toNat.testBit 2 && seen) && decide (17 ≤ number) && d.isSource l then
      d.offsetSample ((d.now : Int) - leAt p 0 8)
    else d

/-- TIME_SYNC (R205). -/
def execTimeSync (t : Nat) (lane : Fin 55) (f : RxFrame) (s : State) : Host.Outcome State Fault Refusal :=
  event t s fun d => d.receive lane 0x06 f fun d => d.timeSync lane f

/-- A TIME_RESP in sequence (R205, R206): a delay sample and the far-end offset, when the exchange is valid. -/
def Dev.timeResp (d : Dev) (l : Nat) (f : RxFrame) : Dev :=
  let p := f.payload
  if l = 48 || p.length ≠ 24 || !zeroRange p 18 6 then d.badContent l
  else
    let x := d.laneTime l
    let t1 : Int := x.t1
    let t2 : Int := leAt p 0 8
    let t3 : Int := leAt p 8 8
    let t4 : Int := d.now
    let sample := Int.tdiv ((t4 - t1) - (t3 - t2)) 2
    let near := decide (x.delays.length < 16) || decide ((sample - d.rd F.timeLaneDelay l).natAbs ≤ 20)
    if x.pending && leAt p 16 2 == x.syncId && x.clean && decide (t3 - t2 ≤ 100000) && near then
      let ds := (sample :: x.delays).take 16
      let mean := Int.tdiv ds.sum ds.length
      let ofs := Int.tdiv ((t2 - t1) - (t4 - t3)) 2 - sN 16 (d.rd F.timeLaneAsym l)
      let d := d.setLaneTime l { x with delays := ds, pending := false, done := true }
      (d.wr F.timeLaneDelay (u32 mean) l).wr F.timeLaneOfs (BitVec.ofInt 16 (clampI (-32768) 32767 ofs)).toNat l
    else d

/-- TIME_RESP (R205). -/
def execTimeResp (t : Nat) (lane : Fin 55) (f : RxFrame) (s : State) : Host.Outcome State Fault Refusal :=
  event t s fun d => d.receive lane 0x07 f fun d => d.timeResp lane f

/-- TIME_SOURCE_LOST (R203): no valid sample for 16 times TIME.SYNC_INT with code 1 or 2. -/
def execTimeSourceLost (t : Nat) (s : State) : Host.Outcome State Fault Refusal :=
  event t s fun d =>
    let since := max d.clock.lastSampleAt d.clock.srcFrom
    if (d.rd F.timeSrc == 1 || d.rd F.timeSrc == 2) && d.spent since (16 * d.rd F.timeSyncInt * ticksUs) then d.sourceLost else d

/-! ## Network time (R212 to R215) -/

/-- The firings of the outputs in network timebase under the mapping in force (R215): those in hand and those of programmes that wait. -/
def Dev.tposRemap (d : Dev) : Dev :=
  (List.range 8).foldl (fun d n =>
    let x := d.tpo n
    let x := if d.on F.timeTpoNet n && d.on F.timeTpoMode n then { x with next := d.toFabric x.nextNet } else x
    d.setTpo n { x with pending := x.pending.map fun p => if p.net then { p with first := d.toFabric p.start } else p }) d

/-- A map step (R213, R215). -/
def Dev.mapStep (d : Dev) (theta : Int) : Dev :=
  let n : Int := d.rdPair F.timeMapN
  ((d.wrPair F.timeMapN (u64 (n - theta))).tposRemap.bump F.timeMapSteps).raise 0x19

/-- With code 3, an offset that is used without slewing is a valid sample all the same (R203; log entry 166). -/
def Dev.netHeard (d : Dev) : Dev := if d.rd F.timeSrc = 3 then d.wr F.timeHoldover 0 else d

/-- An offset of network time (R213), in ns, at a fabric instant where the master's time is given. -/
def Dev.netOffset (d : Dev) (theta : Int) (at_ master : Nat) : Dev :=
  let a := theta.natAbs
  if !d.on F.timeNetValid then
    ((d.wrPair F.timeMapF at_).wrPair F.timeMapN master).netHeard.wr F.timeNetValid 1
  else
    let d := d.wr F.timeNetOfs (u32 (sat32 theta))
    if a < 100 * d.rd F.timeSlewLimit then (if d.rd F.timeSrc = 3 then d.offsetSample (theta * 10) else d)
    else if a ≤ 100 * d.rd F.timeJumpLimit then d.netHeard.mapStep theta
    else if d.on F.timeAcceptPend then (d.netHeard.wr F.timeAcceptPend 0).mapStep theta
    else ((d.wr F.timeNetRefused 1).bump F.timeRefuseCount).raise 0x18

/-- What a write of word 5 of TIME.SET_NET does (R214). -/
def Dev.setNet (d : Dev) : Dev :=
  let v := d.rdPair F.timeSetNet
  d.netOffset ((d.toNet d.now : Int) - v) d.now v

/-! ## The PTP port (R208, R209, R213) -/

/-- Whether the ordinary clock runs (R208, R119). -/
def Dev.ptpRuns (d : Dev) : Bool := d.on F.timePtpEn && d.netRuns

/-- The MAC address of the network port (R119). -/
def Dev.netMac (d : Dev) : Nat := d.rd F.cmdNetMacHi * 2 ^ 16 + d.rd F.cmdNetMacLo

/-- The clock identity (IEEE 1588, the EUI-64 of the MAC address) and the identity of its one port. -/
def Dev.ptpClock (d : Dev) : Nat := d.netMac / 2 ^ 24 * 2 ^ 40 + 0xFFFE * 2 ^ 24 + d.netMac % 2 ^ 24
def Dev.ptpSelf (d : Dev) : Nat := d.ptpClock * 65536 + 1

/-- The clockClass of this clock (R209, R222). -/
def Dev.ptpClass (d : Dev) : Nat := if d.on F.timeNetValid then d.rd F.timePtpClass else 248

/-- The rank of this clock in the comparison of data sets (R208, R209; log entry 105). -/
def Dev.ptpRank (d : Dev) : List Nat :=
  [d.rd F.timePtpPrio1, d.ptpClass, 0xFE, 0xFFFF, d.rd F.timePtpPrio2, d.ptpClock, 0, 0]

/-- The rank a message announces: the grandmaster's attributes, its identity, the steps to it, the sender. -/
def ptpMsgRank (m : PtpMsg) : List Nat :=
  [m.prio1, m.clockClass, m.accuracy, m.variance, m.prio2, m.grandmaster, m.stepsRemoved, m.source]

/-- The state the best master clock algorithm gives against a foreign master (R201, R208, R209): a clock of a class up to 127 is never a
slave. -/
def Dev.ptpDecide (d : Dev) (foreign : Option (List Nat)) : PtpState :=
  let best : PtpState := if d.on F.timeNetValid then .master else .listening
  match foreign with
  | none => if d.on F.timePtpMaster then best else .listening
  | some r =>
    if d.on F.timePtpMaster && decide (d.ptpRank < r) then best
    else if d.on F.timePtpMaster && decide (d.ptpClass ≤ 127) then .passive
    else if d.rd F.timeSrc = 3 then (if d.ptp.haveDelay then .slave else .uncalibrated)
    else .passive

/-- The foreign master followed or passed over, if there is one. -/
def Ptp.foreign (p : Ptp) : Option (List Nat) := if p.masterRank.isEmpty then none else some p.masterRank

/-- The port after a change of its settings, its link or its time (R201, R208): it starts in LISTENING, and decides again while it
runs. -/
def Dev.ptpRefresh (d : Dev) : Dev :=
  if !d.ptpRuns then { d with ptp := {} }
  else if d.ptp.state = .initializing then { d with ptp := { state := .listening, announceAt := d.up } }
  else if d.ptp.foreign.isNone && d.ptp.state ≠ .master then d
  else { d with ptp := { d.ptp with state := d.ptpDecide d.ptp.foreign } }

/-- Whether the port follows a master. -/
def PtpState.follows (s : PtpState) : Bool := s == .uncalibrated || s == .slave

/-- The origin of a Sync is known: an offset, used while the port is SLAVE (R201, R213). -/
def Dev.ptpOffset (d : Dev) (origin : Nat) (corr : Int) : Dev :=
  let master : Int := origin + corr + d.ptp.meanDelay
  let theta : Int := (d.toNet d.ptp.syncRx : Int) - master
  let d := { d with ptp := { d.ptp with offset := theta, syncOrigin := origin, syncCorr := corr } }
  if d.ptp.state = .slave then d.netOffset theta d.ptp.syncRx master.toNat else d

/-- A mean path delay is known: the port leaves UNCALIBRATED (R201: with code 3 only). -/
def Dev.ptpDelay (d : Dev) (delay : Int) : Dev :=
  let st := if d.ptp.state = .uncalibrated && d.rd F.timeSrc = 3 then .slave else d.ptp.state
  { d with ptp := { d.ptp with meanDelay := delay, haveDelay := true, state := st } }

/-- Whether a message belongs to the peer-to-peer mechanism. -/
def peerKind (k : PtpKind) : Bool := k == .pdelayReq || k == .pdelayResp || k == .pdelayRespFollowUp

/-- The group MAC address of a message (R119). -/
def Dev.ptpMac (d : Dev) (k : PtpKind) : Nat :=
  match d.on F.timePtpUdp, peerKind k with
  | false, false => 0x011B19000000
  | false, true => 0x0180C200000E
  | true, false => 0x01005E000181
  | true, true => 0x01005E00006B

/-- A message of this port (R208, R209, R222): what every one of them carries. -/
def Dev.ptpFrame (d : Dev) (k : PtpKind) (seq : Nat) : PtpMsg :=
  { kind := k, domain := d.rd F.timePtpDomain, seq := seq, source := d.ptpSelf, twoStep := false, seconds := 0, nanos := 0
    correction := 0, prio1 := d.rd F.timePtpPrio1, clockClass := d.ptpClass, accuracy := 0xFE, variance := 0xFFFF
    prio2 := d.rd F.timePtpPrio2, grandmaster := d.ptpClock, stepsRemoved := 0, requester := 0, rxAt := d.now }

/-- A message with the timestamp of a fabric instant (R212). -/
def Dev.stamp (d : Dev) (m : PtpMsg) (at_ : Nat) : PtpMsg :=
  { m with seconds := d.toNet at_ / 1000000000, nanos := d.toNet at_ % 1000000000 }

/-- A message leaves the network port (R208, R211). -/
def Dev.ptpSend (d : Dev) (m : PtpMsg) : Dev := d.netSend (d.ptpMac m.kind) (.ptp (d.on F.timePtpUdp) m)

/-- A Sync (R211): one-step with the departure as its originTimestamp, or two-step with zero and a Follow_Up. -/
def Dev.ptpSync (d : Dev) (seq : Nat) : Dev :=
  let m := d.ptpFrame .sync seq
  if d.on F.timePtpOnestep then d.ptpSend (d.stamp m d.now)
  else (d.ptpSend { m with twoStep := true }).ptpSend (d.stamp (d.ptpFrame .followUp seq) d.now)

/-- The answer to a Delay_Req (R208, R210): its arrival, with its correction. -/
def Dev.ptpDelayResp (d : Dev) (m : PtpMsg) : Dev :=
  d.ptpSend (d.stamp { d.ptpFrame .delayResp m.seq with correction := m.correction, requester := m.source } m.rxAt)

/-- The answer to a Pdelay_Req (R210, R211): one-step with the turnaround in its correctionField, or two-step with its arrival and a
Pdelay_Resp_Follow_Up that carries the departure. -/
def Dev.ptpPeerResp (d : Dev) (m : PtpMsg) : Dev :=
  let resp (k : PtpKind) : PtpMsg := { d.ptpFrame k m.seq with requester := m.source }
  if d.on F.timePtpOnestep then
    d.ptpSend { resp .pdelayResp with correction := m.correction + (((d.now - m.rxAt) / 10 : Nat) : Int) }
  else
    (d.ptpSend (d.stamp { resp .pdelayResp with twoStep := true } m.rxAt)).ptpSend
      (d.stamp { resp .pdelayRespFollowUp with correction := m.correction } d.now)

/-- An Announce (R208; log entry 105): from the master heard, or from a better one. -/
def Dev.ptpAnnounce (d : Dev) (m : PtpMsg) : Dev :=
  let p := d.ptp
  if 255 ≤ m.stepsRemoved then d
  else if p.masterRank.isEmpty || m.source = p.master || (ptpMsgRank m) < p.masterRank then
    let d := { d with ptp := { p with
      master := m.source, masterRank := ptpMsgRank m, announceAt := d.up, haveDelay := p.haveDelay && decide (m.source = p.master) } }
    { d with ptp := { d.ptp with state := d.ptpDecide (some (ptpMsgRank m)) } }
  else d

/-- A PTP message (R208). -/
def Dev.ptpMessage (d : Dev) (m : PtpMsg) : Dev :=
  let p := d.ptp
  let time := m.seconds * 1000000000 + m.nanos
  let mine := p.state.follows && m.source == p.master
  let e2e := !d.on F.timePtpP2p
  let peer := !e2e && m.requester == d.ptpSelf && m.seq == p.pdReqSeq
  if !d.ptpRuns || m.domain ≠ d.rd F.timePtpDomain || m.source = d.ptpSelf then d
  else match m.kind with
  | .announce => d.ptpAnnounce m
  | .sync =>
    if !mine then d
    else
      let d := { d with ptp := { p with
        syncSeq := m.seq, syncRx := m.rxAt, syncCorr := m.correction, awaitFollow := m.twoStep } }
      if m.twoStep then d else d.ptpOffset time m.correction
  | .followUp =>
    if mine && p.awaitFollow && m.seq = p.syncSeq then
      { d with ptp := { p with awaitFollow := false } }.ptpOffset time (p.syncCorr + m.correction)
    else d
  | .delayReq => if p.state = .master && e2e then d.ptpDelayResp m else d
  | .delayResp =>
    if mine && e2e && m.requester = d.ptpSelf && m.seq = p.delaySeq then
      let ms : Int := (d.toNet p.syncRx : Int) - (p.syncOrigin + p.syncCorr)
      let sm : Int := (time : Int) - m.correction - d.toNet p.delayTx
      d.ptpDelay (Int.tdiv (ms + sm) 2)
    else d
  | .pdelayReq => if e2e then d else d.ptpPeerResp m
  | .pdelayResp =>
    if !peer then d
    else
      let d := { d with ptp := { p with pdT2 := time, pdT4 := m.rxAt, pdCorr := m.correction } }
      if m.twoStep then d
      else d.ptpDelay (Int.tdiv ((d.toNet m.rxAt : Int) - d.toNet p.pdT1 - m.correction) 2)
  | .pdelayRespFollowUp =>
    if !peer then d
    else
      let turn : Int := (time : Int) - p.pdT2 + p.pdCorr + m.correction
      d.ptpDelay (Int.tdiv ((d.toNet p.pdT4 : Int) - d.toNet p.pdT1 - turn) 2)

/-- PTP_MESSAGE. -/
def execPtpMessage (t : Nat) (m : PtpMsg) (s : State) : Host.Outcome State Fault Refusal := event t s fun d => d.ptpMessage m

/-- The fine ticks of an interval given by its binary logarithm in seconds, a signed field of four bits (R208, R222). -/
def logTicks (v : Nat) : Nat := if v < 8 then ticksSec * 2 ^ v else ticksSec / 2 ^ (16 - v)

/-- Whether a message sent at an interval is due again: the first one at once. -/
def Dev.ptpDue (d : Dev) (last : Option Nat) (v : Nat) : Bool := last.all fun x => d.spent x (logTicks v)

/-- PTP_MESSAGE_INTERVAL (R208): Sync in state MASTER, Announce there and, with clockClass 248, from a master-capable port that would be
master had it network time (R209; log entry 105), a delay request while a master is followed, a Pdelay_Req with the peer-to-peer
mechanism. -/
def Dev.ptpInterval (d : Dev) (k : PtpKind) : Dev :=
  let p := d.ptp
  let delayDue := d.ptpDue p.delayAt (d.rd F.timePtpLogDelay)
  if !d.ptpRuns then d
  else match k with
  | .sync =>
    let seq := (p.txSeq + 1) % 65536
    if p.state == .master && d.ptpDue p.syncAt (d.rd F.timePtpLogSync) then
      { d with ptp := { p with txSeq := seq, syncAt := some d.up } }.ptpSync seq
    else d
  | .announce =>
    let seq := (p.annSeq + 1) % 65536
    let speaks := p.state == .master || (d.on F.timePtpMaster && !d.on F.timeNetValid && p.state == .listening)
    if speaks && d.ptpDue p.annAt (d.rd F.timePtpLogAnn) then
      { d with ptp := { p with annSeq := seq, annAt := some d.up } }.ptpSend (d.ptpFrame .announce seq)
    else d
  | .delayReq =>
    let seq := (p.delaySeq + 1) % 65536
    if p.state.follows && !d.on F.timePtpP2p && delayDue then
      { d with ptp := { p with delaySeq := seq, delayTx := d.now, delayAt := some d.up } }.ptpSend (d.ptpFrame k seq)
    else d
  | .pdelayReq =>
    let seq := (p.pdReqSeq + 1) % 65536
    if d.on F.timePtpP2p && delayDue then
      { d with ptp := { p with pdReqSeq := seq, pdT1 := d.now, delayAt := some d.up } }.ptpSend (d.ptpFrame k seq)
    else d
  | _ => d

/-- PTP_MESSAGE_INTERVAL. -/
def execPtpMessageInterval (t : Nat) (kind : PtpKind) (s : State) : Host.Outcome State Fault Refusal :=
  event t s fun d => d.ptpInterval kind

/-- PTP_ANNOUNCE_TIMEOUT (R203, R208): TIME.PTP_ANN_TO intervals without an Announce: the master is forgotten; with code 3 the source is
lost. -/
def Dev.ptpTimeout (d : Dev) : Dev :=
  if d.ptpRuns && d.spent d.ptp.announceAt (d.rd F.timePtpAnnTo * logTicks (d.rd F.timePtpLogAnn)) then
    let d := { d with ptp := { d.ptp with masterRank := [], master := 0, haveDelay := false, state := d.ptpDecide none } }
    if d.rd F.timeSrc = 3 then d.sourceLost else d
  else d

/-- PTP_ANNOUNCE_TIMEOUT. -/
def execPtpAnnounceTimeout (t : Nat) (s : State) : Host.Outcome State Fault Refusal := event t s fun d => d.ptpTimeout

/-- A new time source (R201, R203): it has given no sample yet, and code 0 leaves no rate. -/
def Dev.newSource (d : Dev) : Dev :=
  let d := { d with clock := { d.clock with haveSample := false, srcFrom := d.up } }
  if d.rd F.timeSrc == 0 then (d.wr F.timeRate 0).wr F.timeHoldover 0 else d

/-- A commit of the time settings (R201, R203, R219). -/
def Dev.timeCommit (d : Dev) (old : Dev) : Dev :=
  let d := if d.rd F.timeSrc == old.rd F.timeSrc then d else d.newSource
  (d.wr F.timeSrcActive (d.rd F.timeSrc)).ptpRefresh.sourceGone

/-! ## Time pulses (R216, R217) -/

/-- A programme of an output takes effect. -/
def Dev.programTpo (d : Dev) (n : Nat) (p : TpoProg) : Dev :=
  let d := d.setTpo n { d.tpo n with
    next := if p.mode = 0 then 0 else p.first, nextNet := if p.net then p.start else 0, period := p.period, pending := none }
  (d.wr F.timeTpoMode p.mode n).wr F.timeTpoNet (flag p.net) n

/-- The period of an output in fine ticks. -/
def tpoTicks (net : Bool) (period : Nat) : Nat := if net then 10 * period else period

/-- SET_TPO (R216, R217): the first firing is converted at execution; while a pulse is active the programme waits for its end. -/
def hSetTpo (index mode : Byte) (start period : BitVec 64) : Handler := fun _ d =>
  let n := index.toNat
  let net := mode.toNat.testBit 2
  let first := if net then d.toFabric start.toNat else start.toNat
  let p : TpoProg := { mode := mode.toNat % 4, net := net, start := start.toNat, period := period.toNat, first := first }
  let ticks := tpoTicks net p.period
  orRefuse [refuseIf (decide (7 < n) || p.mode == 3) stBadParam 0x92 d,
      refuseIf (p.mode == 2 && (decide (ticks < 1000) || decide (ticks ≤ d.rd F.timeTpoWidth n + 8))) stBadParam 0x92 d,
      refuseIf (decide (8 ≤ mode.toNat)) stReservedSet 0 d,
      refuseIf (net && !d.on F.timeNetValid) stWrongMode 0 d,
      refuseIf (decide (first < d.now + 100000)) stExpired 0 d]
    (okEmpty (if (d.tpo n).level then d.setTpo n { d.tpo n with pending := some p } else d.programTpo n p))

/-- SET_TPO. -/
def execSetTpo (t : Nat) (src : Src) (h : Hdr) (index mode : Byte) (start period : BitVec 64) (s : State) :
    Host.Outcome State Fault Refusal :=
  opcode 0x71 t src h ([index, mode, 0, 0] ++ le 8 start.toNat ++ le 8 period.toNat) { auth := authC }
    (hSetTpo index mode start period) s

/-- TPO_FIRING (R217): a pulse begins at its instant (log entry 168); during a pulse nothing fires. -/
def Dev.tpoFiring (d : Dev) (n : Nat) : Dev :=
  let x := d.tpo n
  let mode := d.rd F.timeTpoMode n
  if mode = 0 || x.level || decide (d.now < x.next) then d
  else
    let x := { x with level := true, endAt := d.now + d.rd F.timeTpoWidth n }
    if mode = 1 then (d.setTpo n { x with next := 0 }).wr F.timeTpoMode 0 n
    else if d.on F.timeTpoNet n then
      d.setTpo n { x with nextNet := x.nextNet + x.period, next := d.toFabric (x.nextNet + x.period) }
    else d.setTpo n { x with next := x.next + x.period }

/-- TPO_FIRING. -/
def execTpoFiring (t : Nat) (output : Fin 8) (s : State) : Host.Outcome State Fault Refusal :=
  event t s fun d => d.tpoFiring output

/-- The firings of an output that would have begun during the pulse that ends now are skipped (R217). -/
def Dev.tpoSkip (d : Dev) (n : Nat) : Dev :=
  let x := d.tpo n
  let net := d.on F.timeTpoNet n
  let ticks := tpoTicks net x.period
  if !d.on F.timeTpoMode n || decide (d.now ≤ x.next) then d
  else if d.rd F.timeTpoMode n = 1 then (d.setTpo n { x with next := 0 }).wr F.timeTpoMode 0 n
  else
    let k := (d.now - x.next + ticks - 1) / ticks
    d.setTpo n { x with next := x.next + k * ticks, nextNet := if net then x.nextNet + k * x.period else x.nextNet }

/-- TPO_PULSE_END (R217): TIME.TPO_WIDTH after the firing; a programme that waited takes effect, a firing in network timebase is
converted. -/
def Dev.tpoEnd (d : Dev) (n : Nat) : Dev :=
  let x := d.tpo n
  if !x.level || decide (d.now < x.endAt) then d
  else
    let d := d.setTpo n { x with level := false }
    let d := match x.pending with
      | some p => d.programTpo n p
      | none =>
        if d.rd F.timeTpoMode n = 2 && d.on F.timeTpoNet n then d.setTpo n { d.tpo n with next := d.toFabric x.nextNet } else d
    d.tpoSkip n

/-- TPO_PULSE_END. -/
def execTpoPulseEnd (t : Nat) (output : Fin 8) (s : State) : Host.Outcome State Fault Refusal :=
  event t s fun d => d.tpoEnd output

/-! ## Captures (R218) -/

def Dev.setTci (d : Dev) (n : Nat) (x : List Nat) : Dev := { d with tcis := tset (fun _ => []) d.tcis n x }

/-- TCI_EDGE (R218). -/
def Dev.tciEdge (d : Dev) (n : Nat) (rising : Bool) : Dev :=
  if !(d.rd F.timeTciEdge n).testBit (if rising then 0 else 1) then d
  else
    let x := d.tci n
    if x.length < 16 then
      let x := x ++ [(if rising then 2 ^ 63 else 0) + d.now % 2 ^ 63]
      ((d.setTci n x).wr F.timeTciFill x.length n).raise 0x1C
    else ((d.raise 0x1C).bump F.timeTciLost n).raise 0x1B

/-- TCI_EDGE. -/
def execTciEdge (t : Nat) (input : Fin 4) (rising : Bool) (s : State) : Host.Outcome State Fault Refusal :=
  event t s fun d => d.tciEdge input rising

/-- READ_TCI (R218): the oldest entries, returned and removed. -/
def hReadTci (index : Byte) : Handler := fun _ d =>
  let n := index.toNat
  if 3 < n then refuse stBadParam 0x92 d
  else .reply stOk ((d.tci n).flatMap (le 8)) ((d.setTci n []).wr F.timeTciFill 0 n)

/-- READ_TCI. -/
def execReadTci (t : Nat) (src : Src) (h : Hdr) (index : Byte) (s : State) : Host.Outcome State Fault Refusal :=
  opcode 0x72 t src h (index :: zeros 3) {} (hReadTci index) s

/-- GET_TIME (R212). -/
def hGetTime : Handler := fun _ d =>
  let net := if d.on F.timeNetValid then d.toNet d.now else 0
  .reply stOk (le 8 d.now ++ le 6 (net / 1000000000) ++ le 4 (net % 1000000000) ++ le 8 (d.rdPair F.timeMapN)
    ++ le 8 (d.rdPair F.timeMapF) ++ le 4 (d.readWord 0x0300 0)) d

/-- GET_TIME. -/
def execGetTime (t : Nat) (src : Src) (h : Hdr) (s : State) : Host.Outcome State Fault Refusal :=
  opcode 0x70 t src h [] {} hGetTime s

/-- The state of the port as a number. -/
def ptpCode : PtpState → Nat
  | .initializing => 1 | .listening => 4 | .master => 6 | .passive => 7 | .uncalibrated => 8 | .slave => 9

/-- PTP_STATUS (R114): its layout is not given (log entry 11). -/
def hPtpStatus : Handler := fun _ d =>
  .reply stOk (openReply 0x73 [ptpCode d.ptp.state, d.ptp.master, u64 d.ptp.offset, u64 d.ptp.meanDelay]) d

/-- PTP_STATUS. -/
def execPtpStatus (t : Nat) (src : Src) (h : Hdr) (s : State) : Host.Outcome State Fault Refusal :=
  opcode 0x73 t src h [] {} hPtpStatus s

end Sys2Proof.Machine
end

