-- ==== Sys2Proof/Machine/Live.lean ====
section
/-!
DEFINITION. Machine/Live.lean: live writes (R7, R8), the fields that act when they are written, and live tuning (R274, R275).
-/
namespace Sys2Proof.Machine

/-! ## Access codes (R7) -/

/-- The bits a live write may reach: RW, W1C and WE fields. -/
def liveMask (so word : Nat) : Word := accMask so word (fun a => a == .rw || a == .w1c || a == .we)

/-- The bits a live write stores: RW and WE fields. -/
def storeMask (so word : Nat) : Word := accMask so word (fun a => a == .rw || a == .we)

/-- The counters narrower than a word whose text says that they are cleared by writing 1 to every bit. -/
def wholeCounters : List Fld :=
  [F.loopOverruns, F.loopFpLate, F.loopGSwitches, F.hmpPlaceChanges, F.hmpQPeak, F.legBrkCount, F.twinTakeovers]
    ++ [F.fltRaises, F.safePreempts, F.sysTPeak, F.stgPreempted, F.stgRefusedAt]

/-- Whether a W1C field is cleared only by a write that sets all its bits (R7). -/
def clearedWhole (f : Fld) : Bool := (f.hi - f.lo == 31 && f.so != 0x0F20) || wholeCounters.contains f

/-- The event sources of a word of FLT.EV_PEND that were raised in this SAFE cycle (R416). -/
def Dev.raisedNow (d : Dev) (word : Nat) : Nat :=
  if d.coll.raisedIn = d.safeCycle then
    d.coll.raised.foldl (fun m s => if s / 32 = word then m ||| 2 ^ (s % 32) else m) 0
  else 0

/-- The W1C bits of a word whose cause is still active (R7): they stay set. -/
def Dev.w1cHeld (d : Dev) (so word : Nat) : Word :=
  let bit (b : Bool) (n : Nat) : Nat := if b then 2 ^ n else 0
  BitVec.ofNat 32 (match so with
    | 0x0080 => bit (d.on F.clkRefSrc && d.rd F.clkRefActive != 2) 13 + bit d.clk.localLost 12 + d.clk.monBad
    | 0x0200 => bit (d.lane word).limited 16
    | 0x0300 => bit (d.on F.timeHoldover) 25
    | 0x0802 => 2 ^ 25
    | 0x0805 => bit (d.brake.trip0 || d.brake.trip1) 27
    | 0x0B01 => bit (d.on F.measOcIn word) 29
    | 0x0D02 => bit (word == 0 && decide (2 ≤ d.rd F.grpUState)) 28
    | 0x0E01 => bit (word == 0 && d.twin.divPending) 25
    | 0x0F20 => d.raisedNow word
    | _ => 0)

/-- The bits of a word that the ones of a write clear. -/
def Dev.w1cClears (d : Dev) (so word : Nat) (v : Word) : Word :=
  let one (f : Fld) : Word :=
    let m := maskBits f.hi f.lo
    if f.acc ≠ .w1c then 0 else if clearedWhole f then (if v &&& m = m then m else 0) else v &&& m
  ((wordFlds so word).foldl (fun m f => m ||| one f) 0) &&& ~~~ d.w1cHeld so word

/-! ## Fields that act -/

/-- Clear histograms and maps (R491, R496): bits 0 to 3 the units, 4 and 5 the maps. -/
def Dev.acqClear (d : Dev) (mask : Nat) : Dev :=
  let unitOf (k : Nat) : Nat := if k < 2 ^ 20 then k / 4096 else 4 + (k - 2 ^ 20) / 65536
  let d := { d with acq := { d.acq with
    clearing := d.acq.clearing ||| mask
    bins := d.acq.bins.filter fun e => !mask.testBit (unitOf e.1)
    saturated := d.acq.saturated.filter fun u => !mask.testBit u } }
  ((List.range 4).filter mask.testBit).foldl (fun d u => (d.wr F.acqHUnder 0 u).wr F.acqHOver 0 u) d

/-- What a word does once its WE and RW bits are in force (R7): on a live write and on a commit alike; `v` is the value
written in those bits. -/
def Dev.wordActs (d : Dev) (so word : Nat) (v : Word) : Dev :=
  let n := v.toNat
  if so = 0x0302 && word = 5 then d.setNet
  else if so = 0x0303 && word = 2 then (if n.testBit 0 then d.wr F.timeAcceptPend 1 else d)
  else if so = 0x0910 && word = 1 then (if n.testBit 0 then d.startCheckpoint (d.rd F.hmpCkptSector + 1) else d)
  else if so = 0x0910 && word = 2 then
    (if n.testBit 31 then { d with ledger := { d.ledger with clear := some (n % 128) } } else d)
  else if so = 0x0D10 && word = 3 then d.mailbox
  else if so = 0x1002 then d.driveContactors
  else if so = 0x1305 then d.acqClear (n / 16 % 16 + n / 1024 % 4 * 16)
  else d

/-- What a live write leaves as it was for the rest of its CTRL cycle: the words of a slot definition for a latch (R37), the shadow
compares for a zero event (R320). -/
def Dev.liveNote (d : Dev) (so word : Nat) : Dev :=
  if 0x0600 ≤ so && so < 0x0700 then d.noteOverwrite so word
  else if so = 0x0801 && word % 3 = 1 then d.noteShadow (word / 3)
  else d

/-- One word of a live write (R7): RW and WE bits stored, W1C bits cleared, and what the word does. The mailbox acts after
the whole packet (R363). -/
def Dev.liveWord (d : Dev) (so word : Nat) (v : Word) : Dev :=
  let d := d.liveNote so word
  let old := regWord d.regs so word
  let m := storeMask so word
  let new := (old &&& ~~~ m ||| v &&& m) &&& ~~~ d.w1cClears so word v
  if so = 0x0802 then
    let forced := decide ((old ^^^ new) &&& 7 ≠ 0)
    let d := { d with regs := regSetWord d.regs so word ((new &&& ~~~ 7) ||| (old &&& 7)) }
    let d := if v.getLsbD 25 then d.legClear word else d
    if forced then d.legForce word (v.getLsbD 2) (v.getLsbD 1) (v.getLsbD 0) else d
  else
    let d := { d with regs := regSetWord d.regs so word new }
    let d := if so = 0x0006 && word = 4 && (v.toNat % 65536 == 65535) then d.wr F.sysTPeak (BitVec.ofInt 16 d.dieTemp).toNat else d
    if so = 0x0D10 then d else d.wordActs so word (v &&& m)

/-! ## Refusals of a live write -/

/-- The bit that the word's own chapter bars from writing now (R7, R80, R319): CLK.EN, and the compares of a leg driven by a slot. -/
def Dev.liveBarred (d : Dev) (so word : Nat) (v : Word) : Option Nat :=
  if so = 0x0084 then (if d.mode != .service || (!v.getLsbD 1 && !mayStop word) then some 1 else none)
  else if so = 0x0801 && word % 3 = 1 then (if d.on F.legSrc (word / 3) then none else some 0)
  else none

/-- A word whose write the mode refuses (R331, R440). -/
def Dev.liveWrongMode (d : Dev) (so word : Nat) (v : Word) : Bool :=
  if so = 0x0802 then (d.mode != .service && d.mode != .calibrate && (regWord d.regs so word ^^^ v) &&& 7 != 0)
  else so = 0x1002 && d.mode == .snuffed

/-- The authority a word needs in a live write (R114, R214, R303): Operate where it holds W1C fields alone. -/
def liveAuth (so word : Nat) (v : Word) : Nat :=
  if so = 0x0302 && word = 5 then authM
  else if so = 0x0910 && word = 2 && v.getLsbD 31 then authM
  else if storeMask so word = 0 then authP
  else authC

/-- Whether an SO holds a staged word while a commit is armed (R132). -/
def Dev.armedSo (d : Dev) (so : Nat) : Bool := d.on F.stgArmed && d.basket.words.any fun e => e.1 / 65536 == so

/-- The first word of some objects that an armed commit bars (R132). -/
def Dev.armedRefusal (d : Dev) (ws : List (Nat × Nat)) : Option HRes :=
  (ws.find? fun x => d.armedSo x.1).map fun x => refuseAt stCommitArmed x.1 x.2 0xFF 0x34 d

/-- Whether the words of a live write change FLT.EVC_ARM (R419; log entry 41). -/
def Dev.movesEvc (d : Dev) (es : List (Nat × Nat × Word)) : Bool :=
  es.any fun e => e.1 == 0x0F04 && e.2.1 == 0 && e.2.2.getLsbD 25 != d.on F.fltEvcArm

/-- The words of a live write: object, word, value. -/
def liveEntries (so first : BitVec 16) (values : List Word) : List (Nat × Nat × Word) :=
  values.zipIdx.map fun x => (so.toNat, first.toNat + x.2, x.1)

/-- The authority of a live write: the highest that a word needs, and that of the Basket where it writes FLT.EVC_ARM (R419). -/
def liveNeed (so first : BitVec 16) (values : List Word) : OpNeed :=
  let es := liveEntries so first values
  { auth := (es.map fun e => liveAuth e.1 e.2.1 e.2.2).foldl max authP
    more := fun d => if d.movesEvc es then d.rd F.stgNeedAuth else 0
    reply := rangeReply (BitVec.ofNat 16 values.length) 4 }

/-- What a live write of words does, in order; the mailbox acts after the whole packet (R363). -/
def Dev.liveWords (d : Dev) (es : List (Nat × Nat × Word)) : Dev :=
  let done := es.foldl (fun d e => d.liveWord e.1 e.2.1 e.2.2) d
  if es.any fun e => e.1 == 0x0D10 && e.2.1 == 3 then done.mailbox else done

/-- The refusals of a live write (R7, R8, R101), in the order of R100. -/
def Dev.liveRefusals (d : Dev) (c : Ctx) (so first : BitVec 16) (values : List Word) : List (Option HRes) :=
  let n := values.length
  let es := liveEntries so first values
  let ws := es.map fun e => (e.1, e.2.1)
  let clear (e : Nat × Nat × Word) : Bool :=
    e.1 == 0x0910 && e.2.1 == 2 && e.2.2.getLsbD 31 && decide (d.cellSlots ≤ e.2.2.toNat % 128)
  [d.anyAbsent ws, (es.find? clear).map fun e => refuseAt stUnitAbsent e.1 e.2.1 0 0 d, rangeExists so.toNat first.toNat n d,
      refuseIf (n = 0) stBadParam 0x92 d,
      refuseBits (reservedSet es) stReservedSet d,
      refuseWord ws (fun x => liveMask x.1 x.2 == 0) stAccessRefused d,
      es.findSome? fun e => (d.liveBarred e.1 e.2.1 e.2.2).map fun bit => refuseAt stAccessRefused e.1 e.2.1 bit 0 d,
      refuseIf (d.movesEvc es && d.rd F.stgOwner != c.ticket.session) stBasketOwned 0 d,
      d.armedRefusal ws,
      (es.find? fun e => d.liveWrongMode e.1 e.2.1 e.2.2).map fun e => refuseAt stWrongMode e.1 e.2.1 0xFF 0 d]

/-- WRITE_LIVE: whole words, all or nothing. -/
def hWriteLive (so first : BitVec 16) (values : List Word) : Handler := fun c d =>
  let done := d.liveWords (liveEntries so first values)
  orRefuse (d.liveRefusals c so first values)
    (.reply stOk (natsBytes (done.readRange so.toNat first.toNat values.length)) done)

/-- A live write of some words as a packet. -/
def liveRow (t : Nat) (src : Src) (h : Hdr) (so first : BitVec 16) (values : List Word) (s : State) :
    Host.Outcome State Fault Refusal :=
  opcodeLen true 0x38 t src h (rangeParams so first (BitVec.ofNat 16 values.length) ++ wordsBytes values)
    (liveNeed so first values) (hWriteLive so first values) s

/-! ## Live tuning (R274, R275) -/

/-- A loop slot that the variant lacks (R2, R256), named by its first word. -/
def Dev.slotAbsent (d : Dev) (slots : List Nat) : Option HRes :=
  (slots.find? fun s => decide (d.loopSlots ≤ s)).map fun s =>
    if s < 256 then refuseAt stUnitAbsent (0x0600 + s) 0 0xFF 0 d else refuse stUnitAbsent 0 d

/-- The refusals of a tuning write, in the order of R100: words 0 to 4 are barred, and so is a word that holds no RW field. -/
def Dev.tuneRefusals (d : Dev) (entries : List (Nat × Nat × Word)) : List (Option HRes) :=
  let es := entries.map fun e => (0x0600 + e.1, e.2.1, e.2.2)
  let ws := es.map fun e => (e.1, e.2.1)
  [d.slotAbsent (entries.map (·.1)),
   (ws.find? fun x => decide (40 ≤ x.2)).map fun x => refuseAt stBadParam x.1 40 0xFF 0x90 d,
   refuseBits (reservedSet es) stReservedSet d,
   refuseWord ws (fun x => decide (x.2 < 5) || liveMask x.1 x.2 == 0) stAccessRefused d,
   d.armedRefusal ws]

/-- The LOOP.EVAL_COUNT of the first evaluation that latches after the CTRL cycle in hand (R274). -/
def Dev.nextCount (d : Dev) (slot : Nat) : Nat :=
  ((d.engineTo (d.now / 16 * 16 + 15)).rd F.loopEvalCount slot + 1) % 2 ^ 32

/-- The entries of a tuning write in order, one in an MGMT cycle of 32 fine ticks (R275): the evaluation count for each, and the block
after the last. -/
def tuneAll : List (Nat × Nat × Word) → Dev → List Nat × Dev
  | [], d => ([], d)
  | (slot, word, v) :: t, d =>
    let d := d.liveWord (0x0600 + slot) word v
    let r := tuneAll t (if t.isEmpty then d else d.advance (d.now + 32))
    (d.nextCount slot :: r.1, r.2)

/-- TUNE_WORD and TUNE_WORDS: all or nothing (R101), then entry by entry. -/
def hTune (entries : List (Nat × Nat × Word)) : Handler := fun _ d =>
  let r := tuneAll entries d
  orRefuse (d.tuneRefusals entries) (.reply stOk (natsBytes r.1) r.2)

/-- TUNE_READ. -/
def hTuneRead (slot : BitVec 16) : Handler := fun _ d =>
  let n := slot.toNat
  orRefuse [d.slotAbsent [n]] (.reply stOk (natsBytes (d.readRange (0x0600 + n) 0 40)) d)

/-! ## The rows -/

/-- WRITE_LIVE: at most 1,018 values fit a packet. -/
def execWriteLive (t : Nat) (src : Src) (h : Hdr) (so first : BitVec 16) (values : List Word) (s : State) :
    Host.Outcome State Fault Refusal :=
  liveRow t src h so first values s

/-- TUNE_WORD. -/
def execTuneWord (t : Nat) (src : Src) (h : Hdr) (slot word : BitVec 16) (value : Word) (s : State) :
    Host.Outcome State Fault Refusal :=
  opcode 0x50 t src h (le 2 slot.toNat ++ le 2 word.toNat ++ wordBytes value) { auth := authC }
    (hTune [(slot.toNat, word.toNat, value)]) s

/-- TUNE_WORDS: 1 to 8 entries. -/
def execTuneWords (t : Nat) (src : Src) (h : Hdr) (entries : List (BitVec 16 × BitVec 16 × Word)) (s : State) :
    Host.Outcome State Fault Refusal :=
  opcodeLen (!entries.isEmpty && decide (entries.length ≤ 8)) 0x51 t src h
    (entries.flatMap fun e => le 2 e.1.toNat ++ le 2 e.2.1.toNat ++ wordBytes e.2.2) { auth := authC }
    (hTune (entries.map fun e => (e.1.toNat, e.2.1.toNat, e.2.2))) s

/-- TUNE_READ. -/
def execTuneRead (t : Nat) (src : Src) (h : Hdr) (slot : BitVec 16) (s : State) : Host.Outcome State Fault Refusal :=
  opcode 0x52 t src h (le 2 slot.toNat ++ zeros 2) {} (hTuneRead slot) s

/-- SET_NET (R214): words 4 and 5 of SO 0x0302. -/
def execSetNet (t : Nat) (src : Src) (h : Hdr) (lo hi : Word) (s : State) : Host.Outcome State Fault Refusal :=
  liveRow t src h 0x0302 4 [lo, hi] s

/-- ACCEPT_NEXT (R214). -/
def execAcceptNext (t : Nat) (src : Src) (h : Hdr) (value : Word) (s : State) : Host.Outcome State Fault Refusal :=
  liveRow t src h 0x0303 2 [value] s

/-- MAILBOX_WRITE (R363): a live write from word 0 of the mailbox on. -/
def execMailboxWrite (t : Nat) (src : Src) (h : Hdr) (words : List Word) (s : State) : Host.Outcome State Fault Refusal :=
  liveRow t src h 0x0D10 0 words s

/-- LEG_TRIPPED_CLEAR (R329): the force fields written as they stand. -/
def execLegTrippedClear (t : Nat) (src : Src) (h : Hdr) (leg : Fin 12) (s : State) : Host.Outcome State Fault Refusal :=
  liveRow t src h 0x0802 (BitVec.ofNat 16 leg) [0x02000000 ||| (regWord s.dev.regs 0x0802 leg &&& 7)] s

/-- LEG_COMPARE_WRITE (R319). -/
def execLegCompareWrite (t : Nat) (src : Src) (h : Hdr) (leg : Fin 12) (cmpA cmpB : BitVec 16) (s : State) :
    Host.Outcome State Fault Refusal :=
  liveRow t src h 0x0801 (BitVec.ofNat 16 (3 * leg + 1)) [cmpA ++ cmpB] s

/-- LEG_FORCE (R331). -/
def execLegForce (t : Nat) (src : Src) (h : Hdr) (leg : Fin 12) (en gh gl : Bool) (s : State) :
    Host.Outcome State Fault Refusal :=
  liveRow t src h 0x0802 (BitVec.ofNat 16 leg) [BitVec.ofNat 32 (4 * flag en + 2 * flag gh + flag gl)] s

/-- CKPT_NOW (R305). -/
def execCkptNow (t : Nat) (src : Src) (h : Hdr) (value : Word) (s : State) : Host.Outcome State Fault Refusal :=
  liveRow t src h 0x0910 1 [value] s

/-- LEDGER_CLR (R303). -/
def execLedgerClr (t : Nat) (src : Src) (h : Hdr) (value : Word) (s : State) : Host.Outcome State Fault Refusal :=
  liveRow t src h 0x0910 2 [value] s

/-- LVC_CLOSE (R440). -/
def execLvcClose (t : Nat) (src : Src) (h : Hdr) (value : Word) (s : State) : Host.Outcome State Fault Refusal :=
  liveRow t src h 0x1002 0 [value] s

/-- EVC_ARM (R419). -/
def execEvcArm (t : Nat) (src : Src) (h : Hdr) (value : Word) (s : State) : Host.Outcome State Fault Refusal :=
  liveRow t src h 0x0F04 0 [value] s

/-- CLK_EN (R80). -/
def execClkEn (t : Nat) (src : Src) (h : Hdr) (output : Fin 12) (value : Word) (s : State) : Host.Outcome State Fault Refusal :=
  liveRow t src h 0x0084 (BitVec.ofNat 16 output) [value] s

/-- ACQ_CLEAR (R491). -/
def execAcqClear (t : Nat) (src : Src) (h : Hdr) (value : Word) (s : State) : Host.Outcome State Fault Refusal :=
  liveRow t src h 0x1305 0 [value] s

/-- ACQ_CLEAR_DONE (R491): samples that arrived meanwhile count after the clear. -/
def execAcqClearDone (t : Nat) (s : State) : Host.Outcome State Fault Refusal :=
  event t s fun d => { d with acq := { d.acq with clearing := 0 } }

end Sys2Proof.Machine
end

