-- ==== Sys2Proof/Machine/Mem.lean ====
section
/-!
DEFINITION. Machine/Mem.lean: DRAM pages and the SRAM test window with their codes, scrubbing, self-refresh, and the opcodes
MEM_STATUS, MEM_READ, MEM_WRITE and ECC_TEST_WRITE (chapter 18).
-/
namespace Sys2Proof.Machine

/-! ## DRAM pages (R453, R454) -/

/-- The check bytes of a strength code (R454). -/
def bchCount (strength : Nat) : Nat :=
  match strength with | 0 => 14 | 1 => 28 | 2 => 42 | _ => 56

/-- The bits a strength code corrects (R454). -/
def bchBits (strength : Nat) : Nat := 8 * (strength + 1)

/-- The descriptor byte of a page (R453). -/
def descriptor (tag strength : Nat) : Nat := tag + 16 * strength

/-- The check bytes of a page's data, descriptor and number (R454, log entry 12). -/
def bchCheck (data : Bytes) (desc page : Nat) : Bytes :=
  (List.range (bchCount (desc / 16 % 4))).map (Config.bchByte data desc page)

/-- The spare of a page as it is written (R453). -/
def spareOf (data : Bytes) (desc page : Nat) : Bytes :=
  padTo 56 (bchCheck data desc page) ++ List.replicate 3 (BitVec.ofNat 8 desc) ++ zeros 5

/-- The bitwise majority of three bytes (R454). -/
def majority (a b c : Nat) : Nat := (a &&& b) ||| (a &&& c) ||| (b &&& c)

/-- How a page reads (R454, R456). -/
inductive PageRead where
  | unwritten
  | clean (data : Bytes)
  | corrected (data : Bytes) (bits : Nat)
  | bad (tag : Nat)
deriving DecidableEq, Repr

/-- The stored page decoded (R454): pages written whole carry their own check bits, a test may have changed them. -/
def decodePage (p : Page) (page : Nat) : PageRead :=
  if p.poisoned then .bad p.tag
  else if p.spare.isEmpty then .clean p.data
  else
    let desc := majority (byteAt p.spare 56) (byteAt p.spare 57) (byteAt p.spare 58)
    if 4 ≤ desc % 16 then .bad (desc % 16)
    else if p.spare.take (bchCount (desc / 16 % 4)) = bchCheck p.data desc page then .clean p.data
    else match Config.bchDecode p.data p.spare page with
      | some (data, bits) => .corrected (padTo 1024 data) (max 1 (min bits (bchBits (desc / 16 % 4))))
      | none => .bad (desc % 16)

/-- A page as stored; none where its bit of the written bitmap is clear (R456). -/
def Dev.page (d : Dev) (p : Nat) : Option Page := (d.mem.pages.find? fun e => e.1 == p).map (·.2)

/-- What a page reads as. -/
def Dev.peekPage (d : Dev) (p : Nat) : PageRead :=
  match d.page p with
  | some x => decodePage x p
  | none => .unwritten

/-- Store a page. -/
def Dev.putPage (d : Dev) (p : Nat) (x : Page) : Dev :=
  { d with mem := { d.mem with pages := tset (fun _ => {}) d.mem.pages p x } }

/-- Corrected errors of a page counted (R457). -/
def Dev.dramCorrected (d : Dev) (bits : Nat) : Dev :=
  (((d.noteCorrected bits).bump F.memDCorrPages).bumpBy F.memDCorrBits bits).raise 0xAA

/-- A page found uncorrectable is poisoned, once (R458, log entry 44). -/
def Dev.dramPoison (d : Dev) (p tag : Nat) : Dev :=
  match d.page p with
  | some x =>
    if x.poisoned then d.bump F.memDUncorr
    else
      let list := ({ page := p, tag := tag, at_ := d.now } :: d.mem.poison).take 32
      let d := { d with mem := { d.mem with poison := list } }.putPage p { x with poisoned := true, tag := tag }
      (d.bump F.memDUncorr).raise 0xAB
  | none => d

/-- A read of a page by MEM_READ (R40, R456 to R458): what it gives, and its counts. -/
def Dev.readPage (d : Dev) (p : Nat) : PageRead × Dev :=
  let r := d.peekPage p
  let awake := d.wr F.memSelfRef 0
  match r with
  | .unwritten => (r, d.bump F.memUnwrittenReads)
  | .clean _ => (r, awake)
  | .corrected _ bits => (r, awake.dramCorrected bits)
  | .bad tag => (r, awake.dramPoison p tag)

/-! ## The SRAM test window (R449, R451) -/

/-- A word of the window: data and check byte. -/
def Dev.windowWord (d : Dev) (w : Nat) : BitVec 64 × Byte := tget (fun _ => (0, Config.secded 0)) d.mem.window w

/-- The bank and word of the SRAM a window word is. -/
def windowAt (w : Nat) : Nat × Nat := (95, 15872 + w)

/-- The canonical form of the memories: page and word numbers strictly rising, no page listed that is as an unwritten one; a
listed word of the window is one that has been written, whatever it holds (R462 tells it from one never written). -/
def Memory.wf (m : Mem) : Bool :=
  twf (fun _ => ({} : Page)) m.pages && twf (fun _ => none) (m.window.map fun e => (e.1, some e.2))

/-- Write a word of the window: any poison goes (R449). -/
def Dev.setWindow_ (d : Dev) (w : Nat) (data : BitVec 64) (check : Byte) : Dev :=
  { d with mem := { d.mem with
      window := tins d.mem.window w (data, check), sramPoison := d.mem.sramPoison.filter (· != windowAt w) } }

/-- Read a word of the window (R449): the data, whether it was corrected. -/
def Dev.readWindow (d : Dev) (w : Nat) : BitVec 64 × Bool × Dev :=
  let x := d.windowWord w
  if d.mem.sramPoison.contains (windowAt w) then (0, false, d.bump F.memSUncorr)
  else if x.2 = Config.secded x.1 then (x.1, false, d)
  else match Config.secdedDecode x.1 x.2 with
    | some v => (v, true, (d.setWindow_ w v (Config.secded v)).sramCorrected 95)
    | none =>
      (0, false, { d with mem := { d.mem with sramPoison := windowAt w :: d.mem.sramPoison } }.sramUncorrectable 95)

/-- Bytes of the window from an offset: each word read whole; whether one was corrected. -/
def Dev.readWindowRange (d : Dev) (offset n : Nat) : Bytes × Bool × Dev :=
  let first := offset / 8
  let words := (List.range ((offset + n + 7) / 8 - first)).map (first + ·)
  let all := words.foldl (fun (acc : Bytes × Bool × Dev) w =>
    let (v, c, d) := acc.2.2.readWindow w
    (acc.1 ++ le 8 v.toNat, acc.2.1 || c, d)) ([], false, d)
  ((all.1.drop (offset % 8)).take n, all.2.1, all.2.2)

/-- Write bytes into the window: whole words, merged where a word is written in part. -/
def Dev.writeWindowRange (d : Dev) (offset : Nat) (bytes : Bytes) : Dev :=
  let first := offset / 8
  let n := bytes.length
  let count := (offset + n + 7) / 8 - first
  let (old, _, d) := d.readWindowRange (8 * first) (8 * count)
  let new := old.take (offset % 8) ++ bytes ++ old.drop (offset % 8 + n)
  (List.range count).foldl (fun d i =>
    let v : BitVec 64 := BitVec.ofNat 64 (leAt new (8 * i) 8)
    d.setWindow_ (first + i) v (Config.secded v)) d

/-! ## MEM_STATUS, MEM_READ, MEM_WRITE (R457, R459, R472) -/

/-- MEM_STATUS. -/
def hMemStatus : Handler := fun _ d =>
  .reply stOk (natsBytes (d.readRange 0x1102 0 5 ++ d.readRange 0x1103 0 8)) d

/-- Whether an address names the SRAM test window. -/
def sramAddr (a : Nat) : Bool := a.testBit 63

/-- The offset or data address of bits [62:0]. -/
def memOffset (a : Nat) : Nat := a % 2 ^ 63

/-- What refuses a range of memory (R452, R459). -/
def Dev.memRefusals (d : Dev) (a n : Nat) : List (Option HRes) :=
  let o := memOffset a
  let top := if sramAddr a then 4096 else d.rd F.memDataPages * 1024
  [refuseIf (!sramAddr a && !d.hasDram) stUnitAbsent 0 d, refuseIf (n = 0) stBadParam 0x92 d,
   refuseIf (decide (top < o + n) || decide (1024 < o % 1024 + n)) stBadParam 0x80 d]

/-- The page status of R459 before the bytes of a read. -/
def pageBytes (status : Nat) (data : Bytes) (o n : Nat) : Bytes := le 4 status ++ (data.drop (o % 1024)).take n

/-- The reply of a read of DRAM bytes; a poisoned page is refused with a reason. -/
def Dev.dramReply (d : Dev) (page o n reason : Nat) : HRes :=
  let (r, d) := d.readPage page
  match r with
  | .unwritten => .reply stOk (pageBytes 2 (zeros 1024) o n) d
  | .clean data => .reply stOk (pageBytes 0 data o n) d
  | .corrected data _ => .reply stOk (pageBytes 1 data o n) d
  | .bad _ => refuse stMemoryError reason d

/-- MEM_READ. -/
def hMemRead (address : BitVec 64) (length : BitVec 16) : Handler := fun _ d =>
  let a := address.toNat
  let o := memOffset a
  let n := length.toNat
  orRefuse (d.memRefusals a n)
    (if sramAddr a then
       let (bs, c, d) := d.readWindowRange o n
       .reply stOk (le 4 (flag c) ++ bs) d
     else d.dramReply (o / 1024) o n 0)

/-- Lantern's streaming region while it is armed (R459, R486). -/
def Dev.inLantern (d : Dev) (page : Nat) : Bool :=
  d.acq.armed && d.on F.acqStore && decide (d.rd F.acqBaseMib * 1024 ≤ page)
    && decide (page < (d.rd F.acqBaseMib + d.rd F.acqSizeMib) * 1024)

/-- A whole page written over a poisoned one clears its poison (R457). -/
def Dev.clearPoison (d : Dev) (page : Nat) : Dev :=
  let was := match d.page page with | some x => x.poisoned | none => false
  if was then
    let list := d.mem.poison.map fun p => if p.page = page then { p with cleared := true } else p
    { d with mem := { d.mem with poison := list } }.raise 0xB4
  else d

/-- A write of part of a page (R457). -/
def Dev.partialWrite (d : Dev) (page o : Nat) (bytes : Bytes) : HRes :=
  let merge (data : Bytes) : Bytes := data.take (o % 1024) ++ bytes ++ data.drop (o % 1024 + bytes.length)
  match d.peekPage page with
  | .unwritten => okEmpty (d.writePage page 0 (merge (zeros 1024)))
  | .clean data => okEmpty (d.writePage page 0 (merge data))
  | .corrected data bits => okEmpty ((d.dramCorrected bits).writePage page 0 (merge data))
  | .bad tag => refuse stMemoryError 0x83 (((d.dramPoison page tag).bump F.memPartialRefused).raise 0xAC)

/-- MEM_WRITE: in SERVICE only. -/
def hMemWrite (address : BitVec 64) (bytes : Bytes) : Handler := fun _ d =>
  let a := address.toNat
  let o := memOffset a
  let page := o / 1024
  orRefuse (d.memRefusals a bytes.length
      ++ [refuseIf (d.mode ≠ .service) stWrongMode 0 d,
          refuseIf (!sramAddr a && d.chunksHeld.contains (page / 1024)) stBadParam 0x81 d,
          refuseIf (!sramAddr a && d.inLantern page) stBadParam 0x82 d])
    (if sramAddr a then okEmpty (d.writeWindowRange o bytes)
     else if bytes.length = 1024 then okEmpty ((d.clearPoison page).writePage page 0 bytes)
     else d.partialWrite page o bytes)

/-! ## ECC_TEST_WRITE (R462) -/

/-- Record test locations; scrubbing pauses. -/
def Dev.recordTests (d : Dev) (ks : List Nat) : Dev :=
  { d with mem := { d.mem with tests := d.mem.tests ++ ks.filter fun k => !d.mem.tests.contains k } }.wr F.memScrubPaused 1

/-- One word of the window with one half kept; a word never written keeps zeros. -/
def Dev.testWord (d : Dev) (w : Nat) (data : Option (BitVec 64)) (check : Option Byte) : Dev :=
  let old : BitVec 64 × Byte := tget (fun _ => (0, 0)) d.mem.window w
  d.setWindow_ w (data.getD old.1) (check.getD old.2)

/-- One DRAM page with one half kept; a page never written keeps zeros. -/
def Dev.testPage (d : Dev) (p : Nat) (data spare : Option Bytes) : Dev :=
  let (oldData, oldSpare) := match d.page p with
    | some x => (x.data, if x.spare.isEmpty then spareOf x.data (descriptor x.tag x.strength) p else x.spare)
    | none => (zeros 1024, zeros 64)
  let sp := spare.getD oldSpare
  let desc := majority (byteAt sp 56) (byteAt sp 57) (byteAt sp 58)
  d.putPage p { data := data.getD oldData, spare := sp, tag := desc % 16, strength := desc / 16 % 4, test := true }

/-- ECC_TEST_WRITE: in SERVICE only. -/
def hEccTestWrite (address checkBits : BitVec 64) (data : Bytes) : Handler := fun _ d =>
  let a := address.toNat
  let sram := sramAddr a
  let checks := a.testBit 62
  let o := a % 2 ^ 62
  let n := data.length
  let top := if sram then 4096 else d.rd F.memDataPages * 1024
  let size := if sram then n else 1024
  let badLength := if sram then n = 0 || n % 8 != 0 || 64 < n else n != (if checks then 64 else 1024)
  let unit := if sram then 8 else 1024
  let ks := if sram then (List.range (n / 8)).map fun i => sramTest (o / 8 + i) else [o / 1024]
  let full := decide (64 < (d.mem.tests ++ ks.filter fun k => !d.mem.tests.contains k).length)
  let done := if sram then
      (List.range (n / 8)).foldl (fun d i =>
        if checks then d.testWord (o / 8 + i) none (some (BitVec.ofNat 8 (checkBits.toNat / 256 ^ i)))
        else d.testWord (o / 8 + i) (some (BitVec.ofNat 64 (leAt data (8 * i) 8))) none) d
    else if checks then d.testPage (o / 1024) none (some data) else d.testPage (o / 1024) (some data) none
  orRefuse [refuseIf badLength stBadLength 0 d, refuseIf (!sram && !d.hasDram) stUnitAbsent 0 d,
      refuseIf (o % unit != 0 || (!(sram && checks) && checkBits != 0)) stBadParam 0x92 d,
      refuseIf (decide (top < o + size)) stBadParam 0x80 d,
      refuseIf (d.mode ≠ .service) stWrongMode 0 d, refuseIf full stBadParam 0x84 d]
    (okEmpty (done.recordTests ks))

/-! ## Scrubbing (R460, R461) and self-refresh (R40) -/

/-- One scrub read of the SRAM (R449, R460). -/
def Dev.sramScrub (d : Dev) (bank word : Nat) (o : EccOutcome) (overwritten passDone : Bool) : Dev :=
  if d.on F.memScrubPaused then d
  else
    let cancel (d : Dev) : Dev := if overwritten then d.bump F.memScrubCancelled else d
    let d := match o with
      | .clean => d
      | .corrected _ => cancel (d.sramCorrected bank)
      | .uncorrectable =>
        if d.mem.sramPoison.contains (bank, word) then d.bump F.memSUncorr
        else
          let d := cancel (d.sramUncorrectable bank)
          if overwritten then d else { d with mem := { d.mem with sramPoison := (bank, word) :: d.mem.sramPoison } }
    if passDone then (d.wr F.memSpassAt (d.now / 2 ^ 32)).raise 0xAE else d

/-- SRAM_SCRUB_STEP: a bank has 16,384 words. -/
def execSramScrubStep (t : Nat) (bank : Fin 96) (word : Fin 16384) (outcome : EccOutcome) (overwritten passDone : Bool)
    (s : State) : Host.Outcome State Fault Refusal :=
  event t s fun d => d.sramScrub bank word outcome overwritten passDone

/-- The scrubber has read one more page; the last one of a pass (R460). -/
def Dev.scrubCount (d : Dev) (passDone : Bool) : Dev :=
  if passDone then
    ({ d with mem := { d.mem with passFrom := d.up, passDone := 0 } }.wr F.memDpassAt (d.now / 2 ^ 32)).raise 0xAF
  else { d with mem := { d.mem with passDone := d.mem.passDone + 1 } }

/-- One step of the DRAM scrubber (R458, R460, R461): an unwritten page is skipped without an access; once the lag is 0 a scrubber that
woke the device is done. -/
def Dev.dramScrub (d : Dev) (page : Nat) (o : EccOutcome) (overwritten passDone : Bool) : Dev :=
  if d.on F.memScrubPaused || !d.hasDram || d.on F.memSelfRef then d
  else
    let cancel (d : Dev) : Dev := if overwritten then d.bump F.memScrubCancelled else d
    let d := match d.page page, o with
      | none, _ => if passDone then d.scrubCount true else d
      | some _, .clean => d.scrubCount passDone
      | some _, .corrected bits => cancel ((d.scrubCount passDone).dramCorrected bits)
      | some x, .uncorrectable =>
        let d := d.scrubCount passDone
        if overwritten then d.bump F.memScrubCancelled else d.dramPoison page x.tag
    { d with mem := { d.mem with draining := d.mem.draining && decide (0 < d.scrubLag) } }

/-- DRAM_SCRUB_STEP: data pages are numbered in 23 bits. -/
def execDramScrubStep (t : Nat) (page : Fin 8388608) (outcome : EccOutcome) (overwritten passDone : Bool) (s : State) :
    Host.Outcome State Fault Refusal :=
  event t s fun d => d.dramScrub page outcome overwritten passDone

/-- DRAM_SCRUB_WAKE (R461): the lag has reached MEM.DSCRUB_BATCH in self-refresh. -/
def execDramScrubWake (t : Nat) (s : State) : Host.Outcome State Fault Refusal :=
  event t s fun d =>
    if d.on F.memSelfRef && decide (d.rd F.memDscrubBatch ≤ d.scrubLag) then
      { d with mem := { d.mem with draining := true } }.wr F.memSelfRef 0
    else d

/-- DRAM_SELF_REFRESH (R40): 10 ms with no access of a queue or of Lantern; while the scrubber catches up the device stays awake. -/
def execDramSelfRefresh (t : Nat) (s : State) : Host.Outcome State Fault Refusal :=
  event t s fun d =>
    if d.hasDram && !d.mem.draining && d.spent d.mem.lastAccess (10 * ticksMs) then d.wr F.memSelfRef 1 else d

/-! ## Queue spill read back (R463, R467) -/

/-- Mark every entry of a queue with whether it lies in the page being refilled: the SRAM spill's first 16, else the first
Cooler page. -/
def Queue.refillMarks (q : Queue) : List (QEnt × Bool) :=
  let n := q.head.length
  let len := if q.sram.isEmpty then (match q.cooler with | p :: _ => p.2.length | [] => 0) else min 16 q.sram.length
  q.entries.zipIdx.map fun x => (x.1, decide (n ≤ x.2) && decide (x.2 < n + len))

/-- The marks widened to whole packets: an entry goes when any entry of its packet is marked. -/
def packetMarks : List (QEnt × Bool) → List Bool → Bool → List Bool
  | [], held, hit => held.map fun _ => hit
  | (e, m) :: t, held, hit =>
    if e.last then (held ++ [false]).map (fun _ => hit || m) ++ packetMarks t [] false
    else packetMarks t (held ++ [false]) (hit || m)

/-- The entries of a list whose marks are clear, with what is left of the marks. -/
def keepBy (es : List QEnt) (ms : List Bool) : List QEnt × List Bool :=
  (((es.zip ms).filter fun x => !x.2).map (·.1), ms.drop es.length)

/-- Every packet with an entry in a poisoned spill page is dropped whole (R467). -/
def Dev.dropPoisoned (d : Dev) (q : Nat) : Dev :=
  let x := d.queue q
  let ms := packetMarks x.refillMarks [] false
  let lost := ((x.entries.zip ms).filter fun e => e.2 && e.1.last).length
  let (head, ms) := keepBy x.head ms
  let (sram, ms) := keepBy x.sram ms
  let (cooler, ms) := x.cooler.foldl (fun (acc : List (Nat × List QEnt) × List Bool) p =>
    let (es, left) := keepBy p.2 acc.2
    (acc.1 ++ [(p.1, es)], left)) ([], ms)
  let (tail, _) := keepBy x.tail ms
  let cooler := cooler.filter fun p => !p.2.isEmpty
  let chunks := x.chunks.filter fun c => cooler.any fun p => p.1 / 1024 == c
  let new : Queue := { head := head, sram := sram, cooler := cooler, tail := tail, chunks := chunks }
  ((d.setQueue q new.settle).bumpBy F.queLostPkts lost q).raise 0xB1

/-- A head with 16 free entries refills by one page (R463). -/
def Dev.refill (d : Dev) (q : Nat) (o : EccOutcome) : Dev :=
  let x := d.queue q
  if !x.head.isEmpty || (x.sram.isEmpty && x.cooler.isEmpty) then d
  else if x.sram.isEmpty then
    match x.cooler with
    | [] => d
    | (p, es) :: rest =>
      let chunks := if rest.any (fun y => y.1 / 1024 == p / 1024) then x.chunks else x.chunks.filter (· != p / 1024)
      let d := d.dramUsed
      let moved := d.setQueue q ({ x with head := es, cooler := rest, chunks := chunks } : Queue).settle
      match o with
      | .clean => moved
      | .corrected bits => moved.dramCorrected bits
      | .uncorrectable => (d.dramPoison p 1).dropPoisoned q
  else
    let moved := d.setQueue q ({ x with head := x.sram.take 16, sram := x.sram.drop 16 } : Queue).settle
    match o with
    | .clean => moved
    | .corrected _ => moved.sramCorrected 94
    | .uncorrectable => (d.sramUncorrectable 94).dropPoisoned q

/-- QUEUE_HEAD_REFILL (R463, R458, R467). -/
def execQueueHeadRefill (t : Nat) (queue : Fin 64) (outcome : EccOutcome) (s : State) : Host.Outcome State Fault Refusal :=
  event t s fun d => d.refill queue outcome

/-! ## The rows -/

/-- MEM_STATUS. -/
def execMemStatus (t : Nat) (src : Src) (h : Hdr) (s : State) : Host.Outcome State Fault Refusal :=
  opcode 0xB0 t src h [] {} hMemStatus s

/-- MEM_READ. -/
def execMemRead (t : Nat) (src : Src) (h : Hdr) (address : BitVec 64) (length : BitVec 16) (s : State) :
    Host.Outcome State Fault Refusal :=
  opcode 0xB1 t src h (le 8 address.toNat ++ le 2 length.toNat ++ zeros 2) { auth := authM } (hMemRead address length) s

/-- MEM_WRITE: at most 4,068 bytes fit a packet. -/
def execMemWrite (t : Nat) (src : Src) (h : Hdr) (address : BitVec 64) (bytes : List Byte) (s : State) :
    Host.Outcome State Fault Refusal :=
  opcodeLen true 0xB2 t src h (le 8 address.toNat ++ le 2 bytes.length ++ zeros 2 ++ bytes) { auth := authM }
    (hMemWrite address bytes) s

/-- ECC_TEST_WRITE: at most 4,064 bytes fit a packet. -/
def execEccTestWrite (t : Nat) (src : Src) (h : Hdr) (address checkBits : BitVec 64) (bytes : List Byte) (s : State) :
    Host.Outcome State Fault Refusal :=
  opcodeLen true 0xB3 t src h (le 8 address.toNat ++ le 8 checkBits.toNat ++ bytes) { auth := authM }
    (hEccTestWrite address checkBits bytes) s

end Sys2Proof.Machine
end

