-- ==== Sys2Proof/Machine/Acq.lean ====
section
/-!
DEFINITION. Machine/Acq.lean: Lantern (chapter 19): samples, trigger stages, segments and their drain, histograms and
Afterglow, and the opcodes of the 0xC_ group.
-/
namespace Sys2Proof.Machine

/-! ## Channels (R478) -/

/-- The level in force on a target of a cell at an instant, from the entries sent (R478 kind 3). -/
def levelInForce (c : Cell) (target : Nat) (now : Nat) : Nat :=
  let leg := match target with | 0 => tgLegA | 1 => tgLegB | 2 => tgPri | _ => tgSec
  let held := match target with | 0 => c.legA.level | 1 => c.legB.level | 2 => c.pri.level | _ => c.sec.level
  let mine := c.edges.filter fun x => decide (x.at_ ≤ (now : Int)) && (x.leg == leg || (decide (target < 2) && x.leg == tgBridge))
  match (sortBy (fun x : Edge => x.at_) mine).getLast? with
  | some x =>
    if x.leg = tgBridge then (if target = 0 then (bridgeLegs x.level).1 else (bridgeLegs x.level).2) else x.level
  | none => held

/-- The value of a channel as it is published now (R478). -/
def Dev.chanValue (d : Dev) (c : Nat) : Nat :=
  let src := d.rd F.acqCSrc c
  let slot := src % 128
  let sel := src / 256 % 4
  match d.rd F.acqCKind c with
  | 0 => u32 (d.signal (src % 65536) d.now)
  | 1 => d.word (0x0700 + src / 256 % 256) (src % 32)
  | 2 => (match sel with
    | 0 => d.rd F.hmpCShare slot | 1 => d.rd F.hmpCTrim slot | 2 => d.rd F.hmpCScore slot | _ => d.rd F.hmpCKidx slot)
  | 3 => levelInForce (d.cell slot) sel d.now + 256 * flag ((d.cell slot).stage == 3)
  | _ => d.readWord 0x0802 (src % 16)

/-- A sample record: one word for each enabled channel, in channel order. -/
def Dev.sampleRecord (d : Dev) : List Word := d.acqChannels.map fun c => BitVec.ofNat 32 (d.chanValue c)

/-- A channel's value in a record; channels that are not enabled read 0. -/
def Dev.recordValue (d : Dev) (r : List Word) (c : Nat) : Int :=
  match (d.acqChannels.zip r).find? fun x => x.1 == c with
  | some x => x.2.toInt
  | none => 0

/-! ## Histograms and Afterglow (R489 to R491) -/

/-- One more in a bin or cell, saturating at a top; a first saturation of the unit raises its event. -/
def Dev.countBin (d : Dev) (unit key top source : Nat) : Dev :=
  let old := tget (fun _ => 0) d.acq.bins key
  if top ≤ old then d
  else
    let d := { d with acq := { d.acq with bins := tset (fun _ => 0) d.acq.bins key (old + 1) } }
    if old + 1 = top && !d.acq.saturated.contains unit then
      { d with acq := { d.acq with saturated := unit :: d.acq.saturated } }.raise source
    else d

/-- A sample into a histogram unit (R489). -/
def Dev.histSample (d : Dev) (u : Nat) (x : Int) : Dev :=
  if (d.rd F.acqHHold).testBit u then d.bump F.acqHoldMissed
  else
    let bin := Int.fdiv (x - s32 (d.rd F.acqHLo u)) (2 ^ d.rd F.acqHShift u)
    let d := if bin < 0 then d.bump F.acqHUnder u else if 4095 < bin then d.bump F.acqHOver u else d
    d.countBin u (u * 4096 + (clampI 0 4095 bin).toNat) 4294967295 0xC7

/-- Sample i of a segment into an Afterglow map (R490). -/
def Dev.glowSample (d : Dev) (m i : Nat) (x : Int) : Dev :=
  if (d.rd F.acqAHold).testBit m then d.bump F.acqHoldMissed
  else
    let row := (clampI 0 255 (Int.fdiv (x - s32 (d.rd F.acqALo m)) (2 ^ d.rd F.acqAShift m))).toNat
    let col := i * 256 / d.acqLen
    d.countBin (4 + m) (2 ^ 20 + m * 65536 + row * 256 + col) 65535 0xC8

/-- The enabled histogram units with a gate setting. -/
def Dev.histUnits (d : Dev) (gate : Bool) : List Nat :=
  (List.range 4).filter fun u => d.on F.acqHEn u && d.on F.acqHGate u == gate

/-- A sample counted by the units that count every sample while armed. -/
def Dev.countFree (d : Dev) (r : List Word) : Dev :=
  (d.histUnits false).foldl (fun d u => d.histSample u (d.recordValue r (d.rd F.acqHChan u))) d

/-- Sample i of a segment counted by the gated units and the maps. -/
def Dev.countInside (d : Dev) (i : Nat) (r : List Word) : Dev :=
  let d := (d.histUnits true).foldl (fun d u => d.histSample u (d.recordValue r (d.rd F.acqHChan u))) d
  if d.acqLevel < 2 then d
  else ((List.range 2).filter fun m => d.on F.acqAEn m).foldl (fun d m =>
    d.glowSample m i (d.recordValue r (d.rd F.acqAChan m))) d

/-! ## Segments (R483 to R487) -/

/-- A segment's header (R487). -/
def Dev.segHeader (d : Dev) (g : Seg) : Bytes :=
  let mask := d.acqChannels.foldl (fun m c => m + 2 ^ c) 0
  le 4 g.seq ++ le 4 g.index ++ le 8 g.at_ ++ le 8 g.firstAt ++ le 4 (d.rd F.acqPre) ++ le 4 g.preValid
    ++ le 4 g.records.length ++ le 2 mask
    ++ le 1 (flag g.overrun + 2 * flag g.trunc + 4 * d.rd F.acqStore) ++ le 1 g.kind ++ le 4 (d.rd F.acqDiv) ++ le 4 g.gen
    ++ le 4 g.word ++ zeros 12

/-- The header into queue 32, and the event of a complete segment (R487). -/
def Dev.queueHeader (d : Dev) (h : Bytes) : Dev :=
  let d := if d.queueRoom 32 1 then (d.putPacket 32 h).raise 0xB0 else d.bump F.queDropped 32
  d.raise 0xC2

/-- The first page of a region segment (R486). -/
def Dev.segPage (d : Dev) (n : Nat) : Nat := d.rd F.acqBaseMib * 1024 + n * d.acqPages

/-- A segment's half has drained (R486, R487): its pages and its header stand in DRAM. -/
def Dev.segDrained (d : Dev) : Dev :=
  match d.acq.drain with
  | [] => d
  | g :: rest =>
    let d := { d with acq := { d.acq with drain := rest } }
    let h := d.segHeader g
    let data := g.records.flatMap wordsBytes
    let page := d.segPage g.index
    let d := (cut 1024 data).zipIdx.foldl (fun d x => d.writePage (page + 1 + x.2) 2 x.1) d
    (d.dramUsed.writePage page 2 h).queueHeader h

/-- A segment ends (R483, R484): counted, drained or, with ACQ.STORE clear, only its header queued (log entry 46). -/
def Dev.segClose (d : Dev) (trunc : Bool) : Dev :=
  match d.acq.seg with
  | none => d
  | some g =>
    let g := { g with trunc := trunc }
    let total := d.rd F.acqSegs + 1
    let store := d.on F.acqStore
    let a := { d.acq with
      seg := none, pre := [], half := 1 - g.half, drain := if store then d.acq.drain ++ [g] else d.acq.drain,
      written := if d.acq.written.contains g.index then d.acq.written else d.acq.written ++ [g.index] }
    let d := { d with acq := a }
    let d := (d.bumpWrap F.acqSegSeq).wr F.acqFilled (min total (d.rd F.acqFilled + 1))
    let d := d.wr F.acqNextSeg ((g.index + 1) % total)
    let d := if trunc then d.bump F.acqTruncated else d
    if store then d else d.queueHeader (d.segHeader g)

/-- Testing starts again at stage 0. -/
def Dev.stageZero (d : Dev) : Dev :=
  { d with acq := { d.acq with count := 0, primed := false } }.wr F.acqStage 0

/-- Re-arming begins (R484). -/
def Dev.rearm (d : Dev) : Dev := { d with acq := { d.acq with rearmFrom := d.up } }

/-- After the last sample of a segment: re-arming, or DONE (R484). -/
def Dev.segFull (d : Dev) : Dev :=
  let d := (d.segClose false).stageZero.rearm
  if !d.on F.acqWrap && d.rd F.acqFilled = d.rd F.acqSegs + 1 then (d.wr F.acqState 4).raise 0xC4 else d.wr F.acqState 3

/-- Whether a segment's half has no room for the next sample (R485): it drains to DRAM meanwhile, as fast as it may. -/
def Dev.halfFull (d : Dev) (g : Seg) : Bool :=
  let size := 4 * d.acqChannels.length
  let held := g.records.length * size
  let out := min held (min ((d.now - g.firstAt) * 6 / 10) (Config.drained d.fresh))
  g.overrun || decide (1048576 + out < held + size)

/-- Sample of the segment being recorded (R483, R485): counted as one inside it, and kept while its half has room. -/
def Dev.segSample (d : Dev) (g : Seg) (r : List Word) : Dev :=
  let full := d.on F.acqStore && d.halfFull g
  let d := { d with fresh := d.fresh + 1 }.countInside g.taken r
  let d := if full && !g.overrun then (d.bump F.acqOverruns).raise 0xC3 else d
  let g : Seg := { g with taken := g.taken + 1, overrun := full, records := if full then g.records else g.records ++ [r] }
  let d := { d with acq := { d.acq with seg := some g } }
  if d.acqLen ≤ g.taken then d.segFull else d

/-- The trigger fires at this sample (R482 to R484). -/
def Dev.fireTrigger (d : Dev) (r : List Word) (at_ kind word : Nat) : Dev :=
  let half := d.acq.half
  if d.on F.acqStore && d.acq.drain.any (fun g => g.half == half) then
    (d.stageZero.bump F.acqTrigIgnored).raise 0xC6
  else
    let pre := d.rd F.acqPre
    let kept := d.acq.pre.drop (d.acq.pre.length - pre)
    let missing := pre - kept.length
    let blank : List (List Word) := List.replicate missing (List.replicate d.acqChannels.length 0)
    let back : Int := (d.now : Int) - ((pre * 16 * (d.rd F.acqDiv + 1) : Nat) : Int)
    let g : Seg := {
      index := d.rd F.acqNextSeg, seq := d.rd F.acqSegSeq, half := half, at_ := at_, firstAt := u64 back,
      preValid := kept.length, taken := pre, records := blank ++ kept, kind := kind, gen := d.rd F.stgGen, word := word }
    let d := { d with acq := { d.acq with seg := some g } }
    let d := (d.wr F.acqState 2).raise 0xC1
    let d := kept.zipIdx.foldl (fun d x => d.countInside (missing + x.2) x.1) d
    d.segSample g r

/-! ## Trigger stages (R480, R481) -/

/-- Whether a stage's condition is met at this sample: the instant and matched word, and whether its edge is primed. -/
def Dev.stageMet (d : Dev) (k : Nat) (r : List Word) : Option (Nat × Nat) × Bool :=
  let x := d.recordValue r (d.rd F.acqSChan k)
  let a := s32 (d.rd F.acqSA k)
  let b := s32 (d.rd F.acqSB k)
  let now : Option (Nat × Nat) := some (d.now, 0)
  let level (p : Bool) : Option (Nat × Nat) × Bool := (if p then now else none, d.acq.primed)
  let edge (low high : Bool) : Option (Nat × Nat) × Bool :=
    if d.acq.primed && high then (now, false) else (none, d.acq.primed || low)
  match d.rd F.acqSKind k with
  | 0 => level (decide (a < x))
  | 1 => level (decide (x < a))
  | 2 => edge (decide (x < a - b)) (decide (a < x))
  | 3 => edge (decide (a + b < x)) (decide (x < a))
  | 4 => level (decide (a ≤ x) && decide (x ≤ b))
  | 5 => level (decide (x < a) || decide (b < x))
  | 7 =>
    let t := d.rd F.acqSA k + 2 ^ 32 * d.rd F.acqSB k
    (if decide (d.acq.lastAt < t) && decide (t ≤ d.now) then some (t, 0) else none, d.acq.primed)
  | _ =>
    match d.acq.latches.find? fun e => e.1 == k && decide (e.2.at_ ≤ d.now) with
    | some e => (some (e.2.at_, e.2.word), d.acq.primed)
    | none => (none, d.acq.primed)

/-- The limit of a stage (R481). -/
def Dev.limitStage (d : Dev) (k : Nat) : Dev :=
  let w := d.rd F.acqSWithin k
  if k ≠ 0 && w ≠ 0 && decide (d.acq.lastMet + w ≤ d.acq.samples) then d.stageZero else d

/-- The stage under test at a sample: met often enough the next stage follows, or the trigger fires; past its limit the test
returns to stage 0 (R481). -/
def Dev.testStage (d : Dev) (r : List Word) : Dev :=
  let k := d.rd F.acqStage
  let (met, primed) := d.stageMet k r
  let d := { d with acq := { d.acq with primed := primed } }
  let n := d.acq.count + 1
  match met with
  | some (at_, word) =>
    if d.rd F.acqSCount k + 1 ≤ n then
      let d := { d with acq := { d.acq with count := 0, primed := false, lastMet := d.acq.samples } }
      if k = d.rd F.acqStages then d.fireTrigger r at_ (d.rd F.acqSKind k) word else d.wr F.acqStage (k + 1)
    else { d with acq := { d.acq with count := n } }.limitStage k
  | none => d.limitStage k

/-- Whether the next sample is due (R479): at the first boundary after the arm, then every ACQ.DIV + 1 ACQ cycles. -/
def Dev.sampleDue (d : Dev) : Bool :=
  d.acq.armed && (if d.acq.samples = 0 then decide (d.acq.firstAt ≤ d.now)
    else decide (d.acq.lastAt + d.ctrlTicks (d.rd F.acqDiv + 1) ≤ d.now + 1))

/-- One sample (R479): the free histograms, the segment being recorded or the stage under test; a sample of no segment joins those held
before a trigger (R483). -/
def Dev.acqSample (d : Dev) : Dev :=
  let r := d.sampleRecord
  let wasIn := d.acq.seg.isSome
  let seq := d.rd F.acqSegSeq
  let d := if d.acq.samples = 0 then d.raise 0xC0 else d
  let d := d.countFree r
  let d := match d.acq.seg with
    | some g => d.segSample g r
    | none => if d.rd F.acqState = 1 then d.testStage r else d
  let inSeg := wasIn || d.acq.seg.isSome || d.rd F.acqSegSeq != seq
  let pre := if inSeg then [] else (d.acq.pre ++ [r]).drop (d.acq.pre.length + 1 - d.rd F.acqPre)
  { d with acq := { d.acq with
      pre := pre, samples := d.acq.samples + 1, lastAt := d.now
      latches := d.acq.latches.filter fun e => decide (d.now < e.2.at_) } }

/-- The arm ends (R484): a segment being recorded closes with TRUNC. -/
def Dev.acqStop (d : Dev) (state : Nat) : Dev :=
  if !d.acq.armed then d
  else
    let d := (d.segClose true).stageZero
    { d with acq := { d.acq with armed := false, latches := [], pre := [] } }.wr F.acqState state

/-- A commit that changed a word of SO 0x1300 to 0x1304 while Lantern was armed (R484): the segment in progress closes under
the settings it was recorded with. -/
def Dev.acqChanged (d : Dev) (words : List (Nat × (Word × Word))) (new : RegFile) : Bool :=
  d.acq.armed && words.any fun e =>
    decide (0x1300 ≤ e.1 / 65536) && decide (e.1 / 65536 ≤ 0x1304)
      && decide (tget resetWord d.regs e.1 ≠ tget resetWord new e.1)

/-! ## The meanings of the events -/

/-- ACQ_SAMPLE (R479): from the first boundary after the arm on. -/
def execAcqSample (t : Nat) (s : State) : Host.Outcome State Fault Refusal :=
  event t s fun d => if d.sampleDue then d.acqSample else d

/-- ACQ_REARM_DONE (R484): after 250 ACQ cycles. -/
def execAcqRearmDone (t : Nat) (s : State) : Host.Outcome State Fault Refusal :=
  event t s fun d => if d.rd F.acqState = 3 && d.spent d.acq.rearmFrom 4000 then d.wr F.acqState 1 else d

/-- ACQ_SEGMENT_DRAINED (R487). -/
def execAcqSegmentDrained (t : Nat) (s : State) : Host.Outcome State Fault Refusal := event t s fun d => d.segDrained

/-! ## The opcodes (R488 to R492, R497) -/

/-- What refuses the whole 0xC_ group (R2). -/
def Dev.noAcq (d : Dev) : Option HRes := refuseIf (d.acqLevel == 0) stUnitAbsent 0 d

/-- ACQ_ARM (R492): samples start at the first boundary after it. -/
def hAcqArm : Handler := fun _ d =>
  let a := { d.acq with
    armed := true, firstAt := d.boundaryCeil (d.now + 1), lastAt := d.now, samples := 0, count := 0, primed := false
    latches := [], pre := [], half := 0, seg := none, written := [] }
  let e := ((({ d with acq := a }.wr F.acqSegSeq 0).wr F.acqFilled 0).wr F.acqNextSeg 0).wr F.acqStage 0
  orRefuse [d.noAcq, refuseIf d.acq.armed stBadParam 0xC0 d, refuseIf d.acqChannels.isEmpty stBadParam 0xC4 d]
    (.reply stAccepted [] (e.wr F.acqState 1))

/-- ACQ_STOP. -/
def hAcqStop : Handler := fun _ d => orRefuse [d.noAcq] (okEmpty (d.acqStop 0))

/-- ACQ_STATUS. -/
def hAcqStatus : Handler := fun _ d =>
  orRefuse [d.noAcq] (.reply stOk (natsBytes (d.readRange 0x1310 0 3 ++ d.readRange 0x1311 0 4)) d)

/-- ACQ_READ (R488). -/
def hAcqRead (segment offset : Word) (length : BitVec 16) : Handler := fun _ d =>
  let n := segment.toNat
  let header := offset.getLsbD 31
  let len := if header then 64 else length.toNat
  let o := offset.toNat % 2 ^ 31
  let busy := d.acq.drain.any (fun g => g.index == n) || (match d.acq.seg with | some g => g.index == n | none => false)
  let size := 4 * d.acqChannels.length * d.acqLen
  let page := if header then d.segPage n else d.segPage n + 1 + o / 1024
  orRefuse [d.noAcq, refuseIf (!d.hasDram) stUnitAbsent 0 d,
      refuseIf (!d.on F.acqStore || !d.acq.written.contains n || busy) stBadParam 0xC1 d,
      refuseIf (len = 0) stBadParam 0x92 d,
      refuseIf (!header && (decide (1024 < o % 1024 + len) || decide (size < o + len))) stBadParam 0xC2 d]
    (d.dramReply page (if header then 0 else o) len 0xC3)

/-- HIST_READ: bins of a unit (R491). -/
def hHistRead (unit : Byte) (first count : BitVec 16) : Handler := fun _ d =>
  let u := unit.toNat
  let n := count.toNat
  orRefuse [d.noAcq, refuseIf (decide (3 < u) || n = 0 || decide (4096 < first.toNat + n)) stBadParam 0x92 d]
    (.reply stOk (natsBytes ((List.range n).map fun i => tget (fun _ => 0) d.acq.bins (u * 4096 + first.toNat + i))) d)

/-- The replies that HIST_READ and AFTERGLOW_READ ask for (R94): counts in range only. -/
def histNeed (count : BitVec 16) : OpNeed := { reply := if count.toNat ≤ 4096 then 4 * count.toNat else 0 }
def glowNeed (rows : BitVec 16) : OpNeed := { reply := if rows.toNat ≤ 256 then 512 * rows.toNat else 0 }

/-- AFTERGLOW_READ: rows of a map (R490). -/
def hAfterglowRead (map : Byte) (first rows : BitVec 16) : Handler := fun _ d =>
  let m := map.toNat
  let n := rows.toNat
  let base := 2 ^ 20 + m * 65536 + first.toNat * 256
  orRefuse [refuseIf (decide (d.acqLevel < 2)) stUnitAbsent 0 d,
      refuseIf (decide (1 < m) || n = 0 || decide (256 < first.toNat + n)) stBadParam 0x92 d]
    (.reply stOk ((List.range (256 * n)).flatMap fun i => le 2 (tget (fun _ => 0) d.acq.bins (base + i))) d)

/-- ACQ_ARM. -/
def execAcqArm (t : Nat) (src : Src) (h : Hdr) (s : State) : Host.Outcome State Fault Refusal :=
  opcode 0xC0 t src h [] { auth := authP } hAcqArm s

/-- ACQ_STOP. -/
def execAcqStop (t : Nat) (src : Src) (h : Hdr) (s : State) : Host.Outcome State Fault Refusal :=
  opcode 0xC1 t src h [] { auth := authP } hAcqStop s

/-- ACQ_STATUS. -/
def execAcqStatus (t : Nat) (src : Src) (h : Hdr) (s : State) : Host.Outcome State Fault Refusal :=
  opcode 0xC2 t src h [] {} hAcqStatus s

/-- ACQ_READ. -/
def execAcqRead (t : Nat) (src : Src) (h : Hdr) (segment offset : Word) (length : BitVec 16) (s : State) :
    Host.Outcome State Fault Refusal :=
  opcode 0xC3 t src h (wordBytes segment ++ wordBytes offset ++ le 2 length.toNat ++ zeros 2) {}
    (hAcqRead segment offset length) s

/-- HIST_READ. -/
def execHistRead (t : Nat) (src : Src) (h : Hdr) (unit : Byte) (first count : BitVec 16) (s : State) :
    Host.Outcome State Fault Refusal :=
  opcode 0xC4 t src h ([unit, 0] ++ le 2 first.toNat ++ le 2 count.toNat ++ zeros 2) (histNeed count) (hHistRead unit first count) s

/-- AFTERGLOW_READ. -/
def execAfterglowRead (t : Nat) (src : Src) (h : Hdr) (map : Byte) (first rows : BitVec 16) (s : State) :
    Host.Outcome State Fault Refusal :=
  opcode 0xC5 t src h ([map, 0] ++ le 2 first.toNat ++ le 2 rows.toNat ++ zeros 2) (glowNeed rows) (hAfterglowRead map first rows) s

end Sys2Proof.Machine
end

