-- ==== Sys2Proof/Machine/Commit.lean ====
section
/-!
DEFINITION. Machine/Commit.lean: the commit at its boundary (R35, R36, R120, R128 to R139), and Light with its staging of the
image (R51, R52, R60, R286, R302, R257).
-/
namespace Sys2Proof.Machine

/-! ## The commit applied (R120, R128, R135) -/

/-- The words in force after a commit: a staged mode request is never held (R138), a staged action waits in its loop slot
(R278), a forced output acts through its leg (R331). -/
def Dev.committedRegs (d : Dev) : RegFile :=
  d.basket.words.foldl (fun r e =>
    let so := e.1 / 65536
    let word := e.1 % 65536
    let old := tget resetWord r e.1
    let new := (old &&& ~~~ e.2.1) ||| (e.2.2 &&& e.2.1)
    let new :=
      if so = 0x0101 && word = 0 then new &&& ~~~ maskBits 3 0
      else if 0x0600 ≤ so && so < 0x0700 && word = 1 then new &&& ~~~ maskBits 1 0
      else if so = 0x0802 then (new &&& ~~~ 7) ||| (old &&& 7)
      else new
    tset resetWord r e.1 new) d.regs

/-- The words that act, once they are in force (R7): a staged forced leg, a staged loop action, fields that act when they
are written. The mailbox acts only through WRITE_LIVE (R363). -/
def Dev.stagedActs (d : Dev) (words : List (Nat × (Word × Word))) : Dev :=
  words.foldl (fun d e =>
    let so := e.1 / 65536
    let word := e.1 % 65536
    let v := e.2.2 &&& e.2.1
    if 0x0600 ≤ so && so < 0x0700 && word = 1 then
      let a := (v &&& 3).toNat
      if a = 0 then d else d.setLoop (so - 0x0600) { d.loop (so - 0x0600) with action := a }
    else if so = 0x0802 then
      let old := regWord d.regs so word
      let new := (old &&& ~~~ e.2.1) ||| v
      if (old ^^^ new) &&& 7 ≠ 0 then d.legForce word (new.getLsbD 2) (new.getLsbD 1) (new.getLsbD 0) else d
    else if so = 0x0D10 then d
    else d.wordActs so word (v &&& storeMask so word)) d

/-- Whether a staged word changes some word of an object. -/
def changedSo (so : Nat) (words : List (Nat × (Word × Word))) (old new : RegFile) : Bool :=
  words.any fun e => e.1 / 65536 == so && tget resetWord old e.1 != tget resetWord new e.1

/-- Legs that take their duty from a slot while no enabled slot names them have a duty of 0 (R318). -/
def Dev.legsIdle (d : Dev) : Dev :=
  let named := (d.enabledSlots.filter fun s => d.on F.loopLegEn s).map fun s => d.rd F.loopLeg s
  ((List.range 12).filter fun n => !d.on F.legSrc n && !named.contains n).foldl (fun d n => d.writeDuty n 0) d

/-- What the units do once the committed words are in force; the lanes restart at the end of step 2 (R157). -/
def Dev.commitEffects (d old : Dev) (words : List (Nat × (Word × Word))) : Dev :=
  let d := ((d.refCommit old).timeCommit old).chansCommit old
  let d := d.twinCommit.wr F.twinCfgSum (d.cfgSum d.regs)
  let d := if words.any (fun e => e.1 == wordKey 0x0910 0) then d.clearResidues else d
  let d := if d.rd F.hmpLedgerState = 2 || d.rd F.hmpLedgerState = 3 then d.ledgerRuns else d
  let d := if changedSo 0x0110 words old.regs d.regs then d.endSteps 5 else d
  let d := { d with island := { d.island with firstCommit := true } }.driveContactors
  (d.legsIdle.legsRefresh.brakeUpdate).showCells.showArms.drainSessions

/-- The code of a kind in the commit log (R139). -/
def armCode : ArmKind → Nat
  | .now => 0 | .at => 1 | .light => 2 | .input => 3

/-- The entry of a commit in its log (R139). -/
def Dev.logCommit (d : Dev) (a : Armed) (count : Nat) : Dev :=
  let w (n : Nat) : Word := BitVec.ofNat 32 n
  let e := [w (d.rd F.stgGen), w d.now, w (d.now / 2 ^ 32),
    w (a.session * 2 ^ 24 + d.rd F.sysMode * 2 ^ 20 + armCode a.kind * 2 ^ 18 + count)]
  { d with basket := { d.basket with log := (e :: d.basket.log).take 16 } }

/-- Answer the parked COMMIT_NOW, if there is one (R129). -/
def Dev.answerCommit (d : Dev) (status : Nat) (data : Bytes) : Dev :=
  (d.parked.filter fun x => decide (x.why = .commit)).foldl (fun d x => d.answerParked x status data) d

/-- The commit generation after one more commit (R135). -/
def nextGen (g : Nat) : Nat := if 2 ^ 32 ≤ g + 1 then 1 else g + 1

/-- The armed commit applied (R120, R128, R135, R138): every staged word in force at once, what its units do with it, the
staged mode request, the generation, the log, the event and the reply. -/
def Dev.applyBasket (d : Dev) (a : Armed) : Dev :=
  let words := d.basket.words
  let old := d
  let lantern := d.acqChanged words d.committedRegs
  let d := if lantern then (d.acqStop 5).raise 0xC5 else d
  let request := d.stagedMode
  let first := decide (d.rd F.stgGen = 0)
  let d := d.noteStrobe (words.map (·.1))
  let d := { d with regs := d.committedRegs }.wr F.stgGen (nextGen (d.rd F.stgGen))
  let d := (d.stagedActs words).commitEffects old words
  let d := if first then d.wr F.hmpLedgerState 1 else d
  let d := match modeOf request with
    | some m => d.enterMode m 4
    | none => d
  let d := (d.unarm.emptyBasket.wr F.stgChecked 0).wrPair F.stgLastAt d.now
  let d := if a.kind = .light then d.wr F.sysCfgApplied 1 else d
  ((d.logCommit a words.length).raise 0x09).answerCommit stOk (le 4 (d.rd F.stgGen))

/-! ## Step 2 of R12 (R36, R131) -/

/-- A commit refused at its boundary (R36, R131): the Basket is kept and disarmed. -/
def Dev.refuseCommit (d : Dev) (counter : Fld) (source : Nat) (e : CkEntry) : Dev :=
  ((d.unarm.bump counter).raise source).answerCommit stCheckFailed (refusalData e.1 e.2.1 e.2.2.1 e.2.2.2)

/-- The failures of the check at the boundary (R21, R131), against the mode then in force. -/
def Dev.boundaryFailures (d : Dev) : List CkEntry :=
  sortBy ckKey (d.ckBound d.merged d.mode ++ d.ckModeReq d.merged true)

/-- The armed commit at its boundary (R36, R131, R135). -/
def Dev.commitStep (d : Dev) : Dev :=
  match d.basket.armed with
  | none => d
  | some a =>
    if d.now < a.instant then d
    else if d.modes.faultChanged then d.refuseCommit F.stgPreempted 0x03 (0xFFFF, 0, 0xFF, 0x3D)
    else
      match d.boundaryFailures with
      | e :: _ => d.refuseCommit F.stgRefusedAt 0x0A e
      | [] => d.applyBasket a

/-! ## What Light stages (R51, R52, R257, R286, R302) -/

/-- Section 0x06 (R286): words 0 to 95 of SO 0x0900, then words 0 to 7 of SO 0x0901, 63 to a block. -/
def unitMap (blocks : List Bytes) : List (Nat × (Word × Word)) :=
  let bs := blocks.flatMap fun b => padTo 252 b
  (List.range (min 104 (bs.length / 4))).map fun i =>
    if i < 96 then wholeWord 0x0900 i (leAt bs (4 * i) 4) else wholeWord 0x0901 (i - 96) (leAt bs (4 * i) 4)

/-- Section 0x07 (R257): one slot a block. -/
def slotBlock (b : Bytes) : List (Nat × (Word × Word)) :=
  if leAt b 0 2 < 256 then (List.range 40).map fun i => wholeWord (0x0600 + leAt b 0 2) i (leAt b (4 + 4 * i) 4) else []

/-- A slot number that has no state object names an absent unit (R3, R256). -/
def slotBad (b : Bytes) : List (Nat × Nat × Nat) := if leAt b 0 2 < 256 then [] else [(0xFFFF, 0, 1)]

/-- Section 0x0C (R302): entries of three bytes, 84 to a block. -/
def damageTable (blocks : List Bytes) : List (Nat × (Word × Word)) :=
  (List.range (min 128 (84 * blocks.length))).map fun i =>
    wholeWord 0x0911 i (leAt (blocks.getD (i / 84) []) (3 * (i % 84)) 3)

/-- The entries of section 0x0D: state object, word, value. -/
def writeEntries (bs : Bytes) : List (Nat × Nat × Nat) :=
  (cut 8 bs).filterMap fun x => if x.length = 8 then some (leAt x 0 2, leAt x 2 2, leAt x 4 4) else none

/-- Whether a staged word of an absent unit uses nothing (R3). -/
def Dev.usesNothing (d : Dev) (e : Nat × (Word × Word)) : Bool :=
  !d.wordPresent (e.1 / 65536) (e.1 % 65536) && (e.2.2 ^^^ resetWord e.1) &&& e.2.1 == 0

/-- The words the Light staging takes from the image, the configuration-class sections in the order of their types (R52, R60), and the
entries that name nothing that can be staged. -/
def Dev.imageWords (d : Dev) : List (Nat × (Word × Word)) × List (Nat × Nat × Nat) :=
  match d.boot.trying.bind d.boot.hdr with
  | none => ([], [])
  | some h =>
    let typed := fun typ => d.boot.typedWords h typ
    let slots := d.boot.section h 0x07
    let entries := writeEntries (d.boot.sectionBytes h 0x0D)
    let bad := entries.filter fun e => (wholeWord e.1 e.2.1 0).2.1 == 0
    let all := typed 0x04 ++ typed 0x05 ++ unitMap (d.boot.section h 0x06) ++ slots.flatMap slotBlock ++ typed 0x08 ++ typed 0x09
      ++ typed 0x0A ++ typed 0x0B ++ damageTable (d.boot.section h 0x0C) ++ entries.map fun e => wholeWord e.1 e.2.1 e.2.2
    (all.filter fun e => e.2.1 != 0 && !d.usesNothing e, slots.flatMap slotBad ++ bad.map fun e => (e.1, e.2.1, 3))

/-- The clock and the stage as they stand at Light (R60, R202): fabric time 0 and no rate correction, the first boundary of the 1 ms
cycle next. -/
def Dev.lightClock (d : Dev) : Dev :=
  let clock := { d.clock with now := 0, frac := 0, shift := 0, boundary := d.cycle, index := 1 }
  ({ d with boot := { d.boot with stage := .light }, clock := clock }.wr F.timeFreq 0).wr F.timeRate 0

/-- The mode that Light enters (R60): HELD. A device that the watchdog has snuffed in Kindle stays SNUFFED, and its trip demand acts
from now on (R25, R45; log entry 152). -/
def Dev.lightMode (d : Dev) : Dev := if d.mode = .snuffed then d.tripDemand true else d.changeMode .held 0

/-- Light (R60): the staging, HELD with the guard test pending, CHECK, and the Basket armed for the next boundary, or event
source 0x04. -/
def Dev.light (d : Dev) : Dev :=
  let image := d.imageWords
  let d := d.lightClock.calLoad
  let d := d.rebasket 0xFF (image.1.foldl stageOne d.basket.words) image.2
  let d := d.wr F.timeAcquired (flag ([0, 3].contains (d.merged.rd F.timeSrc)))
  let d := if d.hasTwin then { d with twin := { d.twin with checking := true, checkAt := d.now } } else d
  let d := d.lightMode.showFaults
  let d := if d.boot.dramFailed then d.raise 0xAD else d
  let d := d.runCheck authM
  if d.rd F.stgCkPass = 1 then d.arm (d.boundaryCeil (d.preloadEnd + 1)) .light 0xFF else d.raise 0x04

/-- LIGHT: once a slot has been accepted. -/
def execLight (t : Nat) (_image : Unit) (s : State) : Host.Outcome State Fault Refusal :=
  event t s fun d => if d.boot.stage = .kindle && d.boot.accepted then d.light else d

end Sys2Proof.Machine
end

