-- ==== Sys2Proof/Machine/Boundary.lean ====
section
/-!
DEFINITION. Machine/Boundary.lean: mode requests (R20, R23, R26, R38, R61), step sequences (R28), the ride-through envelope
(R27), the conditions of R520, and the control-cycle boundary (R12).
-/
namespace Sys2Proof.Machine

/-! ## Mode requests (R20, R23, R61, R199) -/

/-- Whether a mode is a run mode. -/
def Mode.run : Mode → Bool
  | .runForm | .runFollow => true
  | _ => false

/-- The mode that a request leads to by the From and To columns of R23. -/
def Dev.requestTo (d : Dev) (target : Mode) : Option Mode :=
  let m := d.mode
  let own := d.holdsWick || d.entitled
  if target = .discharge then (if m = .held || m.switching || m = .dark then some .discharge else none)
  else match m with
    | .held =>
      if target = .precharge then (if own then some .precharge else if d.partnerHolds then some .pilot else none)
      else if target.run then (if !own && d.partnerHolds then some .pilot else none)
      else if target = .service || target = .calibrate then some target
      else none
    | .precharge => if target.run then some target else none
    | .runForm => if target = .runFollow then some target else none
    | .runFollow => if target = .runForm then some target else none
    | .pilot => if target = .held then some .held else none
    | .service | .calibrate => if target = .held then some .held else none
    | .dark => if target.run || target = .held then some target else none
    | _ => none

/-- Why a request is refused (R20): every reason that holds, in ascending order. -/
def Dev.requestReasons (d : Dev) (target : Mode) : List Nat :=
  let m := d.mode
  let leads := d.requestTo target
  let when_ (b : Bool) (r : Nat) : List Nat := if b then [r] else []
  let prech := target == .precharge
  let noWick := m == .held && prech && d.paired && leads.isNone
  let run := target.run
  let up := prech || run
  when_ (leads.isNone && !noWick) 0x20
    ++ when_ (d.rd F.stgGen == 0 && (prech || run || target == .discharge)) 0x23
    ++ when_ (prech && d.on F.sysGuardPend) 0x24
    ++ when_ (m == .held && leads == some .precharge && d.anyAt 2) 0x25
    ++ when_ (((m == .held && up) || (m == .dark && run)) && d.anyAt 3) 0x26
    ++ when_ ((m == .precharge || m == .dark) && run && !d.linksAbove (s32 (d.rd F.stgPrechargeDone))) 0x27
    ++ when_ (m == .dark && target == .held && !d.linksBelow (s32 (d.rd F.stgDischargeDone))) 0x28
    ++ when_ (prech && !d.on F.timeAcquired) 0x29
    ++ when_ (target.switching && (d.rd F.twinRole == 5 || d.rd F.twinRole == 6)) 0x2A
    ++ when_ noWick 0x2B

/-- A request judged against the mode in force: the mode it leads to, or the lowest reason against it. -/
def Dev.judgeRequest (d : Dev) (target : Mode) : Mode ⊕ Nat :=
  match d.requestReasons target, d.requestTo target with
  | r :: _, _ => .inr r
  | [], some m => .inl m
  | [], none => .inr 0x20

/-- The place of a port among the parties of R32: the host port, then the parent (rank 5, members 0 and 1), then the network port
(rank 6). -/
def portRank : Src → Nat
  | .host => 0
  | .parent => 1
  | .net _ => 2

/-- The parked requests of a party and member, in the order of their execution (R38). -/
def Dev.requestsOf (d : Dev) (rank : Nat) : List (Parked × Nat) :=
  d.parked.filterMap fun x =>
    match x.why with
    | .mode t => if portRank x.ticket.src = rank then some (x, t) else none
    | _ => none

/-- Every granted request, the one that is applied first (R32, R38). -/
def Dev.granted (d : Dev) : List (Parked × Nat) := d.requestsOf 0 ++ d.requestsOf 1 ++ d.requestsOf 2

/-- SYS.MODE_PEND with one more request granted: the mode the winning request leads to (R30, R38). -/
def Dev.pendRequest (d : Dev) (src : Src) (m : Mode) : Dev :=
  if d.granted.any fun y => decide (portRank y.1.ticket.src ≤ portRank src) then d else d.wr F.sysModePend (modeCode m)

/-- The reply of an applied request and of GET_MODE: SO 0x0002. -/
def Dev.modeWord (d : Dev) : Bytes := le 4 (d.word 0x0002 0)

/-- A unit of a pair that goes from HELD to PRECHARGE takes the Wick unless it holds it (R23, R381, R382); the new epoch is also
the one R192 asks for after a Douse. -/
def Dev.wickFor (d : Dev) (m : Mode) : Dev :=
  if m = .precharge && !d.holdsWick then { d.takeWick with sched := { d.sched with douseSent := false } } else d

/-- The granted requests at step 3 (R38, R520): the winner is judged and applied or refused, the others give way. -/
def Dev.grantStep (d : Dev) : Dev :=
  match d.granted with
  | [] => d
  | (x, t) :: rest =>
    let d := d.wr F.sysModePend 0
    let d := match modeOf t with
      | none => d
      | some target =>
        match d.judgeRequest target with
        | .inl m =>
          let d := (d.wickFor m).enterMode m (portWord x.ticket.src + 1)
          d.answerParked x stOk d.modeWord
        | .inr r => d.answerParked x stModeRefused (refusalData 0xFFFF 0 0xFF r)
    rest.foldl (fun d y => d.answerParked y.1 stModeRefused (refusalData 0xFFFF 0 0xFF 0x22)) d

/-- The authority of a mode request (R20): Maintain for SERVICE and CALIBRATE. -/
def reqModeNeed (mode : Byte) : OpNeed := { auth := if mode = 0x0A || mode = 0x0B then authM else authP }

/-- REQ_MODE (R20, R26). -/
def hReqMode (mode : Byte) : Handler := fun c d =>
  match modeOf mode.toNat with
  | none => refuse stBadParam 0x92 d
  | some target =>
    if target = .pilot && !d.hasTwin then refuse stUnitAbsent 0 d
    else if target = d.mode then .reply stOk d.modeWord d
    else match d.judgeRequest target with
      | .inl m => .park (.mode mode.toNat) (d.pendRequest c.ticket.src m)
      | .inr r => refuse stModeRefused r d

/-- GET_MODE. -/
def hGetMode : Handler := fun _ d => .reply stOk d.modeWord d

/-! ## Step sequences (R28) -/

/-- A sequence ends at END, after step 127 or at a failed CHECK: the node returns to HELD at the next boundary. -/
def Dev.stepsOver (d : Dev) (outcome : Nat) : Dev :=
  let d := d.endSteps outcome
  { d with steps := { d.steps with leave := true } }

/-- A LEVEL step: the target holds a level, or goes back to the modulation. -/
def Dev.stepLevel (d : Dev) (slot target level : Nat) : Dev :=
  let others := d.steps.levels.filter fun x => !(x.1 == slot && x.2.1 == target)
  { d with steps := { d.steps with levels := if level = 0xFF then others else others ++ [(slot, target, level)] } }

/-- A SET_WORD step (R28): the word is written as WRITE_LIVE would write it, and not at all where WRITE_LIVE would be refused (log
entry 91). -/
def Dev.stepWord (d : Dev) (so word : Nat) (v : Word) : Dev :=
  if d.armedSo so || v &&& reservedMask so word != 0 || liveMask so word == 0 || word < 5 then d else d.liveWord so word v

/-- The step in STG.STEP_IDX starts (R28). -/
def Dev.startStep (d : Dev) : Dev :=
  let i := d.rd F.stgStepIdx
  let a := d.rd F.stgStA i
  let b := d.rd F.stgStB i
  let c := d.rd F.stgStC i
  match d.rd F.stgStKind i with
  | 0 => d.stepsOver 3
  | 1 => d.wr F.stgStepWait a
  | 2 => (d.wr F.stgStepState 2).raise 0x0D
  | 3 => d.stepWord (0x0600 + a / 256) (a % 64) (BitVec.ofNat 32 b)
  | 4 =>
    if a = 1 then { d with steps := { d.steps with modulate := true } }
    else { d with steps := { d.steps with modulate := false }, sched := { d.sched with offNow := true } }
  | 5 => d.stepLevel (a % 128) (b % 256) (c % 256)
  | 6 =>
    let n := a % 16
    let d := { d with steps := { d.steps with legs := if d.steps.legs.contains n then d.steps.legs else d.steps.legs ++ [n] } }
    d.legForce n (b.testBit 0) (c.testBit 1) (c.testBit 0)
  | 7 =>
    let v := d.signal a d.now
    if s32 b ≤ v && v ≤ s32 c then d else (d.wr F.stgStepFailVal (u32 v)).stepsOver 4
  | _ => d

/-- The step after the present one. DESIGN CHOICE (log entry 172): a sequence that ends after step 127 records outcome 3 in
STG.STEP_STATE, whose codes name only END, CHECK and abort. -/
def Dev.nextStep (d : Dev) : Dev :=
  let i := d.rd F.stgStepIdx
  if 127 ≤ i then d.stepsOver 3 else (d.wr F.stgStepIdx (i + 1)).startStep

/-- A boundary of a sequence, after step 3 of R12: its first step, a WAIT counted down, a PAUSE ended, or the next step. -/
def Dev.stepBoundary (d : Dev) : Dev :=
  let s := d.steps
  if !(d.mode = .service || d.mode = .calibrate) then d
  else if d.rd F.stgStepState = 2 then
    if s.contReq then ({ d with steps := { d.steps with contReq := false } }.wr F.stgStepState 1).nextStep else d
  else if d.rd F.stgStepState = 1 then
    if s.startReq then { d with steps := { d.steps with startReq := false } }.startStep
    else if 1 < d.rd F.stgStepWait then d.wr F.stgStepWait (d.rd F.stgStepWait - 1)
    else (d.wr F.stgStepWait 0).nextStep
  else d

/-- A sequence whose end returns the node to HELD (R28). -/
def Dev.stepLeave (d : Dev) : Dev :=
  if d.steps.leave then
    let d := { d with steps := { d.steps with leave := false } }
    if d.mode = .service || d.mode = .calibrate then d.enterMode .held 9 else d
  else d

/-- STEP_RUN. A return to HELD that is due after the sequence before stays due. -/
def hStepRun (first : Byte) : Handler := fun _ d =>
  orRefuse [refuseIf (decide (127 < first.toNat)) stBadParam 0x39 d,
      refuseIf (d.mode != .service && d.mode != .calibrate) stWrongMode 0 d, refuseIf d.stepsActive stBadParam 0x38 d]
    (.reply stAccepted [] (({ d with steps := { d.steps with startReq := true, contReq := false } }.wr F.stgStepState 1).wr F.stgStepIdx first.toNat
      |>.wr F.stgStepWait 0))

/-- STEP_CONTINUE. -/
def hStepContinue : Handler := fun _ d =>
  orRefuse [refuseIf (d.rd F.stgStepState != 2) stBadParam 0x3A d]
    (okEmpty { d with steps := { d.steps with contReq := true } })

/-- STEP_ABORT: the node stays in its mode. -/
def hStepAbort : Handler := fun _ d => okEmpty (d.endSteps 5)

/-! ## The ride-through envelope (R27) -/

/-- Whether the grid voltage lies outside the envelope, by the snapshot of the boundary before. -/
def Dev.outsideEnvelope (d : Dev) : Bool :=
  let v := snapSignal d.engines.snap (d.rd F.stgRtSel)
  decide (v < s32 (d.rd F.stgRtLow)) || decide (s32 (d.rd F.stgRtHigh) < v)

/-- Whether so many boundaries inside make the recovery time. -/
def Dev.recoveredBy (d : Dev) (inside : Nat) : Bool :=
  decide (0 < inside) && decide (d.rd F.stgRtRecover * ticksMs ≤ inside * d.cycle)

/-- The run mode held before. -/
def Dev.runMode (d : Dev) : Mode := (modeOf d.modes.runBefore).getD .runForm

/-- The boundary's test of the envelope: boundaries inside counted in RIDE_THROUGH. -/
def Dev.testEnvelope (d : Dev) : Dev :=
  if d.on F.stgRtEn && d.mode = .rideThrough then
    { d with modes := { d.modes with insideFor := if d.outsideEnvelope then 0 else d.modes.insideFor + 1 } }
  else d

/-! ## The conditions of R520 -/

/-- The change of the first row that applies. -/
def Dev.conditionTo (d : Dev) : Option Mode :=
  let m := d.mode
  if m.running && d.rd F.hmpArmFloor != 0 then some .dark
  else if (m.run || m = .rideThrough) && d.rd F.hmpArmShort != 0 then some .derated
  else if m = .derated && d.rd F.hmpArmShort == 0 then some d.runMode
  else if m.run && d.on F.stgRtEn && d.outsideEnvelope then some .rideThrough
  else if m = .rideThrough && (!d.on F.stgRtEn || d.recoveredBy d.modes.insideFor) then some d.runMode
  else if m = .discharge && d.linksBelow (s32 (d.rd F.stgDischargeDone)) then some .held
  else none

/-- At most one change at a boundary. -/
def Dev.conditionStep (d : Dev) : Dev :=
  match d.testEnvelope.conditionTo with
  | some m => d.testEnvelope.enterMode m 6
  | none => d.testEnvelope

/-! ## Takeover (R392) -/

/-- A unit in PILOT mode at a boundary (R392, R393): it takes the Wick, or finds that Flame still acts. -/
def Dev.takeover (d : Dev) : Dev :=
  if d.mode = .pilot && d.leaseRanOut then
    if d.cellsQuiet then
      let dest := match modeOf d.twin.copyMode with
        | some m => if m.running then m else .dark
        | none => .dark
      (d.takeWick.bump F.twinTakeovers).enterMode dest 7 true
    else if d.twin.linkLost then d else d.linkLost
  else d

/-! ## Telemetry (R465, R468, R469) -/

/-- The selectors of a telemetry set. -/
def Dev.telSels (d : Dev) (t : Nat) : List Nat :=
  (List.range (d.rd F.queTK t)).map fun j => d.word 0x1211 (8 * t + 1 + j / 2) / (if j % 2 = 0 then 65536 else 1) % 65536

/-- The record of a set. -/
def Dev.telRecord (d : Dev) (t : Nat) : Bytes :=
  let sels := d.telSels t
  le 1 sels.length ++ le 1 t ++ [0, 0] ++ le 8 d.now ++ sels.flatMap fun s => le32s (snapSignal d.engines.snap s)

/-- The records that fit in so many bytes, oldest first. -/
def recordsFit : Nat → List Bytes → List Bytes
  | _, [] => []
  | room, p :: t => if p.length ≤ room then p :: recordsFit (room - p.length) t else []

/-- The payload of a TELEMETRY frame or datagram (R174, R469). -/
def Dev.telPayload (d : Dev) (q : Nat) (rs : List Bytes) : Bytes :=
  le 8 d.now ++ le 2 d.nodeAddr ++ le 1 q ++ le 1 rs.length ++ zeros 4 ++ rs.flatten

/-- The oldest packets of a queue removed. -/
def Dev.dropPackets (d : Dev) (q : Nat) : Nat → Dev
  | 0 => d
  | n + 1 => match d.takePacket q with | some (_, d) => d.dropPackets q n | none => d

/-- One datagram of a telemetry queue (R469): as many records as fit in 1,472 bytes. While the destination is unresolved the
records wait and an ARP request goes out (R119). -/
def Dev.telDatagram (d : Dev) (q : Nat) : Dev :=
  let ip := d.word 0x1210 0
  if !d.netRuns || ip = 0 then d
  else match d.macFor ip with
  | some mac =>
    let rs := recordsFit 1456 (d.queue q).packets
    (d.netSend mac (.udp ip (d.word 0x1210 1 / 65536) (d.telPayload q rs))).dropPackets q rs.length
  | none => d.arpAsk ip

/-- Whether a datagram of a telemetry queue is full: a further record like the oldest would not fit. -/
def Dev.telFull (d : Dev) (q : Nat) : Bool :=
  let ps := (d.queue q).packets
  decide (1456 < (ps.map List.length).sum + (ps.head?.map List.length).getD 0)

/-- The full datagrams of a telemetry queue leave, at most as many as given: a backlog drains at full rate (R469). -/
def Dev.telDrain : Nat → Nat → Dev → Dev
  | 0, _, d => d
  | n + 1, q, d =>
    if d.netRuns && d.telFull q && (d.macFor (d.word 0x1210 0)).isSome then Dev.telDrain n q (d.telDatagram q)
    else if d.telFull q then d.telDatagram q else d

/-- Every telemetry set that goes to the network drains, once something changed for the port. -/
def Dev.telDrainAll (d : Dev) : Dev :=
  ((List.range 16).filter fun t => d.rd F.queTDest t == 1).foldl (fun d t => Dev.telDrain (d.queue (48 + t)).packets.length (48 + t) d) d

/-- One set sampled at a boundary: queued, with a notice to the host where it goes there and a datagram once that is full, or
skipped. -/
def Dev.telSet (d : Dev) (k t : Nat) : Dev :=
  if d.on F.queTEn t && d.rd F.queTPeriod t != 0 && k % d.rd F.queTPeriod t == 0 then
    let q := 48 + t
    if d.queueRoom q 1 then
      let d := d.putPacket q (d.telRecord t)
      if d.rd F.queTDest t = 0 then d.raise 0xB0
      else if d.rd F.queTDest t = 1 then Dev.telDrain (d.queue q).packets.length q d else d
    else d.bump F.queDropped q
  else d

/-- The sampler at a boundary. -/
def Dev.telemetry (d : Dev) (k : Nat) : Dev := (List.range 16).foldl (fun d t => d.telSet k t) d

/-! ## The control-cycle boundary (R12) -/

/-- The boundary instant: what ended is sent, the epoch expanded begins, then the clock stands at the boundary. -/
def Dev.enterBoundary (d : Dev) : Dev :=
  let d := (d.sendTwin (d.clock.index - 1) (d.clock.boundary - d.cycle)).beginEpoch
  { d with clock := { d.clock with now := max d.clock.now d.clock.boundary } }

/-- Steps 1 and 2 of R12, then the lanes that restart (R157) and the healthy counts of every arm by what was committed (R287, R520). -/
def Dev.boundaryLatch (d : Dev) : Dev :=
  let old := d.latchDegrades
  let d := (old.commitStep.lanesCommit old).checkArms
  { d with modes := { d.modes with faultChanged := false } }.applyCommand

/-- Step 3 of R12. -/
def Dev.boundaryModes (d : Dev) : Dev := (d.conditionStep.grantStep.takeover.stepLeave).stepBoundary

/-- What the snapshot used of each cell, for the state copy (R387). -/
def Dev.noteCells (d : Dev) : Dev :=
  if d.paired then
    let xs := (d.populatedSlots.filter fun s => (d.cell s).sampled).map fun s => (s, ((d.cell s).sampleAt, 0))
    { d with twin := { d.twin with cellInputs := xs } }
  else d

/-- Whether the unit evaluates its slots itself at a boundary (R267, R389, R393): with the Wick, and without it outside PILOT while no
partner renews one; a unit whose partner does replays the partner's cycles (log entry 147). -/
def Dev.runsLoops (d : Dev) : Bool := d.holdsWick || (decide (d.mode ≠ .pilot) && !d.partnerWick)

/-- Steps 4 to 6 of R12, for the boundary of an index: the placement of the loop slots that this boundary's configuration gives comes
into force before they start (R295). -/
def Dev.boundaryRun (d : Dev) (k : Nat) : Dev :=
  let d := d.issueWick.placeLoops
  let d := if d.runsLoops then ((d.openCycle k).engineTo d.now).noteCells else d
  ((d.publishPlacement).withdrawEngines).startPlacement k

/-- What else falls at a boundary: cells that move, calibration, groups, the ledger, the twin, telemetry. -/
def Dev.boundaryRest (d : Dev) (k : Nat) : Dev :=
  let d := d.stageEffects.calApply
  let d := ((d.groupSplit.groupReport k).parentRamp)
  let d := d.ledgerClearStep.ledgerCycle.checkpointCopy
  ((d.copyMissed k).eligibility).telemetry k

/-- The next boundary under the cycle now in force (R198). -/
def Dev.nextBoundary (d : Dev) : Dev :=
  let b := d.boundaryCeil (d.now + 1)
  { d with clock := { d.clock with boundary := b, index := d.boundaryIndex b } }

/-- One boundary. -/
def Dev.cycleBoundary (d : Dev) : Dev :=
  let k := d.clock.index
  (((d.enterBoundary.boundaryLatch.boundaryModes).boundaryRun k).boundaryRest k).nextBoundary

/-! ## The rows -/

/-- Whether a boundary is due (R198), while the control clock runs. -/
def Dev.boundaryDue (d : Dev) : Bool := d.timeRuns && decide (d.clock.boundary ≤ d.now)

/-- CONTROL_CYCLE_BOUNDARY (R12): from Light on, while the control clock runs, at or after the boundary's instant and once for each
boundary (log entry 19). -/
def execControlCycleBoundary (t : Nat) (s : State) : Host.Outcome State Fault Refusal :=
  event t s fun d => if d.boundaryDue then d.cycleBoundary else d

/-- STEP_WAIT_EXPIRY (R28): the count of a WAIT step runs out at the boundary that is due. The boundary runs, and the next step starts
at its place in it, after step 3 (log entry 88). -/
def execStepWaitExpiry (t : Nat) (s : State) : Host.Outcome State Fault Refusal :=
  event t s fun d =>
    if d.boundaryDue && d.rd F.stgStepState == 1 && d.rd F.stgStKind (d.rd F.stgStepIdx) == 1 && d.rd F.stgStepWait == 1
        && !d.steps.startReq then d.cycleBoundary
    else d

/-- PRECHARGE_TIMEOUT (R23): class 4 once STG.PRECHARGE_MAX has passed in PRECHARGE. -/
def execPrechargeTimeout (t : Nat) (s : State) : Host.Outcome State Fault Refusal :=
  event t s fun d =>
    if d.mode = .precharge && decide (d.modes.enteredAt + d.rd F.stgPrechargeMax * ticksMs ≤ d.now) then d.fault 4 0 else d

/-- RIDE_THROUGH_EXCEEDED (R27): class 5 at the boundary at which the stay in RIDE_THROUGH has reached STG.RT_MAX. -/
def execRideThroughExceeded (t : Nat) (s : State) : Host.Outcome State Fault Refusal :=
  event t s fun d =>
    if d.mode = .rideThrough && d.on F.stgRtEn
        && decide (d.boundaryCeil (d.modes.enteredAt + d.rd F.stgRtMax * ticksMs) ≤ d.now) then d.fault 5 0
    else d

/-- RIDE_THROUGH_RECOVERED (R27): with the boundary that is due, the grid voltage has been inside at every boundary of STG.RT_RECOVER.
The boundary runs, and the return falls to its step 3, which judges it (log entry 89). -/
def execRideThroughRecovered (t : Nat) (s : State) : Host.Outcome State Fault Refusal :=
  event t s fun d =>
    if d.boundaryDue && d.mode == .rideThrough && d.on F.stgRtEn && !d.outsideEnvelope && d.recoveredBy (d.modes.insideFor + 1) then
      d.cycleBoundary
    else d

/-- REQ_MODE. -/
def execReqMode (t : Nat) (src : Src) (h : Hdr) (mode : Byte) (s : State) : Host.Outcome State Fault Refusal :=
  opcode 0x40 t src h (mode :: zeros 3) (reqModeNeed mode) (hReqMode mode) s

/-- GET_MODE. -/
def execGetMode (t : Nat) (src : Src) (h : Hdr) (s : State) : Host.Outcome State Fault Refusal :=
  opcode 0x41 t src h [] {} hGetMode s

/-- STEP_RUN. -/
def execStepRun (t : Nat) (src : Src) (h : Hdr) (first : Byte) (s : State) : Host.Outcome State Fault Refusal :=
  opcode 0x42 t src h (first :: zeros 3) { auth := authM } (hStepRun first) s

/-- STEP_CONTINUE. -/
def execStepContinue (t : Nat) (src : Src) (h : Hdr) (s : State) : Host.Outcome State Fault Refusal :=
  opcode 0x43 t src h [] { auth := authM } hStepContinue s

/-- STEP_ABORT. -/
def execStepAbort (t : Nat) (src : Src) (h : Hdr) (s : State) : Host.Outcome State Fault Refusal :=
  opcode 0x44 t src h [] { auth := authM } hStepAbort s

end Sys2Proof.Machine
end

