-- ==== Sys2Proof/Machine/Cells.lean ====
section
/-!
DEFINITION. Machine/Cells.lean: the rows of the edge scheduler (chapter 9), of the fast path (chapter 10) and of the Tallow ledger
(chapter 11), over Schedule.lean, Engine.lean and Hamper.lean.
-/
namespace Sys2Proof.Machine

/-! ## The edge scheduler and the fast path -/

/-- EDGE_EXPANSION (R266, R226 to R247): once a cycle, in a switching mode, for the epoch of the next boundary, at the schedule point
and no earlier. In PILOT the expansion belongs to the replay of R389. -/
def execEdgeExpansion (t : Nat) (s : State) : Host.Outcome State Fault Refusal :=
  event t s fun d =>
    if d.timeRuns && d.mode.switching && decide (d.rd F.twinRole ≤ 1) && decide (d.sched.expanded < d.clock.boundary) then
      ((d.advance d.schedInstant).expandEpoch d.clock.boundary d.schedInstant).noteUsed
    else d

/-- CELL_SAMPLES_LOST (R245): the slot has just reached MOD.HOLD_MAX consecutive held epochs, or its first with 0. -/
def execCellSamplesLost (t : Nat) (slot : Fin 96) (s : State) : Host.Outcome State Fault Refusal :=
  event t s fun d =>
    if d.rd F.modCHeld slot = max 1 (d.rd F.modHoldMax) then d.fault 11 slot else d

/-- BYPASS_UNCONFIRMED (R247): eight epochs without the report of HEALTH 2. -/
def execBypassUnconfirmed (t : Nat) (slot : Fin 96) (s : State) : Host.Outcome State Fault Refusal :=
  event t s fun d =>
    let c := d.cell slot
    if c.stage = 2 && decide (8 ≤ c.epochs) && !c.warned then (d.setCell slot { c with warned := true }).raise 0x23
    else d

/-- REINSERT_RAMP_END (R249): the ramp's epochs have run, and the cell is active. -/
def execReinsertRampEnd (t : Nat) (slot : Fin 96) (s : State) : Host.Outcome State Fault Refusal :=
  event t s fun d =>
    let c := d.cell slot
    if c.stage = 4 && decide (d.rd F.modReinsertRamp ≤ c.ramp) then
      (d.setCell slot { c with stage := 1, ramp := 0, causes := 0 }).showCell slot
    else d

/-- FAST_PATH_TRIGGER (R270 to R273): the oldest waiting trigger of the slot takes its engine or is skipped; the evaluation
publishes, and revises its arms (R240), once its latency has passed. A unit without the Wick leaves its triggers to the replay of
R389. -/
def execFastPathTrigger (t : Nat) (slot : Fin 256) (s : State) : Host.Outcome State Fault Refusal :=
  event t s fun d =>
    match d.engines.triggers.find? fun x => x.1 == slot.val with
    | none => d
    | some x =>
      if 2 ≤ d.rd F.twinRole then d
      else
        let d := { d with engines := { d.engines with triggers := d.engines.triggers.erase x } }.fastTrigger slot x.2
        d.engineTo d.now

/-! ## The meanings of chapter 11's rows -/

/-- TALLOW_CHECKPOINT_DUE (R305): HMP.CKPT_HOURS of fabric time have passed since the restore or the last one. -/
def execTallowCheckpointDue (t : Nat) (s : State) : Host.Outcome State Fault Refusal :=
  event t s fun d =>
    let hours := d.rd F.hmpCkptHours
    if hours != 0 && decide (d.ledger.ckptAt + hours * 3600 * ticksSec ≤ d.now) then
      { d with ledger := { d.ledger with ckptAt := d.now } }.startCheckpoint (d.rd F.hmpCkptSector + 1)
    else d

/-- TALLOW_CHECKPOINT_DONE (R305). -/
def execTallowCheckpointDone (t : Nat) (ok : Bool) (s : State) : Host.Outcome State Fault Refusal :=
  event t s fun d => d.checkpointDone ok

/-- TALLOW_CHECKPOINT_RETRY (R305): the next sector, one hour after the failure. -/
def execTallowCheckpointRetry (t : Nat) (s : State) : Host.Outcome State Fault Refusal :=
  event t s fun d =>
    match d.ledger.retryAt with
    | some (sector, failedAt) => if failedAt + 3600 * ticksSec ≤ d.now then d.startCheckpoint sector else d
    | none => d

/-- LEDGER_RESTORE_DONE (R307). -/
def execLedgerRestoreDone (t : Nat) (sector : Option (Fin 16)) (bytes : List Byte) (s : State) :
    Host.Outcome State Fault Refusal :=
  event t s fun d =>
    if d.rd F.hmpLedgerState = 1 then d.restoreLedger (sector.map fun x => (x.val, bytes)) else d

end Sys2Proof.Machine
end

