-- ==== Sys2Proof/Machine/Opcodes.lean ====
section
/-!
DEFINITION. Machine/Opcodes.lean: the opcodes of R114 that have no chapter's file of their own: identity, sessions, calibration
store, fault and event reads, twin, lanes, units, forwarding, queues, image update and fuses.
-/
namespace Sys2Proof.Machine

/-- The parameters that name a first unit and a count (R114). -/
def pairParams (first count : Byte) : Bytes := [first, count, 0, 0]

/-- Words of an object as the reply data. -/
def hReadObject (so first count : Nat) : Handler := fun _ d => .reply stOk (natsBytes (d.readRange so first count)) d

/-! ## Identity and sessions (R103 to R106, R114) -/

/-- PING: fabric time. -/
def hPing : Handler := fun _ d => .reply stOk (le 8 d.now) d

/-- GET_CAPS: SO 0x0010 words 0 to 2. -/
def hGetCaps : Handler := hReadObject 0x0010 0 3

/-- GET_IDENTITY: unique ID, node address, firmware release, image sequence. -/
def hGetIdentity : Handler := fun _ d =>
  .reply stOk (((List.range 4).flatMap fun i => le 4 (d.rd F.sysUid i)) ++ le 2 d.nodeAddr ++ le 2 (d.rd F.sysFwRelease)
    ++ le 4 (d.rd F.sysImageSeq)) d

/-- The ceiling of a port (R104). -/
def Dev.portCeiling (d : Dev) : Src → Nat
  | .host => authM
  | .net _ => d.rd F.cmdNetMaxAuth
  | .parent => d.rd F.cmdParentMaxAuth

/-- The session as OPEN_SESSION leaves it: a session open before is closed, and a Basket it owns stays its own (R104). -/
def Dev.openSession (d : Dev) (src : Src) (n granted : Nat) : Dev :=
  let bound := match src with | .net a => (a.ip.toNat, a.port.toNat) | _ => (0, 0)
  d.setSession n { isOpen := true, auth := granted, ip := bound.1, udp := bound.2, lastAt := d.up }

/-- OPEN_SESSION (R104). Session 0 is always open, for Observe. -/
def hOpenSession (authority : Byte) : Handler := fun c d =>
  let n := c.ticket.session
  let granted := if n = 0 then 0 else min authority.toNat (d.portCeiling c.ticket.src)
  orRefuse [refuseIf (decide (3 < authority.toNat)) stBadParam 0x92 d,
      refuseIf (d.boundElsewhere c.ticket.src n) stSessionBusy 0 d]
    (.reply stOk (le 1 granted ++ zeros 3) (if n = 0 then d else d.openSession c.ticket.src n granted))

/-- CLOSE_SESSION (R106). -/
def hCloseSession : Handler := fun c d => okEmpty (if c.ticket.session = 0 then d else d.closeSession c.ticket.session)

/-- LIST_SESSIONS: SO 0x0021, then SO 0x0022. -/
def hListSessions : Handler := fun _ d =>
  .reply stOk (natsBytes (d.readRange 0x0021 0 33 ++ d.readRange 0x0022 0 32)) d

/-! ## The calibration store (R354 to R356) -/

/-- The bytes of the store. -/
def Dev.calBytes (d : Dev) : Bytes := (List.range 64).flatMap d.calPage

/-- The reply that CAL_READ asks for (R94): lengths in range only. -/
def calReadNeed (length : BitVec 16) : OpNeed := { reply := if length.toNat ≤ 4080 then length.toNat else 0 }

/-- CAL_READ. -/
def hCalRead (offset length : BitVec 16) : Handler := fun _ d =>
  let a := offset.toNat
  let n := length.toNat
  orRefuse [refuseIf (n == 0 || decide (4080 < n) || decide (16384 < a + n)) stBadParam 0x92 d]
    (.reply stOk ((d.calBytes.drop a).take n) d)

/-- CAL_WRITE (R356): accepted, it is parked until the verify. -/
def hCalWrite (page : BitVec 16) (bytes : Bytes) : Handler := fun _ d =>
  let p := page.toNat
  orRefuse [refuseIf (decide (63 < p)) stBadParam 0x92 d, refuseIf (!blockGood bytes) stBadParam 0x60 d,
      refuseIf (reservedBad p bytes) stBadParam 0x62 d,
      refuseIf (d.mode != .held && d.mode != .calibrate) stWrongMode 0 d,
      refuseIf d.cal.writing.isSome stBadParam 0x61 d,
      refuseIf (decide (10000 ≤ d.calCount p)) stWearLimit 0 d]
    (.park (.calWrite p) (({ d with cal := { d.cal with writing := some (p, bytes) } }.wr F.calBusy 1).wr F.calBusyPage p))

/-- A page write counted (R356). -/
def Dev.calCounted (d : Dev) (p : Nat) : Dev :=
  { d with cal := { d.cal with writing := none, counts := tset (fun _ => 1) d.cal.counts p (d.calCount p + 1) } }.wr F.calBusy 0

/-- The write of a page ends (R356): verified, its values take effect at the next boundary; a page that fails its verify is
left failing its CRC (log entry 48). -/
def Dev.calWritten (d : Dev) (p : Nat) (bytes : Bytes) (verified : Bool) : Dev :=
  let x := d.parked.find? fun y => decide (y.why = .calWrite p)
  let d := d.calCounted p
  let d := if verified then
      let d := { d with cal := { d.cal with
        pages := tset factoryPage d.cal.pages p bytes, broken := d.cal.broken.filter (· != p), apply := d.cal.apply ++ [p] } }
      (d.bump F.calWrites).wr F.calLastPage p
    else { d with cal := { d.cal with broken := d.cal.broken ++ [p] } }
  match x with
  | some x =>
    if verified then d.answerParked x stOk (le 4 (d.calCount p))
    else d.answerParked x stMemoryError (refusalData 0xFFFF 0 0xFF 0)
  | none => d

/-- CAL_WEAR: the 64 write counts. -/
def hCalWear : Handler := fun _ d => .reply stOk (natsBytes ((List.range 64).map d.calCount)) d

/-! ## Faults and events (R412, R417, R420, R425) -/

/-- READ_FAULTS: SO 0x0F00. -/
def hReadFaults : Handler := hReadObject 0x0F00 0 32

/-- READ_HISTORY: entries of SO 0x0F08, the newest first. -/
def hReadHistory (first count : Byte) : Handler := fun c d =>
  let n := count.toNat
  orRefuse [refuseIf (n == 0 || decide (32 < first.toNat + n)) stBadParam 0x92 d]
    (hReadObject 0x0F08 (10 * first.toNat) (10 * n) c d)

/-- READ_EVENT_ROUTE: words of SO 0x0F10. -/
def hReadEventRoute (first count : Byte) : Handler := fun c d =>
  orRefuse [refuseIf (decide (256 < first.toNat + count.toNat)) stBadParam 0x92 d]
    (hReadObject 0x0F10 first.toNat count.toNat c d)

/-- EVENT_SUBSCRIBE (R417): the sources a session is told of. -/
def hEventSubscribe (mask : BitVec 256) : Handler := fun c d =>
  let n := c.ticket.session
  okEmpty (if n = 0 then d else d.setSession n { d.session n with subs := mask.toNat })

/-! ## The twin (R380, R391, R396) -/

/-- The refusal of the twin opcodes on a variant without a twin (R2). -/
def Dev.noTwin (d : Dev) : Option HRes := refuseIf (!d.hasTwin) stUnitAbsent 0 d

/-- TWIN_STATUS: SO 0x0E01 words 0 to 7. -/
def hTwinStatus : Handler := fun c d => orRefuse [d.noTwin] (hReadObject 0x0E01 0 8 c d)

/-- TWIN_SELFTEST: the self-check of R391 starts. -/
def hTwinSelftest : Handler := fun _ d =>
  orRefuse [d.noTwin] (.reply stAccepted [] { d with twin := { d.twin with checking := true, checkResult := 0, checkAt := d.now } })

/-- PILOT_REPORT: the report received on Flame, the one sent on any other unit. -/
def hPilotReport : Handler := fun _ d =>
  orRefuse [d.noTwin] (.reply stOk (if d.rd F.twinRole = 1 then d.twin.report else d.twin.ownReport) d)

/-- MARK_UNFIT: a planned release on Flame, role 5 on any other unit. -/
def hMarkUnfit : Handler := fun _ d =>
  orRefuse [d.noTwin] (okEmpty (if d.rd F.twinRole = 1 then d.releaseWick else if d.rd F.twinRole = 6 then d else d.markUnfit))

/-! ## Lanes (R157, R161, R163) -/

/-- LANE_STATUS: words of SO 0x0200; refused when every lane named is absent (log entry 39). -/
def hLaneStatus (first count : Byte) : Handler := fun c d =>
  let ls := (List.range count.toNat).map (first.toNat + ·)
  orRefuse [refuseIf (!ls.isEmpty && ls.all fun l => decide (l < 55) && !d.lanePresent l) stUnitAbsent 0 d,
      refuseIf (decide (55 < first.toNat + count.toNat)) stBadParam 0x92 d]
    (hReadObject 0x0200 first.toNat count.toNat c d)

/-- The lane a request names: absent, or no lane at all. -/
def Dev.laneRefusals (d : Dev) (l : Nat) : List (Option HRes) :=
  [refuseIf (decide (l < 55) && !d.lanePresent l) stUnitAbsent 0 d, refuseIf (decide (54 < l)) stBadParam 0x92 d]

/-- A loopback begins on a lane (R161): its kind, at the present rate or at rate 0x0 if the lane was not UP. -/
def Dev.loopbackOn (d : Dev) (l kind : Nat) : Dev :=
  let up := d.laneUp l
  let d' := d.leaveUp l
  let d' := if d.laneLinked l then d'.treeDown l else d'
  let d' := if up then d' else d'.wr F.laneRate 0 l
  let d' := if kind = 3 then d' else d'.unlock l
  let d' := d'.setLane l { d'.lane l with quiet := false, limited := false, sending := none }
  ((d'.wr F.laneState lsLoopback l).wr F.laneLoopback kind l).sourceGone

/-- LANE_LOOPBACK (R161). -/
def hLaneLoopback (lane kind : Byte) : Handler := fun _ d =>
  let l := lane.toNat
  let k := kind.toNat
  orRefuse (d.laneRefusals l ++ [refuseIf (decide (4 < k)) stBadParam 0x92 d, refuseIf (d.mode != .service) stWrongMode 0 d,
      refuseIf (k == 3 && !d.laneUp l) stWrongMode 0 d])
    (okEmpty (if k = 0 then d.endLoopback l else d.loopbackOn l k))

/-- LANE_RETRAIN (R157): the lane restarts from DETECT, where it is enabled, at the next control-cycle boundary, with the mask that a
commit of the same cycle leaves (log entry 151). -/
def hLaneRetrain (lane : Byte) : Handler := fun _ d =>
  let l := lane.toNat
  orRefuse (d.laneRefusals l ++ [refuseIf (d.mode != .held && d.mode != .service) stWrongMode 0 d])
    (let d := (d.wr F.laneRateLimited 0 l).wr F.laneAttempts 0 l
     .reply stAccepted [] (if d.on F.laneEn l then d.setLane l { d.lane l with restartDue := true } else d))

/-! ## Units (R13, R246 to R249) -/

/-- Whether a unit slot names a unit that is present (R13). -/
def Dev.slotPresent (d : Dev) (s : Nat) : Bool :=
  d.populated s || (decide (112 ≤ s) && decide (s - 112 < d.downPorts)) || decide (s = 127)

/-- What is known of a unit slot: what a summary of its UNIT_STATE is made from. -/
def Dev.slotFacts (d : Dev) (s : Nat) : List Nat :=
  if s < 96 then [d.rd F.modCState s, (d.cell s).health, flag (d.cell s).reported]
  else if 112 ≤ s && s < 116 then
    [d.rd F.grpDState (s - 112), d.rd F.grpDHealth (s - 112), d.rd F.grpDHealthy (s - 112), d.rd F.grpDTotal (s - 112)]
  else []

/-- UNIT_STATUS (log entries 11 and 39). -/
def hUnitStatus (first count : Byte) : Handler := fun _ d =>
  let us := (List.range count.toNat).map (first.toNat + ·)
  orRefuse [refuseIf (!us.isEmpty && us.all fun s => decide (s < 128) && !d.slotPresent s) stUnitAbsent 0 d,
      refuseIf (decide (128 < first.toNat + count.toNat)) stBadParam 0x92 d]
    (.reply stOk (openReply 0xA2 (first.toNat :: count.toNat :: us.flatMap d.slotFacts)) d)

/-- A cell slot named by UNIT_BYPASS or UNIT_REINSERT: absent, or no cell slot at all. -/
def Dev.cellRefusals (d : Dev) (s : Nat) : List (Option HRes) :=
  [refuseIf (decide (s < 128) && !d.slotPresent s) stUnitAbsent 0 d, refuseIf (decide (95 < s)) stBadParam 0x92 d]

/-- Whether the bypass of a slot would leave its arm below HMP.MIN_CELLS (R248): the cells left of those that take part in it, which
outside a switching mode MOD.C_STATE does not show. -/
def Dev.bypassLeavesFew (d : Dev) (s : Nat) : Bool :=
  match d.armOf s with
  | some a => decide (((d.placeCells a).filter (· != s)).length < d.rd F.hmpMinCells a)
  | none => false

/-- UNIT_BYPASS (R248). -/
def hUnitBypass (slot : Byte) : Handler := fun _ d =>
  let s := slot.toNat
  let c := d.cell s
  orRefuse (d.cellRefusals s)
    (if c.stage = 2 || c.stage = 3 then okEmpty d
     else if d.bypassLeavesFew s then refuse stBadParam 0x50 d
     else .reply stAccepted [] (d.bypassPending s 0))

/-- The conditions of R249. -/
def Dev.reinsertable (d : Dev) (s : Nat) : Bool :=
  let c := d.cell s
  c.stage == 3 && d.laneUp (laneOfSlot s) && c.reported && c.health == 2 && c.sampled
    && decide (s32 (d.rd F.stgPrechargeDone) ≤ tget (fun _ => 0) c.values 0)

/-- Whether a class that caused the bypass of a slot still holds it (R249). -/
def Dev.bypassCaused (d : Dev) (s : Nat) : Bool :=
  let c := d.cell s
  let holds (cls src : Nat) : Bool := c.causes.testBit cls && d.on F.fltSet cls && d.maskBit cls src
  holds 6 (laneOfSlot s) || holds 10 s || holds 11 s

/-- UNIT_REINSERT (R249). -/
def hUnitReinsert (slot : Byte) : Handler := fun _ d =>
  let s := slot.toNat
  orRefuse (d.cellRefusals s ++ [refuseIf (!d.reinsertable s) stBadParam 0x51 d,
      refuseIf (d.bypassCaused s) stCauseActive 0 d])
    (.reply stAccepted [] (d.setCell s { d.cell s with reinsert := true }))

/-! ## Forwarding (R16, R175) -/

/-- The way to a node address (R16). -/
inductive Route where
  | own
  | lane (l : Nat)
  | none
deriving DecidableEq, Repr

/-- The route of a node address (R16): its own, a down port's range, else U; a node without U has no route. -/
def Dev.route (d : Dev) (a : Nat) : Route :=
  if a = d.nodeAddr then .own
  else
    match (List.range d.downPorts).find? fun n =>
        d.on F.laneEn (laneD n) && decide (d.rd F.grpDLo n ≤ a) && decide (a ≤ d.rd F.grpDHi n) with
    | some n => .lane (laneD n)
    | none => if d.on F.laneEn laneU then .lane laneU else .none

/-- A frame that matches no range on a root (R16). -/
def Dev.routeMiss (d : Dev) : Dev := (d.bump F.grpRouteMiss).raise 0x0E

/-- Where a message to a unit slot of this node goes (R13): lane, frame ADDR, payload DST and DST_SLOT. -/
def Dev.slotRoute (d : Dev) (s : Nat) : Option (Nat × Nat × Nat × Nat) :=
  if s < 96 then (if d.populated s then some (laneOfSlot s, s, 0xFFFF, s) else none)
  else if 112 ≤ s && s < 116 then
    (if s - 112 < d.downPorts then some (laneD (s - 112), d.rd F.grpDLo (s - 112), d.rd F.grpDLo (s - 112), 127) else none)
  else none

/-- Send the inner packet of MANAGE_FORWARD as MANAGE_REQ frames under a new MSG_ID, ranked with its sender (R33), and wait for its
reply. -/
def Dev.sendForward (d : Dev) (by_ : Src) (way : Nat × Nat × Nat × Nat) (inner : Bytes) : HRes :=
  let id := d.nextMsg
  let items := manageItems 0x08 by_ way.2.1 way.2.2.1 d.nodeAddr way.2.2.2 id inner
  let d := items.foldl (fun d x => d.queueFrame way.1 x) { d with nextMsg := (id + 1) % 65536 }
  .park (.forward id) d

/-- The way that MANAGE_FORWARD names: lane, frame ADDR, payload DST and DST_SLOT; none for a node without a route or a slot without a
unit (R2, R16). -/
def Dev.forwardWay (d : Dev) (node slot : Nat) : Option (Nat × Nat × Nat × Nat) :=
  match d.route node with
  | .own => d.slotRoute slot
  | .lane l => some (l, node, node, slot)
  | .none => none

/-- MANAGE_FORWARD (R175): to another node, or to a unit slot of this one. A packet refused changes nothing (R2, R101). -/
def hManageForward (node : BitVec 16) (slot : Byte) (inner : Bytes) : Handler := fun c d =>
  let a := node.toNat
  let s := slot.toNat
  let own := decide (a = d.nodeAddr)
  let way := d.forwardWay a s
  orRefuse [refuseIf (way.isNone && !(own && decide (127 ≤ s))) stUnitAbsent 0 d,
      refuseIf (decide (inner.length < 16) || decide (128 ≤ s) || (own && s == 127)) stBadParam 0x92 d]
    (match way with
      | some w => d.sendForward c.ticket.src w inner
      | none => refuse stUnitAbsent 0 d)

/-- The authority of MANAGE_FORWARD: that of its inner packet (R114). -/
def forwardNeed (inner : Bytes) : OpNeed := { auth := byteAt inner 6 }

/-- MANAGE_FORWARD_TIMEOUT (R175): 50 ms without the inner reply. -/
def Dev.forwardTimeout (d : Dev) (id : Nat) : Dev :=
  match d.parked.find? fun x => decide (x.why = .forward id) with
  | some x =>
    if 50 * ticksMs ≤ (d.now % 2 ^ 32 + 2 ^ 32 - x.ticket.stamp) % 2 ^ 32 then
      d.answerParked x stExpired (refusalData 0xFFFF 0 0xFF 0x40)
    else d
  | none => d

/-! ## Queues (R467, R476) -/

/-- QUEUE_STATUS (R476): for each queue its two words of SO 0x1201 and HMP.Q_CHUNKS (log entry 170). -/
def hQueueStatus (first count : Byte) : Handler := fun _ d =>
  let n := count.toNat
  let qs := (List.range n).map (first.toNat + ·)
  orRefuse [refuseIf (decide (64 < first.toNat + n)) stBadParam 0x92 d]
    (.reply stOk (natsBytes (qs.flatMap fun q => d.readRange 0x1201 (2 * q) 2 ++ [(d.queue q).chunks.length])) d)

/-- Whether the host consumes a queue (R463, R487). -/
def Dev.hostQueue (d : Dev) (q : Nat) : Bool :=
  q == 0 || q == 18 || q == 32 || (decide (48 ≤ q) && decide (q < 64) && d.rd F.queTDest (q - 48) == 0)

/-- Whole packets from the front of a queue while they fit in so many entries: their entries, and the block after. -/
def Dev.takeEntries : Nat → Dev → Nat → Nat → Bytes × Dev
  | 0, d, _, _ => ([], d)
  | fuel + 1, d, q, room =>
    match firstPacket (d.queue q).entries with
    | some (es, _) =>
      if es.length ≤ room then
        let r := Dev.takeEntries fuel (d.setQueue q ((d.queue q).dropEntries es.length)) q (room - es.length)
        (es.flatMap QEnt.whole ++ r.1, r.2)
      else ([], d)
    | none => ([], d)

/-- QUEUE_READ (R467). -/
def hQueueRead (queue : Byte) (maximum : BitVec 16) : Handler := fun c d =>
  let q := queue.toNat
  let room := min maximum.toNat (replyLimit c.ticket.src / 64)
  let r := d.takeEntries (d.queue q).fill q room
  orRefuse [refuseIf (decide (63 < q)) stBadParam 0x92 d, refuseIf (!d.hostQueue q) stBadParam 0x85 d]
    (.reply stOk r.1 r.2)

/-! ## The safety island -/

/-- SAFE_STATUS: SO 0x1001. -/
def hSafeStatus : Handler := hReadObject 0x1001 0 5

/-! ## Image update (R58, R115) -/

/-- 64 KiB blocks that an image of so many 256-byte blocks occupies. -/
def eraseBlocks (length : Nat) : Nat := (length + 255) / 256

/-- IMAGE_BEGIN: the slot not loaded, A when none is; the erase begins. -/
def hImageBegin (length : BitVec 16) : Handler := fun _ d =>
  let n := length.toNat
  let slotB := decide (d.rd F.sysSlotLoaded = 1)
  if n < 2 || 16384 < n then refuse stBadParam 0x92 d
  else .reply stOk (le 1 (flag slotB) ++ zeros 3) { d with upd := { active := true, slotB := slotB, length := n } }

/-- The erase of one 64 KiB block ends. -/
def Dev.imageErased (d : Dev) (ok : Bool) : Dev :=
  let u := d.upd
  if !u.active || u.failed || decide (eraseBlocks u.length ≤ u.erased) then d
  else if ok then { d with upd := { u with erased := u.erased + 1 } }
  else { d with upd := { u with failed := true } }

/-- IMAGE_WRITE: blocks into erased flash. -/
def hImageWrite (first : BitVec 16) (blocks : Bytes) : Handler := fun _ d =>
  let u := d.upd
  let a := first.toNat
  let n := blocks.length / 256
  let pages := (cut 256 blocks).zipIdx.map fun x => (a + x.2, x.1)
  orRefuse [refuseIf (n == 0 || decide (15 < n)) stBadParam 0x92 d,
      refuseIf (!u.active || u.failed || u.finishing) stImageRefused 0 d,
      refuseIf (a == 0 || decide (u.length < a + n)) stBadParam 0x92 d,
      refuseIf (decide (u.erased ≤ (a + n - 1) / 256)) stNotReady 0 d]
    (okEmpty { d with upd := { u with programming := u.programming ++ pages } })

/-- A page program ends: an error ends the update, and block 0 finishes it. -/
def Dev.imageProgrammed (d : Dev) (ok : Bool) : Dev :=
  let u := d.upd
  match u.programming with
  | [] => d
  | p :: rest =>
    if !ok then { d with upd := { u with failed := true, finishing := false, programming := [] } }
    else if p.1 = 0 then { d with upd := { u with programming := rest, finishing := false, active := false, done := true } }
    else
      let written := if u.written.contains p.1 then u.written else u.written ++ [p.1]
      { d with upd := { u with programming := rest, written := written } }

/-- Whether every block of an update has been written (R115). -/
def ImgUpdate.complete (u : ImgUpdate) : Bool := (List.range (u.length - 1)).all fun i => u.written.contains (i + 1)

/-- IMAGE_FINISH: block 0 last. With a slot loaded its IMAGE_SEQ is one greater than that slot's (R58). -/
def hImageFinish (block0 : Bytes) : Handler := fun _ d =>
  let u := d.upd
  let seqOk := d.rd F.sysSlotLoaded = 0 || leAt block0 8 4 = (d.rd F.sysImageSeq + 1) % 2 ^ 32
  if !u.active || u.failed || u.finishing || !u.complete || !seqOk then refuse stImageRefused 0 d
  else .reply stAccepted [] { d with upd := { u with finishing := true, programming := u.programming ++ [(0, block0)] } }

/-- IMAGE_STATUS: target slot, blocks written, state (log entry 11). -/
def hImageStatus : Handler := fun _ d =>
  let u := d.upd
  .reply stOk (openReply 0xF4 [flag u.slotB, u.written.length, flag u.active, u.length, u.erased, flag u.failed,
    flag u.finishing, flag u.done]) d

/-! ## Fuses (R48) -/

/-- FUSE_KEY_HASH: once, while the key hash is not locked; the write locks it. -/
def hFuseKeyHash (hash : Bytes) : Handler := fun _ d =>
  if d.on F.sysKeyLocked then refuse stFuseRefused 0 d
  else okEmpty ((bytesWords hash).zipIdx.foldl (fun d x => d.wr F.sysKeyHash x.1.toNat x.2) (d.wr F.sysKeyLocked 1))

/-- FUSE_SIGNED_BOOT: only while the key hash is locked. -/
def hFuseSignedBoot : Handler := fun _ d =>
  if !d.on F.sysKeyLocked then refuse stFuseRefused 0 d else okEmpty (d.wr F.sysSignedBoot 1)

/-- The fuses after a packet has been served (R48): a key hash that is now locked and a signed-boot option that is now set
have been programmed; nothing is ever cleared. -/
def Fuse.burn (f : Fuse) (d : Dev) : Fuse :=
  let locked := f.keyLocked || d.on F.sysKeyLocked
  { f with
    keyLocked := locked, signedBoot := f.signedBoot || (locked && d.on F.sysSignedBoot)
    keyHash := if f.keyLocked || !d.on F.sysKeyLocked then f.keyHash
      else (List.range 8).map fun i => BitVec.ofNat 32 (d.rd F.sysKeyHash i) }

/-- A command that may program fuses. -/
def liftFuse (s : State) (f : Dev → Dev) : Host.Outcome State Fault Refusal :=
  let d := f s.dev
  .next { s with fuse := s.fuse.burn d, dev := d }

/-! ## The rows -/

/-- PING. -/
def execPing (t : Nat) (src : Src) (h : Hdr) (s : State) : Host.Outcome State Fault Refusal :=
  opcode 0x00 t src h [] {} hPing s

/-- GET_CAPS. -/
def execGetCaps (t : Nat) (src : Src) (h : Hdr) (s : State) : Host.Outcome State Fault Refusal :=
  opcode 0x01 t src h [] {} hGetCaps s

/-- GET_IDENTITY. -/
def execGetIdentity (t : Nat) (src : Src) (h : Hdr) (s : State) : Host.Outcome State Fault Refusal :=
  opcode 0x02 t src h [] {} hGetIdentity s

/-- OPEN_SESSION. -/
def execOpenSession (t : Nat) (src : Src) (h : Hdr) (authority : Byte) (s : State) : Host.Outcome State Fault Refusal :=
  opcode 0x03 t src h (authority :: zeros 3) {} (hOpenSession authority) s

/-- CLOSE_SESSION. -/
def execCloseSession (t : Nat) (src : Src) (h : Hdr) (s : State) : Host.Outcome State Fault Refusal :=
  opcode 0x04 t src h [] {} hCloseSession s

/-- LIST_SESSIONS. -/
def execListSessions (t : Nat) (src : Src) (h : Hdr) (s : State) : Host.Outcome State Fault Refusal :=
  opcode 0x05 t src h [] {} hListSessions s

/-- CAL_READ. -/
def execCalRead (t : Nat) (src : Src) (h : Hdr) (offset length : BitVec 16) (s : State) :
    Host.Outcome State Fault Refusal :=
  opcode 0x60 t src h (le 2 offset.toNat ++ le 2 length.toNat) (calReadNeed length) (hCalRead offset length) s

/-- CAL_WRITE: 256 bytes. -/
def execCalWrite (t : Nat) (src : Src) (h : Hdr) (page : BitVec 16) (bytes : List Byte) (s : State) :
    Host.Outcome State Fault Refusal :=
  opcodeLen (decide (bytes.length = 256)) 0x61 t src h (le 2 page.toNat ++ zeros 2 ++ bytes) { auth := authM, hostOnly := true, confirm := true }
    (hCalWrite page bytes) s

/-- CAL_WRITE_DONE (R356). -/
def execCalWriteDone (t : Nat) (verified : Bool) (s : State) : Host.Outcome State Fault Refusal :=
  event t s fun d => match d.cal.writing with | some w => d.calWritten w.1 w.2 verified | none => d

/-- CAL_WEAR. -/
def execCalWear (t : Nat) (src : Src) (h : Hdr) (s : State) : Host.Outcome State Fault Refusal :=
  opcode 0x62 t src h [] {} hCalWear s

/-- READ_FAULTS. -/
def execReadFaults (t : Nat) (src : Src) (h : Hdr) (s : State) : Host.Outcome State Fault Refusal :=
  opcode 0x80 t src h [] {} hReadFaults s

/-- READ_HISTORY. -/
def execReadHistory (t : Nat) (src : Src) (h : Hdr) (first count : Byte) (s : State) : Host.Outcome State Fault Refusal :=
  opcode 0x81 t src h (pairParams first count) {} (hReadHistory first count) s

/-- READ_EVENT_ROUTE. -/
def execReadEventRoute (t : Nat) (src : Src) (h : Hdr) (first count : Byte) (s : State) :
    Host.Outcome State Fault Refusal :=
  opcode 0x84 t src h (pairParams first count) {} (hReadEventRoute first count) s

/-- EVENT_SUBSCRIBE. -/
def execEventSubscribe (t : Nat) (src : Src) (h : Hdr) (mask : BitVec 256) (s : State) :
    Host.Outcome State Fault Refusal :=
  opcode 0x85 t src h (le 32 mask.toNat) {} (hEventSubscribe mask) s

/-- TWIN_STATUS. -/
def execTwinStatus (t : Nat) (src : Src) (h : Hdr) (s : State) : Host.Outcome State Fault Refusal :=
  opcode 0x90 t src h [] {} hTwinStatus s

/-- TWIN_SELFTEST. -/
def execTwinSelftest (t : Nat) (src : Src) (h : Hdr) (s : State) : Host.Outcome State Fault Refusal :=
  opcode 0x91 t src h [] { auth := authM } hTwinSelftest s

/-- PILOT_REPORT. -/
def execPilotReport (t : Nat) (src : Src) (h : Hdr) (s : State) : Host.Outcome State Fault Refusal :=
  opcode 0x92 t src h [] {} hPilotReport s

/-- MARK_UNFIT. -/
def execMarkUnfit (t : Nat) (src : Src) (h : Hdr) (s : State) : Host.Outcome State Fault Refusal :=
  opcode 0x93 t src h [] { auth := authM } hMarkUnfit s

/-- LANE_STATUS. -/
def execLaneStatus (t : Nat) (src : Src) (h : Hdr) (first count : Byte) (s : State) : Host.Outcome State Fault Refusal :=
  opcode 0xA0 t src h (pairParams first count) {} (hLaneStatus first count) s

/-- LANE_LOOPBACK. -/
def execLaneLoopback (t : Nat) (src : Src) (h : Hdr) (lane kind : Byte) (s : State) : Host.Outcome State Fault Refusal :=
  opcode 0xA1 t src h (pairParams lane kind) { auth := authM } (hLaneLoopback lane kind) s

/-- UNIT_STATUS. -/
def execUnitStatus (t : Nat) (src : Src) (h : Hdr) (first count : Byte) (s : State) : Host.Outcome State Fault Refusal :=
  opcode 0xA2 t src h (pairParams first count) {} (hUnitStatus first count) s

/-- UNIT_BYPASS. -/
def execUnitBypass (t : Nat) (src : Src) (h : Hdr) (slot : Byte) (s : State) : Host.Outcome State Fault Refusal :=
  opcode 0xA3 t src h (slot :: zeros 3) { auth := authP } (hUnitBypass slot) s

/-- UNIT_REINSERT. -/
def execUnitReinsert (t : Nat) (src : Src) (h : Hdr) (slot : Byte) (s : State) : Host.Outcome State Fault Refusal :=
  opcode 0xA4 t src h (slot :: zeros 3) { auth := authP } (hUnitReinsert slot) s

/-- MANAGE_FORWARD: the inner packet fits the parameters. -/
def execManageForward (t : Nat) (src : Src) (h : Hdr) (node : BitVec 16) (slot : Byte) (inner : List Byte) (s : State) :
    Host.Outcome State Fault Refusal :=
  opcodeLen true 0xA5 t src h (le 2 node.toNat ++ [slot, 0] ++ inner) (forwardNeed inner) (hManageForward node slot inner) s

/-- LANE_RETRAIN. -/
def execLaneRetrain (t : Nat) (src : Src) (h : Hdr) (lane : Byte) (s : State) : Host.Outcome State Fault Refusal :=
  opcode 0xA6 t src h (lane :: zeros 3) { auth := authM } (hLaneRetrain lane) s

/-- QUEUE_STATUS. -/
def execQueueStatus (t : Nat) (src : Src) (h : Hdr) (first count : Byte) (s : State) : Host.Outcome State Fault Refusal :=
  opcode 0xD0 t src h (pairParams first count) {} (hQueueStatus first count) s

/-- SAFE_STATUS. -/
def execSafeStatus (t : Nat) (src : Src) (h : Hdr) (s : State) : Host.Outcome State Fault Refusal :=
  opcode 0xE0 t src h [] {} hSafeStatus s

/-- The needs of the image opcodes that write (R114). -/
def imageNeed : OpNeed := { auth := authM, hostOnly := true }

/-- IMAGE_BEGIN. -/
def execImageBegin (t : Nat) (src : Src) (h : Hdr) (length : BitVec 16) (s : State) : Host.Outcome State Fault Refusal :=
  opcode 0xF1 t src h (le 2 length.toNat ++ zeros 2) imageNeed (hImageBegin length) s

/-- IMAGE_ERASE_DONE (R58). -/
def execImageEraseDone (t : Nat) (ok : Bool) (s : State) : Host.Outcome State Fault Refusal :=
  event t s fun d => d.imageErased ok

/-- IMAGE_WRITE: whole blocks of 256 bytes. -/
def execImageWrite (t : Nat) (src : Src) (h : Hdr) (first : BitVec 16) (blocks : List Byte) (s : State) :
    Host.Outcome State Fault Refusal :=
  opcodeLen (decide (blocks.length % 256 = 0)) 0xF2 t src h (le 2 first.toNat ++ le 2 (blocks.length / 256) ++ blocks) imageNeed (hImageWrite first blocks) s

/-- IMAGE_FINISH: block 0, 256 bytes. -/
def execImageFinish (t : Nat) (src : Src) (h : Hdr) (block0 : List Byte) (s : State) : Host.Outcome State Fault Refusal :=
  opcodeLen (decide (block0.length = 256)) 0xF3 t src h block0 imageNeed (hImageFinish block0) s

/-- IMAGE_STATUS. -/
def execImageStatus (t : Nat) (src : Src) (h : Hdr) (s : State) : Host.Outcome State Fault Refusal :=
  opcode 0xF4 t src h [] {} hImageStatus s

/-- IMAGE_PROGRAM_DONE (R58). -/
def execImageProgramDone (t : Nat) (ok : Bool) (s : State) : Host.Outcome State Fault Refusal :=
  event t s fun d => d.imageProgrammed ok

/-- The needs of the fuse opcodes (R114). -/
def fuseNeed : OpNeed := { auth := authM, hostOnly := true, confirm := true }

/-- FUSE_KEY_HASH: a hash of 32 bytes. -/
def execFuseKeyHash (t : Nat) (src : Src) (h : Hdr) (hash : List Byte) (s : State) : Host.Outcome State Fault Refusal :=
  liftFuse s fun d => d.serveLen (decide (hash.length = 32)) 0xF5 t src h hash fuseNeed (hFuseKeyHash hash)

/-- FUSE_SIGNED_BOOT. -/
def execFuseSignedBoot (t : Nat) (src : Src) (h : Hdr) (s : State) : Host.Outcome State Fault Refusal :=
  liftFuse s fun d => d.serve 0xF6 t src h [] fuseNeed hFuseSignedBoot

end Sys2Proof.Machine
end

