-- ==== Sys2Proof/Machine/Packet.lean ====
section
/-!
DEFINITION. Machine/Packet.lean: a command packet read from its bytes (R96, R114): which opcode it is, whether its length suits
it, and the handler its parameters give; then the packet taken under R100.
-/
namespace Sys2Proof.Machine

/-- What the opcode and the parameters of a packet are. -/
inductive Parsed where
  | unknown
  | badLength
  | op (need : OpNeed) (h : Handler)

/-- n bytes from place i as a bit vector of so many bits. -/
def bvAt (bs : Bytes) (i n w : Nat) : BitVec w := BitVec.ofNat w (leAt bs i n)

def b8 (bs : Bytes) (i : Nat) : Byte := bvAt bs i 1 8
def b16 (bs : Bytes) (i : Nat) : BitVec 16 := bvAt bs i 2 16
def b32 (bs : Bytes) (i : Nat) : Word := bvAt bs i 4 32
def b64 (bs : Bytes) (i : Nat) : BitVec 64 := bvAt bs i 8 64

/-- Whether a refusal comes before the test of reserved fields in steps 9 and 10 of R100: an absent unit, a word range, a
parameter. -/
def earlyRefusal (status : Nat) (data : Bytes) : Bool :=
  status == stUnitAbsent || (status == stBadParam && decide (0x90 ≤ byteAt data 5))

/-- A handler of parameters with reserved bytes (R8, R100): one that is not 0 refuses the packet. -/
def reservedOr (clean : Bool) (h : Handler) : Handler := fun c d =>
  if clean then h c d
  else match h c d with
    | .reply st data _ => if earlyRefusal st data then .reply st data d else refuse stReservedSet 0 d
    | .park _ _ => refuse stReservedSet 0 d

/-- An opcode with parameters of one length; `rsv` gives place and length of bytes that are 0. -/
def fixedOp (p : Bytes) (len : Nat) (rsv : Nat × Nat) (need : OpNeed) (h : Handler) : Parsed :=
  if p.length ≠ len then .badLength else .op need (reservedOr (zeroRange p rsv.1 rsv.2) h)

/-- An opcode without parameters. -/
def plainOp (p : Bytes) (need : OpNeed) (h : Handler) : Parsed := fixedOp p 0 (0, 0) need h

/-- An opcode whose parameters are one byte and three bytes 0. -/
def byteOp (p : Bytes) (need : OpNeed) (h : Byte → Handler) : Parsed := fixedOp p 4 (1, 3) need (h (b8 p 0))

/-- An opcode whose parameters are a first unit, a count and two bytes 0. -/
def pairOp (p : Bytes) (need : OpNeed) (h : Byte → Byte → Handler) : Parsed := fixedOp p 4 (2, 2) need (h (b8 p 0) (b8 p 1))

/-- An opcode whose parameters are a range of words. -/
def rangeOp (p : Bytes) (need : BitVec 16 → BitVec 16 → BitVec 16 → OpNeed) (h : BitVec 16 → BitVec 16 → BitVec 16 → Handler) : Parsed :=
  fixedOp p 8 (6, 2) (need (b16 p 0) (b16 p 2) (b16 p 4)) (h (b16 p 0) (b16 p 2) (b16 p 4))

/-- An opcode whose parameters are a range of words and their values. -/
def valuesOp (p : Bytes) (need : BitVec 16 → BitVec 16 → List Word → OpNeed) (h : BitVec 16 → BitVec 16 → List Word → Handler) :
    Parsed :=
  let values := bytesWords (p.drop 8)
  fixedOp p (8 + 4 * leAt p 4 2) (6, 2) (need (b16 p 0) (b16 p 2) values) (h (b16 p 0) (b16 p 2) values)

/-- STAGE_FIELDS: entries of 12 bytes. -/
def fieldsOp (p : Bytes) : Parsed :=
  let entries := (cut 12 p).map fun e => (b16 e 0, b16 e 2, b32 e 4, b32 e 8)
  if p.length % 12 ≠ 0 then .badLength else .op (stageNeed (stageFieldsBits entries)) (hStageFields entries)

/-- TUNE_WORD and TUNE_WORDS: entries of 8 bytes. -/
def tuneOp (p : Bytes) (most : Nat) : Parsed :=
  if p.length % 8 ≠ 0 || p.length = 0 || 8 * most < p.length then .badLength
  else .op { auth := authC } (hTune ((cut 8 p).map fun e => (leAt e 0 2, leAt e 2 2, b32 e 4)))

/-- The 0x0_ to 0x4_ groups (R114). -/
def parseLow (op : Nat) (p : Bytes) : Parsed :=
  match op with
  | 0x00 => plainOp p {} hPing
  | 0x01 => plainOp p {} hGetCaps
  | 0x02 => plainOp p {} hGetIdentity
  | 0x03 => byteOp p {} hOpenSession
  | 0x04 => plainOp p {} hCloseSession
  | 0x05 => plainOp p {} hListSessions
  | 0x10 => valuesOp p (fun so first vs => stageNeed (stageWordsBits so first vs)) hStageWords
  | 0x11 => fieldsOp p
  | 0x12 => byteOp p { auth := authP } hStageModeReq
  | 0x14 => rangeOp p unstageNeed hUnstage
  | 0x20 => plainOp p { auth := authC } hCheck
  | 0x22 => plainOp p { auth := authC } hCommitNow
  | 0x24 => fixedOp p 12 (1, 1) { auth := authC } (hCommitAt (b8 p 0) (bvAt p 2 10 80))
  | 0x26 => plainOp p { auth := authC } hDisarm
  | 0x27 => plainOp p { auth := authC } hDiscard
  | 0x30 => rangeOp p (fun so _ n => readNeed so n) hReadWords
  | 0x32 => rangeOp p (fun _ _ n => readStagedNeed n) hReadStaged
  | 0x33 => fixedOp p 4 (2, 2) {} (hReadBasketIndex (b16 p 0))
  | 0x34 => fixedOp p 4 (2, 2) {} (hReadDirectory (b16 p 0))
  | 0x38 => valuesOp p liveNeed hWriteLive
  | 0x40 => byteOp p (reqModeNeed (b8 p 0)) hReqMode
  | 0x41 => plainOp p {} hGetMode
  | 0x42 => byteOp p { auth := authM } hStepRun
  | 0x43 => plainOp p { auth := authM } hStepContinue
  | 0x44 => plainOp p { auth := authM } hStepAbort
  | _ => .unknown

/-- The 0x5_ to 0x9_ groups (R114). -/
def parseMid (op : Nat) (p : Bytes) : Parsed :=
  match op with
  | 0x50 => tuneOp p 1
  | 0x51 => tuneOp p 8
  | 0x52 => fixedOp p 4 (2, 2) {} (hTuneRead (b16 p 0))
  | 0x60 => fixedOp p 4 (0, 0) (calReadNeed (b16 p 2)) (hCalRead (b16 p 0) (b16 p 2))
  | 0x61 => fixedOp p 260 (2, 2) { auth := authM, hostOnly := true, confirm := true } (hCalWrite (b16 p 0) (p.drop 4))
  | 0x62 => plainOp p {} hCalWear
  | 0x70 => plainOp p {} hGetTime
  | 0x71 => fixedOp p 20 (2, 2) { auth := authC } (hSetTpo (b8 p 0) (b8 p 1) (b64 p 4) (b64 p 12))
  | 0x72 => byteOp p {} hReadTci
  | 0x73 => plainOp p {} hPtpStatus
  | 0x80 => plainOp p {} hReadFaults
  | 0x81 => pairOp p {} hReadHistory
  | 0x82 => fixedOp p 4 (0, 0) { auth := authP } (hAckFault (b32 p 0))
  | 0x83 => fixedOp p 4 (0, 0) { auth := authP } (hClearFault (b32 p 0))
  | 0x84 => pairOp p {} hReadEventRoute
  | 0x85 => fixedOp p 32 (0, 0) {} (hEventSubscribe (bvAt p 0 32 256))
  | 0x90 => plainOp p {} hTwinStatus
  | 0x91 => plainOp p { auth := authM } hTwinSelftest
  | 0x92 => plainOp p {} hPilotReport
  | 0x93 => plainOp p { auth := authM } hMarkUnfit
  | _ => .unknown

/-- MANAGE_FORWARD: node, slot, 0, the inner packet. -/
def forwardOp (p : Bytes) : Parsed :=
  if p.length < 4 then .badLength
  else .op (forwardNeed (p.drop 4)) (reservedOr (zeroRange p 3 1) (hManageForward (b16 p 0) (b8 p 2) (p.drop 4)))

/-- ECC_TEST_WRITE: address, check bits, data. -/
def eccTestOp (p : Bytes) : Parsed :=
  if p.length < 16 then .badLength else .op { auth := authM } (hEccTestWrite (b64 p 0) (b64 p 8) (p.drop 16))

/-- The 0xA_ to 0xC_ groups (R114). -/
def parseHigh (op : Nat) (p : Bytes) : Parsed :=
  match op with
  | 0xA0 => pairOp p {} hLaneStatus
  | 0xA1 => pairOp p { auth := authM } hLaneLoopback
  | 0xA2 => pairOp p {} hUnitStatus
  | 0xA3 => byteOp p { auth := authP } hUnitBypass
  | 0xA4 => byteOp p { auth := authP } hUnitReinsert
  | 0xA5 => forwardOp p
  | 0xA6 => byteOp p { auth := authM } hLaneRetrain
  | 0xB0 => plainOp p {} hMemStatus
  | 0xB1 => fixedOp p 12 (10, 2) { auth := authM } (hMemRead (b64 p 0) (b16 p 8))
  | 0xB2 => fixedOp p (12 + leAt p 8 2) (10, 2) { auth := authM } (hMemWrite (b64 p 0) (p.drop 12))
  | 0xB3 => eccTestOp p
  | 0xC0 => plainOp p { auth := authP } hAcqArm
  | 0xC1 => plainOp p { auth := authP } hAcqStop
  | 0xC2 => plainOp p {} hAcqStatus
  | 0xC3 => fixedOp p 12 (10, 2) {} (hAcqRead (b32 p 0) (b32 p 4) (b16 p 8))
  | 0xC4 => fixedOp p 8 (6, 2) (histNeed (b16 p 4)) (reservedOr (zeroRange p 1 1) (hHistRead (b8 p 0) (b16 p 2) (b16 p 4)))
  | 0xC5 => fixedOp p 8 (6, 2) (glowNeed (b16 p 4)) (reservedOr (zeroRange p 1 1) (hAfterglowRead (b8 p 0) (b16 p 2) (b16 p 4)))
  | _ => .unknown

/-- The 0xD_ to 0xF_ groups (R114). -/
def parseTop (op : Nat) (p : Bytes) : Parsed :=
  match op with
  | 0xD0 => pairOp p {} hQueueStatus
  | 0xD1 => fixedOp p 4 (1, 1) {} (hQueueRead (b8 p 0) (b16 p 2))
  | 0xE0 => plainOp p {} hSafeStatus
  | 0xE1 => byteOp p { auth := authM, hostOnly := true } fun _ => hSafeTest
  | 0xE2 => plainOp p { auth := authP, hostOnly := true } hSafeAck
  | 0xE3 => plainOp p { auth := authP, hostOnly := true } hBreakerClose
  | 0xE4 => plainOp p { auth := authP } hBreakerTrip
  | 0xF0 => byteOp p { auth := authM, hostOnly := true, confirm := true } hReset
  | 0xF1 => fixedOp p 4 (2, 2) imageNeed (hImageBegin (b16 p 0))
  | 0xF2 => fixedOp p (4 + 256 * leAt p 2 2) (0, 0) imageNeed (hImageWrite (b16 p 0) (p.drop 4))
  | 0xF3 => fixedOp p 256 (0, 0) imageNeed (hImageFinish p)
  | 0xF4 => plainOp p {} hImageStatus
  | 0xF5 => fixedOp p 32 (0, 0) fuseNeed (hFuseKeyHash p)
  | 0xF6 => plainOp p fuseNeed hFuseSignedBoot
  | _ => .unknown

/-- The opcode table of R114. -/
def parseOp (op : Nat) (p : Bytes) : Parsed :=
  if op < 0x50 then parseLow op p else if op < 0xA0 then parseMid op p else if op < 0xD0 then parseHigh op p
  else parseTop op p

/-- The need and the handler of a packet whose length is right; an opcode the table lacks is refused at step 6. -/
def Parsed.serve : Parsed → OpNeed × Handler
  | .op need h => (need, h)
  | _ => ({ known := false }, fun _ d => refuse stUnknownOpcode 0 d)

/-! ## Taking a packet (R89, R100) -/

/-- The bytes of a packet that its CRC covers (R96). -/
def packetBody (p : Bytes) : Bytes := p.take (p.length - 4)

/-- The context of a packet: its header (R96) and the CRC that its bytes have, with the way its reply goes. -/
def packetCtx (src : Src) (via : Option (Nat × Nat × Nat)) (now : Nat) (p : Bytes) : Ctx :=
  let k : Ticket :=
    { src := src, op := byteAt p 0, tag := leAt p 2 2, session := byteAt p 7, crc := crc32c (packetBody p)
      stamp := now % 2 ^ 32, via := via }
  { ticket := k, flags := byteAt p 1, auth := byteAt p 6, time := leAt p 8 4 }

/-- The parameters of a packet. -/
def packetParams (p : Bytes) : Bytes := (p.drop 12).take (p.length - 16)

/-- The framing error of a packet that ends early (R91): on the host port HOST_CSn rose before its last byte, elsewhere its length
differs. -/
def shortError : Src → Nat
  | .host => 1
  | _ => 2

/-- A packet as its bytes arrive on a port that takes packets (R89, R93 to R96, R100). -/
def Dev.takeBytes (d : Dev) (src : Src) (via : Option (Nat × Nat × Nat)) (p : Bytes) : Dev :=
  let plen := leAt p 4 2
  if !d.portActive src then d
  else if p.length < 16 || p.length < 16 + plen then d.discardPacket src (shortError src)
  else if 16 + plen < p.length then d.discardPacket src 2
  else
    let c := packetCtx src via d.now p
    let params := packetParams p
    let x := parseOp c.ticket.op params
    let wrong := match x with | .badLength => true | _ => false
    if wrong || !lengthsFit src params x.serve.1 then d.refusePacket c stBadLength
    else if leAt p (p.length - 4) 4 ≠ c.ticket.crc then d.refusePacket c stBadCrc
    else d.take c params x.serve.1 x.serve.2

/-- Packets of the host port that wait for room in the reply queue are executed, oldest first, once there is room (R465). -/
def Dev.resumeParked (d : Dev) : Dev :=
  d.parked.foldl (fun d x =>
    match x.why with
    | .credit p =>
      if d.replyRoom x.ticket.op then
        let c := { packetCtx x.ticket.src x.ticket.via d.now p with ticket := x.ticket }
        let y := parseOp x.ticket.op (packetParams p)
        { d with parked := d.parked.filter fun z => decide (z ≠ x) }.execute c y.serve.1 y.serve.2
      else d
    | _ => d) d

/-- MANAGE_FORWARD_TIMEOUT; its reply may make room for a packet that waits (R465). -/
def execManageForwardTimeout (t : Nat) (msgId : BitVec 16) (s : State) : Host.Outcome State Fault Refusal :=
  liftFuse s fun d => ((d.advance t).forwardTimeout msgId.toNat).resumeParked

end Sys2Proof.Machine
end

