-- ==== Sys2Proof/Machine/Ports.lean ====
section
/-!
DEFINITION. Machine/Ports.lean: the host port and the network port (chapter 4): transactions, datagrams, ARP, ICMP, the link and
session timeouts; the pins RDYn and IRQn.
-/
namespace Sys2Proof.Machine

/-! ## The host port (R88 to R92) -/

/-- RDYn low (R92): a complete reply waits, from Light on and while the PLL is locked. -/
def Dev.rdyLow (d : Dev) : Bool :=
  decide (d.boot.stage = .light) && d.on F.clkLocked && decide (0 < packetCount (d.queue 0).entries)

/-- IRQnx low (R416): a pending source has bit x of FLT.R_IRQ set. -/
def Dev.irqLow (d : Dev) (x : Nat) : Bool :=
  (List.range 256).any fun s => (d.rd F.fltEvPend (s / 32)).testBit (s % 32) && (d.rd F.fltRIrq s).testBit x

/-- The four bytes of READ_STATUS (R91). -/
def Dev.portStatus (d : Dev) : Bytes :=
  le 1 (128 * flag (decide (d.boot.stage = .light)) + d.rd F.sysMode) ++ le 1 (d.creditLimit 0)
    ++ le 1 (min 255 (packetCount (d.queue 0).entries)) ++ le 1 (d.rd F.cmdLastFraming 0)

/-- What the host port drives after the instruction byte. -/
def Dev.driveHost (d : Dev) (bs : Bytes) : Dev := { d with ports := { d.ports with hostOut := bs } }

/-- READ_REPLY (R90): the oldest complete reply; clocked out whole it leaves the queue. With none waiting every byte is 0x00. -/
def Dev.readReply (d : Dev) (complete : Bool) : Dev :=
  match d.takePacket 0 with
  | some (p, d') => if complete then (d'.driveHost p).resumeParked else d.driveHost p
  | none => d.driveHost []

/-- Whether an instruction byte is one of R88. -/
def goodInstruction (code : Byte) : Bool := decide (code.toNat / 64 < 3) && decide (1 ≤ code.toNat % 64) && decide (code.toNat % 64 ≤ 3)

/-- WRITE_PACKET (R89): the bytes clocked before HOST_CSn rose. -/
def execWritePacket (t : Nat) (bytes : List Byte) (s : State) : Host.Outcome State Fault Refusal :=
  liftFuse s fun d => (d.advance t).takeBytes .host none bytes

/-- READ_REPLY. -/
def execReadReply (t : Nat) (complete : Bool) (s : State) : Host.Outcome State Fault Refusal :=
  liftFuse s fun d =>
    let d := d.advance t
    if d.portActive .host then d.readReply complete else d

/-- READ_STATUS (R91). -/
def execReadStatus (t : Nat) (s : State) : Host.Outcome State Fault Refusal :=
  event t s fun d => if d.portActive .host then d.driveHost d.portStatus else d

/-- BAD_INSTRUCTION (R88): an instruction byte that is not listed, or of width 0b11, is ignored and framing error 4 recorded. A byte
that R88 lists is no bad instruction: its transaction has a row of its own (log entry 79). -/
def execBadInstruction (t : Nat) (code : Byte) (s : State) : Host.Outcome State Fault Refusal :=
  event t s fun d => if d.portActive .host && !goodInstruction code then d.wr F.cmdLastFraming 4 0 else d

/-- QUEUE_READ; a read of queue 0 may make room for a packet that waits (R465). -/
def execQueueRead (t : Nat) (src : Src) (h : Hdr) (queue : Byte) (maximum : BitVec 16) (s : State) :
    Host.Outcome State Fault Refusal :=
  liftFuse s fun d =>
    (d.serve 0xD1 t src h ([queue, 0] ++ le 2 maximum.toNat) {} (hQueueRead queue maximum)).resumeParked

/-! ## The network port (R93, R119) -/

/-- Whether the 802.1Q tag of a frame is one the port accepts (R119): none or VID 0, with CMD.VLAN_EN set CMD.VLAN_ID. -/
def Dev.vlanOk (d : Dev) (tag : Option (BitVec 16)) : Bool :=
  match tag with
  | none => !d.on F.cmdVlanEn
  | some v => v.toNat % 4096 == (if d.on F.cmdVlanEn then d.rd F.cmdVlanId else 0)

/-- Whether the port accepts a frame (R119): its destination is CMD.NET_MAC, or the broadcast address for an ARP request, and its tag
fits. -/
def Dev.frameOk (d : Dev) (n : NetHead) (arpRequest : Bool) : Bool :=
  d.netRuns && d.vlanOk n.tag && (n.dstMac.toNat == d.netMac || (arpRequest && n.dstMac.toNat == macBroadcast))

/-- The IPv4 address of the port. -/
def Dev.netIp (d : Dev) : Nat := d.word 0x0024 0

/-- Whether an IPv4 address other than the port's own is a multicast or a broadcast one, of all or of the port's subnet. -/
def Dev.notUnicast (d : Dev) (ip : Nat) : Bool :=
  let host := 4294967295 - d.word 0x0024 1
  ip != d.netIp && (decide (0xE0000000 ≤ ip) || (d.netIp ||| host) == ip)

/-- Where a datagram comes from. -/
def netAddrOf (n : NetHead) (port : BitVec 16) : NetAddr := { ip := n.srcIp, port := port, mac := n.srcMac, tag := n.tag }

/-- A datagram for the command port (R93): one whole packet to CMD.NET_IP, or discarded when it is broadcast, multicast, a
fragment or of another length. -/
def Dev.datagram (d : Dev) (n : NetHead) (dstPort srcPort : BitVec 16) (fragment : Bool) (bytes : Bytes) : Dev :=
  let src := Src.net (netAddrOf n srcPort)
  let own := n.dstIp.toNat == d.netIp
  if dstPort.toNat != d.rd F.cmdUdpPort || !d.portActive src || !(own || d.notUnicast n.dstIp.toNat) then d
  else if !own || fragment then d.discardPacket src (d.rd F.cmdLastFraming 1)
  else d.takeBytes src none bytes

/-- COMMAND_DATAGRAM (R93, R94, R119). -/
def execCommandDatagram (t : Nat) (dst src : NetEnd) (dstPort srcPort : BitVec 16) (fragment : Bool) (tag : Option (BitVec 16))
    (bytes : List Byte) (s : State) : Host.Outcome State Fault Refusal :=
  event t s fun d =>
    let n := netHead dst src tag
    if d.frameOk n false then d.datagram n dstPort srcPort fragment bytes else d

/-- NET_SESSION_TIMEOUT (R106): CMD.NET_IDLE seconds without a packet. -/
def execNetSessionTimeout (t : Nat) (session : Fin 16) (s : State) : Host.Outcome State Fault Refusal :=
  event t s fun d =>
    let n := 16 + session.val
    if (d.session n).isOpen && decide ((d.session n).lastAt + d.rd F.cmdNetIdle * ticksSec ≤ d.up) then
      (d.closeSession n).raise 0x07
    else d

/-- Whether the oldest record of a telemetry queue was queued 10 ms ago, and where its set goes to the network. -/
def Dev.telDue (d : Dev) (t : Nat) : Bool :=
  d.rd F.queTDest t == 1 &&
    match (d.queue (48 + t)).packets.head? with
    | some r => decide (leAt r 4 8 + 10 * ticksMs ≤ d.now)
    | none => false

/-- What waits for the port leaves, once a destination is resolved or the link is up: notices, full datagrams of telemetry, those whose
oldest record is due (R110, R119, R463, R469). -/
def Dev.netResume (d : Dev) : Dev :=
  let d := d.drainSessions.telDrainAll
  ((List.range 16).filter d.telDue).foldl (fun d k => d.telDatagram (48 + k)) d

/-- ARP_REFRESH (R119): an entry's 60 s end, and it is asked for again. -/
def execArpRefresh (t : Nat) (entry : Fin 8) (s : State) : Host.Outcome State Fault Refusal :=
  event t s fun d =>
    match d.ports.arp[entry.val]? with
    | some e =>
      if d.netRuns && decide (e.2.2 + 60 * ticksSec ≤ d.up) then
        { d with ports := { d.ports with arp := d.ports.arp.set entry.val (e.1, e.2.1, d.up) } }.netSend macBroadcast (.arp true e.1)
      else d
    | none => d

/-- A destination resolved (R119): its entry refreshed, or a new one among the last 8. -/
def Dev.arpResolve (d : Dev) (ip mac : Nat) : Dev :=
  let e := (ip, mac, d.up)
  let old := d.ports.arp
  let arp := if old.any (fun x => x.1 == ip) then old.map fun x => if x.1 = ip then e else x
    else (e :: old).take 8
  { d with ports := { d.ports with arp := arp, arpWait := d.ports.arpWait.filter (· != ip) } }.netResume

/-- ARP_FRAME (R119): a request for CMD.NET_IP is answered to its sender; a reply resolves a destination asked for or refreshed. -/
def execArpFrame (t : Nat) (request : Bool) (src dst : NetEnd) (tag : Option (BitVec 16)) (s : State) :
    Host.Outcome State Fault Refusal :=
  event t s fun d =>
    let n := netHead dst src tag
    let ip := n.srcIp.toNat
    if !d.frameOk n request || n.dstIp.toNat ≠ d.netIp then d
    else if request then d.netSend n.srcMac.toNat (.arp false ip)
    else if d.ports.arpWait.contains ip || d.ports.arp.any (fun x => x.1 == ip) then d.arpResolve ip n.srcMac.toNat
    else d

/-- ICMP_ECHO (R119): an echo request to CMD.NET_IP is answered with its data. -/
def execIcmpEcho (t : Nat) (src dst : NetEnd) (tag : Option (BitVec 16)) (bytes : List Byte) (s : State) :
    Host.Outcome State Fault Refusal :=
  event t s fun d =>
    let n := netHead dst src tag
    if d.frameOk n false && n.dstIp.toNat == d.netIp then d.netSend n.srcMac.toNat (.icmp n.srcIp.toNat bytes) else d

/-- NET_LINK_CHANGE (R119): up at 1000 Mb/s full duplex, down at anything else. -/
def execNetLinkChange (t : Nat) (speedMbps : Nat) (fullDuplex : Bool) (s : State) : Host.Outcome State Fault Refusal :=
  event t s fun d =>
    ({ d with ports := { d.ports with linkUp := decide (speedMbps = 1000) && fullDuplex } }.ptpRefresh).netResume

/-- TELEMETRY_DATAGRAM_TIMEOUT (R469): the datagram of every set whose oldest record has waited 10 ms. -/
def execTelemetryDatagramTimeout (t : Nat) (s : State) : Host.Outcome State Fault Refusal :=
  event t s fun d => ((List.range 16).filter d.telDue).foldl (fun d k => d.telDatagram (48 + k)) d

end Sys2Proof.Machine
end

