-- ==== Sys2Proof/Machine/Frames.lean ====
section
/-!
DEFINITION. Machine/Frames.lean: what each frame type and the DOUSE block do on arrival (chapters 7, 9, 13 to 16): routing and
transit, MANAGE messages, samples and reports of cells, the parent and the children, the partner, events.
-/
namespace Sys2Proof.Machine

/-! ## Transit (R16, R175, R463, R466, R469) -/

/-- The queue of frames in transit toward U or a D lane. -/
def transitQueue (l : Nat) : Nat := if l = laneU then 20 else 21 + (l - 49)

/-- A frame in transit as it lies in its queue: type, rank and member, ADDR, payload. -/
def transitBytes (x : TxItem) : Bytes := le 1 x.ftype ++ le 1 (x.rank + 16 * x.member) ++ le 2 x.addr ++ x.payload

/-- Read back a frame in transit. -/
def transitItem (p : Bytes) : TxItem :=
  { ftype := byteAt p 0, rank := byteAt p 1 % 16, member := byteAt p 1 / 16, addr := leAt p 2 2, payload := p.drop 4 }

/-- Forward a frame on U or a D lane (R16, R466): at once while the lane carries frames, else through its transit queue. A
subtree that is lost takes none (R368). -/
def Dev.forward (d : Dev) (l : Nat) (x : TxItem) : Dev :=
  let q := transitQueue l
  let p := transitBytes x
  if 49 ≤ l && decide (d.rd F.grpDState (l - 49) = 5) then d.routeMiss
  else if d.laneLinked l && decide ((d.queue q).fill = 0) then d.queueFrame l x
  else if d.queueRoom q (entriesOf p.length) then d.putPacket q p
  else (d.bump F.queDropped q).raise 0xB2

/-- Frames in transit pass to a lane that carries frames. -/
def Dev.drainTransit (d : Dev) (l : Nat) : Dev :=
  let q := transitQueue l
  let ps := (d.queue q).packets
  (ps.foldl (fun d p => d.queueFrame l (transitItem p)) d).dropPackets q ps.length

/-- One TELEMETRY frame of a set that goes to U (R469): up to 240 bytes of records. -/
def Dev.telFrame (d : Dev) (t : Nat) : Dev :=
  let q := 48 + t
  let rs := recordsFit 240 (d.queue q).packets
  if d.rd F.queTDest t = 2 && !rs.isEmpty then
    (d.queueFrame laneU { ftype := 0x0E, rank := 6, payload := d.telPayload q rs }).dropPackets q rs.length
  else d

/-- The packets of queue 1, replies and notices of the parent session, as MANAGE_RESP frames on U (log entry 49). -/
def Dev.parentPackets (d : Dev) : Dev :=
  let ps := (d.queue 1).packets
  let sendOne (d : Dev) (p : Bytes) : Dev :=
    let items := manageItems 0x09 .parent d.group.parentNode d.group.parentNode d.nodeAddr 127 d.nextMsg p
    items.foldl (fun d x => d.queueFrame laneU x) { d with nextMsg := (d.nextMsg + 1) % 65536 }
  (ps.foldl sendOne d).dropPackets 1 ps.length

/-- What waits for a lane in the queues passes to it. -/
def Dev.drain (d : Dev) (l : Nat) : Dev :=
  if !d.laneLinked l || l < 48 || 52 < l then d
  else if l = laneU then (List.range 16).foldl (fun d t => d.telFrame t) (d.drainTransit l).parentPackets
  else d.drainTransit l

/-- LANE_FRAME_TRANSMIT (R182). -/
def execLaneFrameTransmit (t : Nat) (lane : Fin 55) (s : State) : Host.Outcome State Fault Refusal :=
  event t s fun d => if d.on F.clkLocked then (d.drain lane).transmit lane else d

/-- Whether a frame on U or a D lane is for this node (R16, R168). -/
def Dev.forMe (d : Dev) (f : RxFrame) : Bool := f.flags.getLsbD 3 || decide (f.addr.toNat = d.nodeAddr)

/-- Route a frame that is not for this node (R16, R175). What comes from U or from a D lane ranks as the parent's traffic does (log entry
174). -/
def Dev.passOn (d : Dev) (ftype rank : Nat) (f : RxFrame) : Dev :=
  let x : TxItem := { ftype := ftype, rank := rank, member := if rank = 5 then 1 else 0, addr := f.addr.toNat, payload := f.payload }
  match d.route f.addr.toNat with
  | .lane l => d.forward l x
  | _ => d.routeMiss

/-- Whether a lane is U or a D lane, or a twin lane. -/
def treeLane (l : Nat) : Bool := decide (48 ≤ l) && decide (l < 53)
def twinLaneNo (l : Nat) : Bool := l == 53 || l == 54

/-! ## MANAGE (R174, R175) -/

/-- The header of a MANAGE segment. -/
structure Segment where
  dst : Nat := 0
  src : Nat := 0
  slot : Nat := 0
  seg : Nat := 0
  segs : Nat := 0
  msgId : Nat := 0
  bytes : Bytes := []
deriving DecidableEq, Repr

/-- A MANAGE payload read: none where R174's layout does not hold. -/
def parseSegment (cell : Bool) (p : Bytes) : Option Segment :=
  let x : Segment :=
    { dst := leAt p 0 2, src := leAt p 2 2, slot := byteAt p 4, seg := byteAt p 5, segs := byteAt p 6, msgId := leAt p 8 2
      bytes := p.drop 12 }
  let n := x.bytes.length
  if n = 0 || 244 < n || !zeroRange p 7 1 || !zeroRange p 10 2 || 127 < x.slot || x.segs = 0 || 17 < x.segs || x.segs ≤ x.seg
      || (x.seg + 1 < x.segs && n ≠ 244) || (cell && x.dst ≠ 0xFFFF) then none
  else some x

/-- A message discarded (R175). -/
def Dev.discardMessage (d : Dev) (r : Reasm) : Dev := { d with reasm := d.reasm.erase r }.raise 0x16

/-- A segment joins its message (R175): the whole message once it is complete; a message that misses one is discarded. -/
def Dev.join (d : Dev) (l : Nat) (req : Bool) (x : Segment) : Dev × Option Bytes :=
  let mine (r : Reasm) : Bool := r.src == x.src && r.msgId == x.msgId && r.req == req && r.lane == l
  match d.reasm.find? mine with
  | none =>
    if x.seg ≠ 0 then (d.raise 0x16, none)
    else if x.segs = 1 then (d, some x.bytes)
    else
      let r : Reasm := { src := x.src, msgId := x.msgId, req := req, lane := l, slot := x.slot, at_ := d.now
                         segs := x.segs, got := 1, bytes := x.bytes }
      ({ d with reasm := d.reasm ++ [r] }, none)
  | some r =>
    if x.seg ≠ r.got || x.segs ≠ r.segs then (d.discardMessage r, none)
    else
      let rest := d.reasm.erase r
      if r.got + 1 = r.segs then ({ d with reasm := rest }, some (r.bytes ++ x.bytes))
      else ({ d with reasm := rest ++ [{ r with got := r.got + 1, bytes := r.bytes ++ x.bytes }] }, none)

/-- A request to this node is heard: it counts against the loss of the parent (R370, R371). -/
def Dev.requestHeard (d : Dev) (src : Nat) : Dev :=
  { d with group := { d.group with heardAt := d.now, parentNode := src } }

/-- A segment passed on to a unit of this node (R13): a cell keeps no address of its own, so the way back is remembered. -/
def Dev.passToSlot (d : Dev) (l : Nat) (x : Segment) (way : Nat × Nat × Nat × Nat) (p : Bytes) : Dev :=
  let payload := le 2 way.2.2.1 ++ (p.drop 2).take 2 ++ le 1 way.2.2.2 ++ p.drop 5
  let entry := (way.1, x.msgId, l, x.src)
  let others := d.relays.filter fun r => !(r.1 == way.1 && r.2.1 == x.msgId)
  let d := if way.1 < 48 then { d with relays := (others ++ [entry]).take 64 } else d
  d.queueFrame way.1 { ftype := 0x08, addr := way.2.1, rank := 5, member := 1, payload := payload }

/-- A request to the node itself: from U and the twin lanes it is a command packet of the parent session (R95, R362); the
U-holder of a pair passes it on to its partner. -/
def Dev.nodeRequest (d : Dev) (l : Nat) (x : Segment) (p : Bytes) : Dev :=
  let d := d.requestHeard x.src
  let d := if d.paired && l = laneU then
      d.queueFrame d.twinLane { ftype := 0x08, addr := 0xFFFF, rank := 5, member := 1, payload := p } else d
  match d.join l true x with
  | (d, some bytes) => d.takeBytes .parent (some (l, x.src, x.msgId)) bytes
  | (d, none) => d

/-- A request to a slot that names no unit: the message is refused with UNIT_ABSENT (R2). -/
def Dev.absentRequest (d : Dev) (l : Nat) (x : Segment) : Dev :=
  match d.join l true x with
  | (d, some bytes) =>
    if !d.portActive .parent then d
    else if bytes.length < 16 then d.discardPacket .parent 2
    else d.refusePacket (packetCtx .parent (some (l, x.src, x.msgId)) d.now bytes) stUnitAbsent
  | (d, none) => d

/-- A MANAGE_REQ for this node (R175). Cells and children have no session (R103): a request of theirs is let go. -/
def Dev.ownRequest (d : Dev) (l : Nat) (x : Segment) (p : Bytes) : Dev :=
  if l ≠ laneU && !twinLaneNo l then d
  else if x.slot = 127 then d.nodeRequest l x p
  else match d.slotRoute x.slot with
    | some way => d.passToSlot l x way p
    | none => d.absentRequest l x

/-- MANAGE_REQ (R16, R175). -/
def Dev.manageReq (d : Dev) (l : Nat) (f : RxFrame) : Dev :=
  match parseSegment (decide (l < 48)) f.payload with
  | none => d.badContent l
  | some x =>
    if treeLane l && !d.forMe f then d.passOn 0x08 5 f else d.ownRequest l x f.payload

/-- The reply of a MANAGE_FORWARD has arrived (R175): it is the reply's data, unless it would be too long. -/
def Dev.forwardDone (d : Dev) (id : Nat) (reply : Bytes) : Dev :=
  match d.parked.find? fun y => decide (y.why = .forward id) with
  | some y =>
    (if replyLimit y.ticket.src < reply.length then d.answerParked y stBadLength (refusalData 0xFFFF 0 0xFF 0)
     else d.answerParked y stOk reply).resumeParked
  | none => d

/-- A MANAGE_RESP for this node. -/
def Dev.ownReply (d : Dev) (l : Nat) (x : Segment) : Dev :=
  match d.join l false x with
  | (d, some reply) => d.forwardDone x.msgId reply
  | (d, none) => d

/-- A segment of a cell's reply goes back the way its request came. -/
def Dev.relayBack (d : Dev) (r : Nat × Nat × Nat × Nat) (x : Segment) (p : Bytes) : Dev :=
  let back := r.2.2.1
  let payload := le 2 r.2.2.2 ++ le 2 d.nodeAddr ++ p.drop 4
  let d := if x.seg + 1 = x.segs then { d with relays := d.relays.erase r } else d
  d.queueFrame back { ftype := 0x09, addr := if twinLaneNo back then 0xFFFF else r.2.2.2, rank := 5, member := 1, payload := payload }

/-- MANAGE_RESP (R16, R175, R362). -/
def Dev.manageResp (d : Dev) (l : Nat) (f : RxFrame) : Dev :=
  match parseSegment (decide (l < 48)) f.payload with
  | none => d.badContent l
  | some x =>
    if l < 48 then
      match d.relays.find? fun r => r.1 == l && r.2.1 == x.msgId with
      | some r => d.relayBack r x f.payload
      | none => d.ownReply l x
    else if twinLaneNo l then
      if x.dst = d.nodeAddr then d.ownReply l x else d.passOn 0x09 5 { f with addr := BitVec.ofNat 16 x.dst }
    else if d.forMe f then d.ownReply l x
    else d.passOn 0x09 5 f

/-- MANAGE_REQ. -/
def execManageReq (t : Nat) (lane : Fin 55) (f : RxFrame) (s : State) : Host.Outcome State Fault Refusal :=
  event t s fun d => d.receive lane 0x08 f fun d => d.manageReq lane f

/-- MANAGE_RESP. -/
def execManageResp (t : Nat) (lane : Fin 55) (f : RxFrame) (s : State) : Host.Outcome State Fault Refusal :=
  liftFuse s fun d => (d.advance t).receive lane 0x09 f fun d => d.manageResp lane f

/-- MANAGE_REASSEMBLY_TIMEOUT (R175): FRM.REASM_TO after the first segment. -/
def execManageReassemblyTimeout (t : Nat) (srcNode msgId : BitVec 16) (s : State) : Host.Outcome State Fault Refusal :=
  event t s fun d =>
    let late := d.reasm.filter fun r =>
      r.src == srcNode.toNat && r.msgId == msgId.toNat && decide (r.at_ + d.rd F.frmReasmTo * ticksMs ≤ d.now)
    late.foldl (fun d r => d.discardMessage r) d

/-! ## Cells: SAMPLE, UNIT_STATE, HEALTH, EVENT (R245, R353, R368, R414) -/

/-- The cell slot a frame names, if its lane carries it and the unit map populates it. -/
def Dev.slotNamed (d : Dev) (l : Nat) (f : RxFrame) : Option Nat :=
  match cellAddr l f with
  | some a => if a ≠ 127 && d.populated a then some a else none
  | none => none

/-- The value indices that a SAMPLE of a marker set carries (R353). -/
def Dev.setIndices (d : Dev) (set : Nat) : List Nat :=
  let first := d.rd F.measSetFirst set
  let last := d.rd F.measSetLast set
  List.range 6 ++ (if set = 0 || (first = 0 && last = 0) then [] else (List.range (last + 1 - first)).map (first + ·))

/-- A SAMPLE taken: the slot's values, from the one at the MOD.SMP0_OFS marker u_i (R236), the ledger, the triggers of fast-path slots,
the SAMPLE kept for replays. -/
def Dev.sampleValues (d : Dev) (s at_ : Nat) (first : Bool) (xs : List (Nat × Int)) : Dev :=
  let c := d.cell s
  let values := xs.foldl (fun t x => tset (fun _ => 0) t x.1 x.2) c.values
  let c := { c with values := values, sampleAt := at_, sampled := true }
  let c := if first then { c with u := tget (fun _ => 0) values 0, uAt := at_, uFresh := true } else c
  let d := d.setCell s c
  let kept := d.twin.heard.filter fun h => decide (d.now ≤ h.at_ + 8 * d.cycle)
  let new : Heard := { slot := s, at_ := at_, values := xs.map fun x => x.2 }
  let d := { d with twin := { d.twin with heard := kept ++ [new] } }
  let d := d.ledgerSample s (tget (fun _ => 0) values 4)
  let lowest (a : Nat) : Bool := (d.activeOf a).contains s
    && (d.activeOf a).all fun x => decide (d.rd F.modCCarrier s ≤ d.rd F.modCCarrier x)
  let arm := d.armOf s
  d.trigger (fun sel =>
    let i := selIndex sel
    (selClass sel == 3 && i / 64 == s && xs.any fun x => x.1 == i % 64)
      || (selClass sel == 5 && i % 8 == 4 && (match arm with | some a => a == i / 8 && lowest a | none => false))) at_

/-- The Wick epoch a cell has honoured, as its SAMPLE shows it (R385, R392). -/
def Dev.sampleEpoch (d : Dev) (s at_ epoch : Nat) : Dev :=
  let d := { d with twin := { d.twin with
    cellEpoch := max d.twin.cellEpoch epoch, cellSeen := tset (fun _ => (0, 0)) d.twin.cellSeen s (at_, epoch) } }
  (if d.rd F.twinRole = 1 && decide (d.rd F.twinEpoch < epoch) then d.superseded 0 else d).sawEpoch epoch

/-- A SAMPLE discarded (R353). -/
def Dev.sampleBad (d : Dev) : Dev := (d.bump F.measCsBad).raise 0x5D

/-- A SAMPLE matched to its marker (R353). A unit without the Wick schedules no marker and takes the SAMPLE as it comes (log
entry 50). -/
def Dev.sampleMatch (d : Dev) (s at_ : Nat) (vs : List Int) : Dev :=
  let c := d.cell s
  if !d.holdsWick then d.sampleValues s at_ true (vs.zipIdx.map fun x => (x.2, x.1))
  else match c.markers.find? fun m => m.1 == at_ with
    | none => d.sampleBad
    | some m =>
      let is := d.setIndices m.2.1
      if vs.length ≠ is.length then d.sampleBad
      else (d.setCell s { c with markers := c.markers.erase m }).sampleValues s at_ (m.2.2 != 0) (is.zip vs)

/-- SAMPLE (R174, R353). -/
def Dev.sampleFrame (d : Dev) (l : Nat) (f : RxFrame) : Dev :=
  let p := f.payload
  let m := byteAt p 12
  match d.slotNamed l f with
  | some s =>
    if l ≥ 48 || m = 0 || 60 < m || p.length ≠ 16 + 4 * m || 64 ≤ byteAt p 13 then d.badContent l
    else
      let vs := (List.range m).map fun j => s32 (leAt p (16 + 4 * j) 4)
      (d.sampleEpoch s (leAt p 0 8) (leAt p 8 4)).sampleMatch s (leAt p 0 8) vs
  | none => d.badContent l

/-- SAMPLE. -/
def execSample (t : Nat) (lane : Fin 55) (f : RxFrame) (s : State) : Host.Outcome State Fault Refusal :=
  event t s fun d => d.receive lane 0x03 f fun d => d.sampleFrame lane f

/-- A cell's UNIT_STATE (R247, R403): HEALTH 2 confirms a bypass that an expansion has sent, HEALTH 3 raises "cell failed" when it
appears. -/
def Dev.cellState (d : Dev) (s : Nat) (u : UState) : Dev :=
  let c := d.cell s
  let stage := if c.stage = 2 && c.epochs ≠ 0 && u.health = 2 then 3 else c.stage
  let d := (d.setCell s { c with health := u.health, reported := true, stage := stage }).showCell s
  if u.health = 3 && c.health ≠ 3 then d.fault 10 s else d

/-- UNIT_STATE (R174, R365, R368): from a cell, or from a child. -/
def Dev.unitState (d : Dev) (l : Nat) (f : RxFrame) : Dev :=
  match parseUState f.payload with
  | none => d.badContent l
  | some u =>
    if l < 48 then (match d.slotNamed l f with | some s => d.cellState s u | none => d.badContent l)
    else if 49 ≤ l && l < 53 then d.childReport (l - 49) u
    else d.badContent l

/-- UNIT_STATE. -/
def execUnitState (t : Nat) (lane : Fin 55) (f : RxFrame) (s : State) : Host.Outcome State Fault Refusal :=
  event t s fun d => d.receive lane 0x04 f fun d => d.unitState lane f

/-! ## The parent: UNIT_COMMAND (R362, R364) -/

/-- The packet that gives the partner a unit command (R362): WRITE_LIVE of the mailbox with AUTH Configure in session 32. -/
def relayPacket (tag : Nat) (c : UCmd) : Bytes :=
  let qs := (List.range 11).flatMap fun i => le32s (tget (fun _ => 0) c.values i)
  let body := rangeParams 0x0D10 0 15 ++ le 8 c.applyAt ++ le 4 c.seq ++ le 4 c.present ++ qs
  buildPacket 0x38 0 tag body.length authC 32 0 body

/-- The U-holder of a pair relays a command it accepts. -/
def Dev.relayCommand (d : Dev) (c : UCmd) : Dev :=
  if d.paired then
    let id := d.nextMsg
    let d := { d with nextMsg := (id + 1) % 65536 }
    (manageItems 0x08 .parent 0xFFFF d.nodeAddr d.nodeAddr 127 id (relayPacket id c)).foldl
      (fun d x => d.queueFrame d.twinLane x) d
  else d

/-- UNIT_COMMAND (R174, R364): on U, for this node or routed. -/
def Dev.unitCommand (d : Dev) (l : Nat) (f : RxFrame) : Dev :=
  if l ≠ laneU then d.badContent l
  else if !d.forMe f then d.passOn 0x02 3 f
  else match parseCommand f.payload with
    | none => d.badContent l
    | some c => if d.stale c then d.parentCommand c else (d.parentCommand c).relayCommand c

/-- UNIT_COMMAND. -/
def execUnitCommand (t : Nat) (lane : Fin 55) (f : RxFrame) (s : State) : Host.Outcome State Fault Refusal :=
  event t s fun d => d.receive lane 0x02 f fun d => d.unitCommand lane f

/-! ## The partner: WICK, HEALTH, STATE_COPY, DIGEST (R381, R385, R387, R396) -/

/-- WICK (R174, R381, R385): from the partner only. -/
def Dev.wickFrame (d : Dev) (l : Nat) (f : RxFrame) : Dev :=
  let p := f.payload
  let lease := byteAt p 15
  if !twinLaneNo l || p.length ≠ 24 || 1 < byteAt p 14 || lease = 0 || 64 < lease then d.badContent l
  else
    let epoch := leAt p 0 4
    let d := { d with twin := { d.twin with
      wickAt := some d.now, wickExpiry := leAt p 4 8, wickEpoch := epoch } }
    let d := d.wr F.twinPartnerRole 1
    (if d.rd F.twinRole = 1 && decide (d.rd F.twinEpoch < epoch) then d.superseded 1 else d).sawEpoch epoch

/-- WICK. -/
def execWick (t : Nat) (lane : Fin 55) (f : RxFrame) (s : State) : Host.Outcome State Fault Refusal :=
  event t s fun d => d.receive lane 0x05 f fun d => d.wickFrame lane f

/-- A Pilot report from the partner (R391, R396): kept; one with a divergence pending starts Flame's self-check. -/
def Dev.partnerReport (d : Dev) (p : Bytes) : Dev :=
  let b := byteAt p 13
  let d := { d with twin := { d.twin with report := p, reportAt := some d.now } }
  let d := (d.wr F.twinPartnerRole (byteAt p 12)).wr F.twinPilotAt (leAt p 0 4)
  let d := if b.testBit 6 then { d with group := { d.group with partnerOpen := b.testBit 7 } }.partnerSession else d
  if d.rd F.twinRole = 1 && b.testBit 5 && !d.twin.checking then
    { d with twin := { d.twin with checking := true, checkResult := 0, checkAt := d.now } }
  else d

/-- HEALTH (R174, R396): a cell's report, or the partner's Pilot report. -/
def Dev.healthFrame (d : Dev) (l : Nat) (f : RxFrame) : Dev :=
  let p := f.payload
  if l < 48 then
    match cellAddr l f with
    | some a =>
      if p.length ≠ 32 || !zeroRange p 30 2 then d.badContent l
      else
        let s := if a = 127 then 2 * l else a
        d.setCell s { d.cell s with healthReport := p }
    | none => d.badContent l
  else if twinLaneNo l && p.length = 52 && zeroRange p 15 1 then d.partnerReport p
  else d.badContent l

/-- HEALTH. -/
def execHealth (t : Nat) (lane : Fin 55) (f : RxFrame) (s : State) : Host.Outcome State Fault Refusal :=
  event t s fun d => d.receive lane 0x0B f fun d => d.healthFrame lane f

/-- STATE_COPY (R174, R387): from Flame to Pilot. -/
def Dev.stateCopyFrame (d : Dev) (l : Nat) (f : RxFrame) : Dev :=
  let p := f.payload
  if !twinLaneNo l || d.holdsWick || p.length < 17 || 256 < p.length || !zeroRange p 12 4 || leAt p 10 2 ≤ leAt p 8 2 then
    d.badContent l
  else d.copyChunk p

/-- STATE_COPY. -/
def execStateCopy (t : Nat) (lane : Fin 55) (f : RxFrame) (s : State) : Host.Outcome State Fault Refusal :=
  event t s fun d => d.receive lane 0x0C f fun d => d.stateCopyFrame lane f

/-- DIGEST (R174, R390): from Flame to Pilot. -/
def Dev.digestContent (d : Dev) (l : Nat) (f : RxFrame) : Dev :=
  let p := f.payload
  let n := byteAt p 5
  if !twinLaneNo l || d.holdsWick || n = 0 || 31 < n || p.length ≠ 8 + 8 * n || !zeroRange p 6 2 then d.badContent l
  else d.digestFrame p

/-- DIGEST. -/
def execDigest (t : Nat) (lane : Fin 55) (f : RxFrame) (s : State) : Host.Outcome State Fault Refusal :=
  event t s fun d => d.receive lane 0x0D f fun d => d.digestContent lane f

/-! ## TELEMETRY and EVENT (R414, R418, R469) -/

/-- TELEMETRY from a child (R469): toward U unchanged. -/
def Dev.telemetryFrame (d : Dev) (l : Nat) (f : RxFrame) : Dev :=
  let p := f.payload
  if l < 49 || 52 < l || p.length < 17 || 256 < p.length || !zeroRange p 12 4 then d.badContent l
  else if d.on F.laneEn laneU then d.forward laneU { ftype := 0x0E, addr := f.addr.toNat, rank := 6, payload := p }
  else d.routeMiss

/-- TELEMETRY. -/
def execTelemetry (t : Nat) (lane : Fin 55) (f : RxFrame) (s : State) : Host.Outcome State Fault Refusal :=
  event t s fun d => d.receive lane 0x0E f fun d => d.telemetryFrame lane f

/-- A cell event record (R414): severity 2 raises class 10, 0 and 1 event source 0xA3. -/
def Dev.cellEvent (d : Dev) (l : Nat) (p : Bytes) : Dev :=
  let slot := byteAt p 2
  let sev := byteAt p 14
  let data := leAt p 12 8
  if p.length ≠ 20 || !zeroRange p 3 1 || !zeroRange p 15 1 || 2 < sev || (slot ≠ 127 && slot / 2 ≠ l) then d.badContent l
  else if sev < 2 then d.raise 0xA3 data
  else if d.populated slot then d.fault 10 slot data
  else d.badContent l

/-- An EVENT record received for this node (R418, R466): into queue 18, or dropped for want of room. -/
def Dev.remoteEvent (d : Dev) (p : Bytes) : Dev :=
  if d.queueRoom 18 (entriesOf p.length) then ((d.putPacket 18 p).raise 0xA4).raise 0xB0
  else (d.bump F.queDropped 18).raise 0xB2

/-- EVENT (R174, R414, R418). -/
def Dev.eventFrame (d : Dev) (l : Nat) (f : RxFrame) : Dev :=
  let p := f.payload
  if l < 48 then d.cellEvent l p
  else if p.length < 5 || 256 < p.length || !zeroRange p 3 1 then d.badContent l
  else if twinLaneNo l || d.forMe f then d.remoteEvent p
  else d.passOn 0x0F 2 f

/-- EVENT. -/
def execEvent (t : Nat) (lane : Fin 55) (f : RxFrame) (s : State) : Host.Outcome State Fault Refusal :=
  event t s fun d => d.receive lane 0x0F f fun d => d.eventFrame lane f

/-! ## DOUSE (R184, R185) -/

/-- A DOUSE block on U (R403): the class is raised when the cause of its level becomes active. -/
def Dev.parentDouse (d : Dev) (level : Nat) : Dev :=
  let src := level - 3
  let standing := d.causeActive 7 src
  let old := if d.douseFresh then d.coll.douseULevels else 0
  let d := { d with coll := { d.coll with douseUAt := some d.now, douseULevels := old ||| 2 ^ src } }
  if standing then d else d.fault 7 src

/-- DOUSE: a valid block on a lane that holds lock (R185). -/
def Dev.douseSeen (d : Dev) (l level : Nat) : Dev :=
  let d := d.wr F.frmDouseSeen 1 l
  if l < 48 then d.bump F.laneBlocksUnk l
  else if l = laneU then d.parentDouse level
  else d.raise 0x15

/-- DOUSE. A block whose INDEX or LEVEL is none of R184's is one of no good. -/
def execDouse (t : Nat) (lane : Fin 55) (index level _epoch : Byte) (_node : BitVec 16) (s : State) :
    Host.Outcome State Fault Refusal :=
  event t s fun d =>
    if !d.on F.laneLocked lane then d
    else if 7 < index.toNat || (level.toNat ≠ 3 && level.toNat ≠ 4) then d.bump F.laneBlocksUnk lane
    else d.douseSeen lane level.toNat

end Sys2Proof.Machine
end

