-- ==== Sys2Proof/Machine/Dispatch.lean ====
section
/-!
DEFINITION. Machine/Dispatch.lean: one arm per command, in the order of the opcode table.
-/
namespace Sys2Proof.Machine

def exec (i : Instr) (s : State) : Host.Outcome State Fault Refusal :=
  match i with
  | .sparkStart t refSel => Sys2Proof.Machine.execSparkStart t refSel s
  | .deviceReset t cause => Sys2Proof.Machine.execDeviceReset t cause s
  | .supplyOutOfRange t rail => Sys2Proof.Machine.execSupplyOutOfRange t rail s
  | .fuseReadDone t outcome => Sys2Proof.Machine.execFuseReadDone t outcome s
  | .sparkPllTimeout t => Sys2Proof.Machine.execSparkPllTimeout t s
  | .pllLocked t found => Sys2Proof.Machine.execPllLocked t found s
  | .bandTableLockTimeout t => Sys2Proof.Machine.execBandTableLockTimeout t s
  | .rampEnd t => Sys2Proof.Machine.execRampEnd t s
  | .sramInitDone t => Sys2Proof.Machine.execSramInitDone t s
  | .kindleHeaderRead t slotB block => Sys2Proof.Machine.execKindleHeaderRead t slotB block s
  | .kindleBlockRead t block => Sys2Proof.Machine.execKindleBlockRead t block s
  | .signatureVerified t key signature => Sys2Proof.Machine.execSignatureVerified t key signature s
  | .dramTrainingDone t passed ranks mib => Sys2Proof.Machine.execDramTrainingDone t passed ranks mib s
  | .light t image => Sys2Proof.Machine.execLight t image s
  | .refRecoveredClockMissing t => Sys2Proof.Machine.execRefRecoveredClockMissing t s
  | .refFrequencyWindow t ppmOff => Sys2Proof.Machine.execRefFrequencyWindow t ppmOff s
  | .refRestore t => Sys2Proof.Machine.execRefRestore t s
  | .localRefLost ref => Sys2Proof.Machine.execLocalRefLost ref s
  | .pllLockLost t => Sys2Proof.Machine.execPllLockLost t s
  | .lockNotRegained t => Sys2Proof.Machine.execLockNotRegained t s
  | .clockMonitorCheck t bad => Sys2Proof.Machine.execClockMonitorCheck t bad s
  | .dieTemperatureUpdate t t0 t1 t2 t3 => Sys2Proof.Machine.execDieTemperatureUpdate t t0 t1 t2 t3 s
  | .controlCycleBoundary t => Sys2Proof.Machine.execControlCycleBoundary t s
  | .edgeExpansion t => Sys2Proof.Machine.execEdgeExpansion t s
  | .stepWaitExpiry t => Sys2Proof.Machine.execStepWaitExpiry t s
  | .prechargeTimeout t => Sys2Proof.Machine.execPrechargeTimeout t s
  | .rideThroughExceeded t => Sys2Proof.Machine.execRideThroughExceeded t s
  | .rideThroughRecovered t => Sys2Proof.Machine.execRideThroughRecovered t s
  | .cellSamplesLost t slot => Sys2Proof.Machine.execCellSamplesLost t slot s
  | .bypassUnconfirmed t slot => Sys2Proof.Machine.execBypassUnconfirmed t slot s
  | .reinsertRampEnd t slot => Sys2Proof.Machine.execReinsertRampEnd t slot s
  | .fastPathTrigger t slot => Sys2Proof.Machine.execFastPathTrigger t slot s
  | .faultClassify t extra => Sys2Proof.Machine.execFaultClassify t extra s
  | .writePacket t bytes => Sys2Proof.Machine.execWritePacket t bytes s
  | .readReply t complete => Sys2Proof.Machine.execReadReply t complete s
  | .readStatus t => Sys2Proof.Machine.execReadStatus t s
  | .badInstruction t code => Sys2Proof.Machine.execBadInstruction t code s
  | .commandDatagram t dst src dstPort srcPort fragment tag bytes => Sys2Proof.Machine.execCommandDatagram t dst src dstPort srcPort fragment tag bytes s
  | .ping t src h => Sys2Proof.Machine.execPing t src h s
  | .getCaps t src h => Sys2Proof.Machine.execGetCaps t src h s
  | .getIdentity t src h => Sys2Proof.Machine.execGetIdentity t src h s
  | .openSession t src h authority => Sys2Proof.Machine.execOpenSession t src h authority s
  | .closeSession t src h => Sys2Proof.Machine.execCloseSession t src h s
  | .listSessions t src h => Sys2Proof.Machine.execListSessions t src h s
  | .stageWords t src h so first values => Sys2Proof.Machine.execStageWords t src h so first values s
  | .stageFields t src h entries => Sys2Proof.Machine.execStageFields t src h entries s
  | .stageModeReq t src h mode => Sys2Proof.Machine.execStageModeReq t src h mode s
  | .unstage t src h so first count => Sys2Proof.Machine.execUnstage t src h so first count s
  | .check t src h => Sys2Proof.Machine.execCheck t src h s
  | .commitNow t src h => Sys2Proof.Machine.execCommitNow t src h s
  | .commitAt t src h kind instant => Sys2Proof.Machine.execCommitAt t src h kind instant s
  | .disarm t src h => Sys2Proof.Machine.execDisarm t src h s
  | .discard t src h => Sys2Proof.Machine.execDiscard t src h s
  | .readWords t src h so first count => Sys2Proof.Machine.execReadWords t src h so first count s
  | .readStaged t src h so first count => Sys2Proof.Machine.execReadStaged t src h so first count s
  | .readBasketIndex t src h first => Sys2Proof.Machine.execReadBasketIndex t src h first s
  | .readDirectory t src h first => Sys2Proof.Machine.execReadDirectory t src h first s
  | .writeLive t src h so first values => Sys2Proof.Machine.execWriteLive t src h so first values s
  | .reqMode t src h mode => Sys2Proof.Machine.execReqMode t src h mode s
  | .getMode t src h => Sys2Proof.Machine.execGetMode t src h s
  | .stepRun t src h first => Sys2Proof.Machine.execStepRun t src h first s
  | .stepContinue t src h => Sys2Proof.Machine.execStepContinue t src h s
  | .stepAbort t src h => Sys2Proof.Machine.execStepAbort t src h s
  | .tuneWord t src h slot word value => Sys2Proof.Machine.execTuneWord t src h slot word value s
  | .tuneWords t src h entries => Sys2Proof.Machine.execTuneWords t src h entries s
  | .tuneRead t src h slot => Sys2Proof.Machine.execTuneRead t src h slot s
  | .calRead t src h offset length => Sys2Proof.Machine.execCalRead t src h offset length s
  | .calWrite t src h page bytes => Sys2Proof.Machine.execCalWrite t src h page bytes s
  | .calWriteDone t verified => Sys2Proof.Machine.execCalWriteDone t verified s
  | .calWear t src h => Sys2Proof.Machine.execCalWear t src h s
  | .getTime t src h => Sys2Proof.Machine.execGetTime t src h s
  | .setTpo t src h index mode start period => Sys2Proof.Machine.execSetTpo t src h index mode start period s
  | .readTci t src h index => Sys2Proof.Machine.execReadTci t src h index s
  | .ptpStatus t src h => Sys2Proof.Machine.execPtpStatus t src h s
  | .readFaults t src h => Sys2Proof.Machine.execReadFaults t src h s
  | .readHistory t src h first count => Sys2Proof.Machine.execReadHistory t src h first count s
  | .ackFault t src h mask => Sys2Proof.Machine.execAckFault t src h mask s
  | .clearFault t src h mask => Sys2Proof.Machine.execClearFault t src h mask s
  | .readEventRoute t src h first count => Sys2Proof.Machine.execReadEventRoute t src h first count s
  | .eventSubscribe t src h mask => Sys2Proof.Machine.execEventSubscribe t src h mask s
  | .twinStatus t src h => Sys2Proof.Machine.execTwinStatus t src h s
  | .twinSelftest t src h => Sys2Proof.Machine.execTwinSelftest t src h s
  | .pilotReport t src h => Sys2Proof.Machine.execPilotReport t src h s
  | .markUnfit t src h => Sys2Proof.Machine.execMarkUnfit t src h s
  | .laneStatus t src h first count => Sys2Proof.Machine.execLaneStatus t src h first count s
  | .laneLoopback t src h lane kind => Sys2Proof.Machine.execLaneLoopback t src h lane kind s
  | .unitStatus t src h first count => Sys2Proof.Machine.execUnitStatus t src h first count s
  | .unitBypass t src h slot => Sys2Proof.Machine.execUnitBypass t src h slot s
  | .unitReinsert t src h slot => Sys2Proof.Machine.execUnitReinsert t src h slot s
  | .manageForward t src h node slot inner => Sys2Proof.Machine.execManageForward t src h node slot inner s
  | .manageForwardTimeout t msgId => Sys2Proof.Machine.execManageForwardTimeout t msgId s
  | .laneRetrain t src h lane => Sys2Proof.Machine.execLaneRetrain t src h lane s
  | .memStatus t src h => Sys2Proof.Machine.execMemStatus t src h s
  | .memRead t src h address length => Sys2Proof.Machine.execMemRead t src h address length s
  | .memWrite t src h address bytes => Sys2Proof.Machine.execMemWrite t src h address bytes s
  | .eccTestWrite t src h address checkBits bytes => Sys2Proof.Machine.execEccTestWrite t src h address checkBits bytes s
  | .acqArm t src h => Sys2Proof.Machine.execAcqArm t src h s
  | .acqStop t src h => Sys2Proof.Machine.execAcqStop t src h s
  | .acqStatus t src h => Sys2Proof.Machine.execAcqStatus t src h s
  | .acqRead t src h segment offset length => Sys2Proof.Machine.execAcqRead t src h segment offset length s
  | .histRead t src h unit first count => Sys2Proof.Machine.execHistRead t src h unit first count s
  | .afterglowRead t src h map first rows => Sys2Proof.Machine.execAfterglowRead t src h map first rows s
  | .queueStatus t src h first count => Sys2Proof.Machine.execQueueStatus t src h first count s
  | .queueRead t src h queue maximum => Sys2Proof.Machine.execQueueRead t src h queue maximum s
  | .safeStatus t src h => Sys2Proof.Machine.execSafeStatus t src h s
  | .safeTest t src h switch => Sys2Proof.Machine.execSafeTest t src h switch s
  | .safeAck t src h => Sys2Proof.Machine.execSafeAck t src h s
  | .breakerClose t src h => Sys2Proof.Machine.execBreakerClose t src h s
  | .breakerTrip t src h => Sys2Proof.Machine.execBreakerTrip t src h s
  | .reset t src h kind => Sys2Proof.Machine.execReset t src h kind s
  | .resetDelayExpiry t => Sys2Proof.Machine.execResetDelayExpiry t s
  | .imageBegin t src h length => Sys2Proof.Machine.execImageBegin t src h length s
  | .imageEraseDone t ok => Sys2Proof.Machine.execImageEraseDone t ok s
  | .imageWrite t src h first blocks => Sys2Proof.Machine.execImageWrite t src h first blocks s
  | .imageFinish t src h block0 => Sys2Proof.Machine.execImageFinish t src h block0 s
  | .imageStatus t src h => Sys2Proof.Machine.execImageStatus t src h s
  | .fuseKeyHash t src h hash => Sys2Proof.Machine.execFuseKeyHash t src h hash s
  | .fuseSignedBoot t src h => Sys2Proof.Machine.execFuseSignedBoot t src h s
  | .netSessionTimeout t session => Sys2Proof.Machine.execNetSessionTimeout t session s
  | .arpRefresh t entry => Sys2Proof.Machine.execArpRefresh t entry s
  | .arpFrame t request src dst tag => Sys2Proof.Machine.execArpFrame t request src dst tag s
  | .icmpEcho t src dst tag bytes => Sys2Proof.Machine.execIcmpEcho t src dst tag bytes s
  | .ptpMessage t m => Sys2Proof.Machine.execPtpMessage t m s
  | .ptpMessageInterval t kind => Sys2Proof.Machine.execPtpMessageInterval t kind s
  | .ptpAnnounceTimeout t => Sys2Proof.Machine.execPtpAnnounceTimeout t s
  | .timeSyncInterval t => Sys2Proof.Machine.execTimeSyncInterval t s
  | .timeSourceLost t => Sys2Proof.Machine.execTimeSourceLost t s
  | .tpoFiring t output => Sys2Proof.Machine.execTpoFiring t output s
  | .tpoPulseEnd t output => Sys2Proof.Machine.execTpoPulseEnd t output s
  | .tciEdge t input rising => Sys2Proof.Machine.execTciEdge t input rising s
  | .setNet t src h lo hi => Sys2Proof.Machine.execSetNet t src h lo hi s
  | .acceptNext t src h value => Sys2Proof.Machine.execAcceptNext t src h value s
  | .laneSignalDetect t lane => Sys2Proof.Machine.execLaneSignalDetect t lane s
  | .laneBlockLock t lane => Sys2Proof.Machine.execLaneBlockLock t lane s
  | .laneLockLost t lane => Sys2Proof.Machine.execLaneLockLost t lane s
  | .rehuntTimeout t lane => Sys2Proof.Machine.execRehuntTimeout t lane s
  | .train t lane phase caps rate role port count => Sys2Proof.Machine.execTrain t lane phase caps rate role port count s
  | .laneQuietEnd t lane => Sys2Proof.Machine.execLaneQuietEnd t lane s
  | .laneVerifyPassed t lane => Sys2Proof.Machine.execLaneVerifyPassed t lane s
  | .laneAttemptTimeout t lane => Sys2Proof.Machine.execLaneAttemptTimeout t lane s
  | .laneFailedHoldEnd t lane => Sys2Proof.Machine.execLaneFailedHoldEnd t lane s
  | .laneIdleTimeout t lane => Sys2Proof.Machine.execLaneIdleTimeout t lane s
  | .wake t lane => Sys2Proof.Machine.execWake t lane s
  | .laneWakeTimeout t lane => Sys2Proof.Machine.execLaneWakeTimeout t lane s
  | .laneFrameTransmit t lane => Sys2Proof.Machine.execLaneFrameTransmit t lane s
  | .ack t lane seq => Sys2Proof.Machine.execAck t lane seq s
  | .nak t lane seq => Sys2Proof.Machine.execNak t lane seq s
  | .replayTimeout t lane => Sys2Proof.Machine.execReplayTimeout t lane s
  | .douse t lane index level epoch node => Sys2Proof.Machine.execDouse t lane index level epoch node s
  | .unitCommand t lane f => Sys2Proof.Machine.execUnitCommand t lane f s
  | .sample t lane f => Sys2Proof.Machine.execSample t lane f s
  | .unitState t lane f => Sys2Proof.Machine.execUnitState t lane f s
  | .wick t lane f => Sys2Proof.Machine.execWick t lane f s
  | .timeSync t lane f => Sys2Proof.Machine.execTimeSync t lane f s
  | .timeResp t lane f => Sys2Proof.Machine.execTimeResp t lane f s
  | .manageReq t lane f => Sys2Proof.Machine.execManageReq t lane f s
  | .manageResp t lane f => Sys2Proof.Machine.execManageResp t lane f s
  | .manageReassemblyTimeout t srcNode msgId => Sys2Proof.Machine.execManageReassemblyTimeout t srcNode msgId s
  | .health t lane f => Sys2Proof.Machine.execHealth t lane f s
  | .stateCopy t lane f => Sys2Proof.Machine.execStateCopy t lane f s
  | .digest t lane f => Sys2Proof.Machine.execDigest t lane f s
  | .telemetry t lane f => Sys2Proof.Machine.execTelemetry t lane f s
  | .event t lane f => Sys2Proof.Machine.execEvent t lane f s
  | .pilotReplay t => Sys2Proof.Machine.execPilotReplay t s
  | .selftestDone t passed => Sys2Proof.Machine.execSelftestDone t passed s
  | .flameSelftestTimeout t => Sys2Proof.Machine.execFlameSelftestTimeout t s
  | .testSlice t passed => Sys2Proof.Machine.execTestSlice t passed s
  | .pilotReportSend t => Sys2Proof.Machine.execPilotReportSend t s
  | .standbyLoopbackTest t failed => Sys2Proof.Machine.execStandbyLoopbackTest t failed s
  | .twinLinkLost t => Sys2Proof.Machine.execTwinLinkLost t s
  | .leaseExpiry t => Sys2Proof.Machine.execLeaseExpiry t s
  | .mailboxWrite t src h words => Sys2Proof.Machine.execMailboxWrite t src h words s
  | .childReportTimeout t port => Sys2Proof.Machine.execChildReportTimeout t port s
  | .childReturnRampEnd t port => Sys2Proof.Machine.execChildReturnRampEnd t port s
  | .parentLost t => Sys2Proof.Machine.execParentLost t s
  | .uHoldExpiry t => Sys2Proof.Machine.execUHoldExpiry t s
  | .legZeroEvent t leg => Sys2Proof.Machine.execLegZeroEvent t leg s
  | .legCompareAction t leg b => Sys2Proof.Machine.execLegCompareAction t leg b s
  | .legDeadTimeEnd t leg => Sys2Proof.Machine.execLegDeadTimeEnd t leg s
  | .legPrimeEnd t leg => Sys2Proof.Machine.execLegPrimeEnd t leg s
  | .legBlankEnd t leg => Sys2Proof.Machine.execLegBlankEnd t leg s
  | .legCurrentCut t leg active => Sys2Proof.Machine.execLegCurrentCut t leg active s
  | .legShortCircuit t leg dsat active => Sys2Proof.Machine.execLegShortCircuit t leg dsat active s
  | .legTrippedClear t src h leg => Sys2Proof.Machine.execLegTrippedClear t src h leg s
  | .legCompareWrite t src h leg cmpA cmpB => Sys2Proof.Machine.execLegCompareWrite t src h leg cmpA cmpB s
  | .legForce t src h leg en gh gl => Sys2Proof.Machine.execLegForce t src h leg en gh gl s
  | .pumpDelayExpiry t leg => Sys2Proof.Machine.execPumpDelayExpiry t leg s
  | .dcovBrakeCrossing t input above => Sys2Proof.Machine.execDcovBrakeCrossing t input above s
  | .brkMinOnExpiry t => Sys2Proof.Machine.execBrkMinOnExpiry t s
  | .dcLinkOverVoltage t input active => Sys2Proof.Machine.execDcLinkOverVoltage t input active s
  | .brakeHeatTick t on => Sys2Proof.Machine.execBrakeHeatTick t on s
  | .channelOutput t chan bits => Sys2Proof.Machine.execChannelOutput t chan bits s
  | .channelOverCurrent t chan bits => Sys2Proof.Machine.execChannelOverCurrent t chan bits s
  | .modulatorStreamLost t chan => Sys2Proof.Machine.execModulatorStreamLost t chan s
  | .modulatorStreamResumed t chan => Sys2Proof.Machine.execModulatorStreamResumed t chan s
  | .tallowCheckpointDue t => Sys2Proof.Machine.execTallowCheckpointDue t s
  | .ckptNow t src h value => Sys2Proof.Machine.execCkptNow t src h value s
  | .tallowCheckpointDone t ok => Sys2Proof.Machine.execTallowCheckpointDone t ok s
  | .tallowCheckpointRetry t => Sys2Proof.Machine.execTallowCheckpointRetry t s
  | .ledgerRestoreDone t sector bytes => Sys2Proof.Machine.execLedgerRestoreDone t sector bytes s
  | .ledgerClr t src h value => Sys2Proof.Machine.execLedgerClr t src h value s
  | .guardChange t a b => Sys2Proof.Machine.execGuardChange t a b s
  | .guardDiscrepancy t => Sys2Proof.Machine.execGuardDiscrepancy t s
  | .guardHoldExpiry t => Sys2Proof.Machine.execGuardHoldExpiry t s
  | .safeRstRelease t pressTicks => Sys2Proof.Machine.execSafeRstRelease t pressTicks s
  | .resetInputStuck t => Sys2Proof.Machine.execResetInputStuck t s
  | .watchdogExpiry t => Sys2Proof.Machine.execWatchdogExpiry t s
  | .watchdogReset t => Sys2Proof.Machine.execWatchdogReset t s
  | .bkrAuxChange t closed => Sys2Proof.Machine.execBkrAuxChange t closed s
  | .tripRelease t atMax => Sys2Proof.Machine.execTripRelease t atMax s
  | .tripRepeat t => Sys2Proof.Machine.execTripRepeat t s
  | .closePulseEnd t => Sys2Proof.Machine.execClosePulseEnd t s
  | .switchFeedbackMismatch t switch => Sys2Proof.Machine.execSwitchFeedbackMismatch t switch s
  | .switchTestStep t senseOn senseOffInTime => Sys2Proof.Machine.execSwitchTestStep t senseOn senseOffInTime s
  | .periodicSwitchTest t => Sys2Proof.Machine.execPeriodicSwitchTest t s
  | .lvcClose t src h value => Sys2Proof.Machine.execLvcClose t src h value s
  | .contactorMismatch t contactor => Sys2Proof.Machine.execContactorMismatch t contactor s
  | .evcArm t src h value => Sys2Proof.Machine.execEvcArm t src h value s
  | .clkEn t src h output value => Sys2Proof.Machine.execClkEn t src h output value s
  | .sramScrubStep t bank word outcome overwritten passDone => Sys2Proof.Machine.execSramScrubStep t bank word outcome overwritten passDone s
  | .dramScrubStep t page outcome overwritten passDone => Sys2Proof.Machine.execDramScrubStep t page outcome overwritten passDone s
  | .dramScrubWake t => Sys2Proof.Machine.execDramScrubWake t s
  | .dramSelfRefresh t => Sys2Proof.Machine.execDramSelfRefresh t s
  | .queueHeadRefill t queue outcome => Sys2Proof.Machine.execQueueHeadRefill t queue outcome s
  | .telemetryDatagramTimeout t => Sys2Proof.Machine.execTelemetryDatagramTimeout t s
  | .acqSample t => Sys2Proof.Machine.execAcqSample t s
  | .acqRearmDone t => Sys2Proof.Machine.execAcqRearmDone t s
  | .acqSegmentDrained t => Sys2Proof.Machine.execAcqSegmentDrained t s
  | .acqClear t src h value => Sys2Proof.Machine.execAcqClear t src h value s
  | .acqClearDone t => Sys2Proof.Machine.execAcqClearDone t s
  | .frameDiscarded t lane why => Sys2Proof.Machine.execFrameDiscarded t lane why s
  | .invalidBlock t lane why => Sys2Proof.Machine.execInvalidBlock t lane why s
  | .imageProgramDone t ok => Sys2Proof.Machine.execImageProgramDone t ok s
  | .lvcFbChange t contactor level => Sys2Proof.Machine.execLvcFbChange t contactor level s
  | .acTestInstruction t instruction => Sys2Proof.Machine.execAcTestInstruction t instruction s
  | .netLinkChange t speedMbps fullDuplex => Sys2Proof.Machine.execNetLinkChange t speedMbps fullDuplex s

end Sys2Proof.Machine
end

