-- ==== Sys2Proof/Machine/Step.lean ====
section
/-!
DEFINITION. Machine/Step.lean: one step of the block: the command at the front of the queue, or, with none waiting,
one EDGE cycle of fabric time.
-/
namespace Sys2Proof.Machine

/-- With no command waiting the block only lets fabric time pass: one EDGE cycle while the counter runs (R196, R200;
log entry 2). -/
def State.idle (s : State) : State := if s.dev.timeRuns then { s with dev := s.dev.idleTick } else s

/-- One step: the front command runs on the state with the queue's rest; on an empty queue the block idles. -/
def step (s : State) : Host.Outcome State Fault Refusal :=
  match s.pending with
  | [] => .next s.idle
  | c :: rest => exec c { s with pending := rest }

/-- The state with the command that a word spells at the front of its queue; unchanged where the word spells none. -/
def State.withFetchWord (s : State) (nbits w : Nat) : State :=
  match Sys2Proof.decodeTableWord nbits w with
  | some c => { s with pending := c :: s.pending }
  | none => s

end Sys2Proof.Machine
end

