-- ==== Sys2Proof/Safety.lean ====
section
/-!
DEFINITION. Safety.lean: the terms in which claims are stated: when a packet of an opcode row is admitted, what the block is when
its handler runs, the state in which it has been answered; what the fuses and the registers always satisfy.
-/
namespace Sys2Proof.Machine

/-- A packet of an opcode row: its opcode, instant, port, header and parameters, and what R114 asks of its sender. -/
structure Pkt where
  op : Nat
  t : Nat
  src : Src
  hd : Hdr
  payload : Bytes := []
  need : OpNeed := {}

/-- The block at the instant of the packet. -/
def Pkt.arrived (p : Pkt) (s : State) : Dev := s.dev.advance p.t

/-- The header the interpreter works from. -/
def Pkt.ctx (p : Pkt) (s : State) : Ctx := (p.arrived s).ctx p.op p.src p.hd p.payload

/-- Who its reply goes to. -/
def Pkt.ticket (p : Pkt) (s : State) : Ticket := (p.ctx s).ticket

/-- The block once the packet has entered its window. -/
def Pkt.entered (p : Pkt) (s : State) : Dev := (p.arrived s).enter (p.ctx s)

/-- The block as the opcode's own effect finds it. -/
def Pkt.taken (p : Pkt) (s : State) : Dev := (p.entered s).serviced

/-- The packet passes R100: its port takes packets, its length and that of the reply it asks for suit the port, its header is clean and
it is no duplicate, its window has credit, the reply queue of the host has room, no check of steps 3 to 8 refuses it and no firmware
fault strikes it (R102). -/
def Pkt.Admitted (p : Pkt) (s : State) : Prop :=
  (p.arrived s).portActive p.src = true ∧ lengthsFit p.src p.payload p.need = true
    ∧ (p.arrived s).duplicate (p.ticket s) = none
    ∧ (p.arrived s).hasCredit (windowOf p.src p.hd.session.toNat) = true
    ∧ (p.src = .host → (p.entered s).replyRoom p.op = true)
    ∧ (p.entered s).precheck (p.ctx s) p.need = none
    ∧ (p.entered s).ports.internalDue = false

/-- The state in which the packet has been answered with a status and data, the opcode having left the block as d. -/
def Pkt.answered (p : Pkt) (s : State) (d : Dev) (status : Nat) (data : Bytes) : State :=
  { s with dev := d.sendReply (p.ticket s) status data }

/-- The state in which the packet waits among the parked (R111). -/
def Pkt.parkedIn (p : Pkt) (s : State) (d : Dev) (why : Park) : State :=
  { s with dev := { d with parked := d.parked ++ [{ ticket := p.ticket s, why := why }] } }

/-- No check of a list refuses. -/
def passes (checks : List (Option HRes)) : Prop := ∀ x ∈ checks, x = none

/-- e is b but for register words. -/
def Dev.OnlyRegs (b e : Dev) : Prop := ∃ r, e = { b with regs := r }

/-- The fuses never hold signed boot without a locked key hash, and a locked hash has its eight words (R48). -/
def Fuse.sound (f : Fuse) : Prop :=
  (f.signedBoot = true → f.keyLocked = true) ∧ (f.keyHash.length = 8 ∨ f.keyHash = [] ∧ f.keyLocked = false)

/-- What has been programmed in f still stands in g: fuses are never cleared, and those of the vendor never change (R48). -/
def Fuse.keeps (f g : Fuse) : Prop :=
  (f.signedBoot = true → g.signedBoot = true) ∧ (f.keyLocked = true → g.keyLocked = true ∧ g.keyHash = f.keyHash)
    ∧ (f.part ≠ none → g.part = f.part)

end Sys2Proof.Machine
end

