-- ==== Sys2Proof/WellFormed.lean ====
section
/-!
DEFINITION. WellFormed.lean: which terms of Instr stand for something that can reach the block. Everything a sender can put into
a packet or a frame is well-formed, whatever its length; only event rows carry numbers that the world outside bounds. No meaning
asks for well-formedness: exec answers every term.
-/
namespace Sys2Proof

/-- A fuse read that a part can give (R46, R458): at most 96 banks, each with repairs within its 8 spare rows and 2 spare columns. -/
def FuseRead.wf (r : FuseRead) : Bool :=
  decide (r.spares.length ≤ 96) && r.spares.all fun x => decide (x.1 ≤ 8) && decide (x.2 ≤ 2)

/-- The longest UDP payload and the longest echo data that one IPv4 packet carries. -/
def ipv4Payload : Nat := 65507

/-- A well-formed command. -/
def Instr.wf (i : Instr) : Bool :=
  match i with
  | .fuseReadDone _ (some (r, _)) => r.wf
  | .kindleHeaderRead _ _ block => decide (block.length = 256)
  | .kindleBlockRead _ block => decide (block.length = 256)
  | .dramTrainingDone _ _ _ mib => decide (mib ≤ 8192)
  | .badInstruction _ code => decide (3 ≤ code.toNat / 64) || decide (code.toNat % 64 = 0) || decide (3 < code.toNat % 64)
  | .commandDatagram _ _ _ _ _ _ _ bytes => decide (bytes.length ≤ ipv4Payload)
  | .icmpEcho _ _ _ _ bytes => decide (bytes.length ≤ ipv4Payload)
  | .ptpMessage _ m => decide (m.nanos < 1000000000)
  | _ => true

end Sys2Proof
end

