-- ==== Sys2Proof/Certificates/Slice0/Obligations.lean ====
section
/-!
DEFINITION. Certificates/Slice0/Obligations.lean: the statements for the provers. Each says in its docstring which rule of the
spec it formalises, or that it rests on a choice of the model and which log entry declares it.
-/
open Sys2Proof Sys2Proof.Machine

/-! ## The opcodes: what an admitted packet does -/

/-- Opcodes that read one fixed thing and change nothing of the block's units (R114): each answers OK with the data R114 gives
it, and leaves the block as the packet found it but for the bookkeeping of its reply. -/
def Obligations.FixedReadsAnswer : Prop :=
  ∀ (s : State) (t : Nat) (src : Src) (h : Hdr),
    let p (op : Nat) : Pkt := { op := op, t := t, src := src, hd := h }
    let d (op : Nat) : Dev := (p op).taken s
    let words (op so first count : Nat) : Host.Outcome State Fault Refusal :=
      .next ((p op).answered s (d op) stOk (natsBytes ((d op).readRange so first count)))
    ((p 0x00).Admitted s → exec (.ping t src h) s = .next ((p 0x00).answered s (d 0x00) stOk (le 8 (d 0x00).now)))
    ∧ ((p 0x01).Admitted s → exec (.getCaps t src h) s = words 0x01 0x0010 0 3)
    ∧ ((p 0x02).Admitted s → exec (.getIdentity t src h) s = .next ((p 0x02).answered s (d 0x02) stOk
        (((List.range 4).flatMap fun i => le 4 ((d 0x02).rd F.sysUid i)) ++ le 2 ((d 0x02).rd F.grpNodeAddr)
          ++ le 2 ((d 0x02).rd F.sysFwRelease) ++ le 4 ((d 0x02).rd F.sysImageSeq))))
    ∧ ((p 0x05).Admitted s → exec (.listSessions t src h) s = .next ((p 0x05).answered s (d 0x05) stOk
        (natsBytes ((d 0x05).readRange 0x0021 0 33 ++ (d 0x05).readRange 0x0022 0 32))))
    ∧ ((p 0x41).Admitted s → exec (.getMode t src h) s = .next ((p 0x41).answered s (d 0x41) stOk
        (le 4 ((d 0x41).word 0x0002 0))))
    ∧ ((p 0x62).Admitted s → exec (.calWear t src h) s = .next ((p 0x62).answered s (d 0x62) stOk
        (natsBytes ((List.range 64).map (d 0x62).calCount))))
    ∧ ((p 0x80).Admitted s → exec (.readFaults t src h) s = words 0x80 0x0F00 0 32)
    ∧ ((p 0xB0).Admitted s → exec (.memStatus t src h) s = .next ((p 0xB0).answered s (d 0xB0) stOk
        (natsBytes ((d 0xB0).readRange 0x1102 0 5 ++ (d 0xB0).readRange 0x1103 0 8))))
    ∧ ((p 0xE0).Admitted s → exec (.safeStatus t src h) s = words 0xE0 0x1001 0 5)

/-- OPEN_SESSION, CLOSE_SESSION and EVENT_SUBSCRIBE (R103, R104, R106, R417): a session is opened with the lesser of what was
asked and what its port allows, bound to its sender; closed, it is as it was at reset and a Basket it owned has no owner; the
mask of a subscription stands in the session. Session 0 is never changed. -/
def Obligations.SessionsOpenCloseSubscribe : Prop :=
  ∀ (s : State) (t : Nat) (src : Src) (h : Hdr),
    let n := h.session.toNat
    (∀ a : Byte,
      let p : Pkt := { op := 0x03, t := t, src := src, hd := h, payload := a :: zeros 3 }
      let granted := min a.toNat ((p.taken s).portCeiling src)
      let bound : Nat × Nat := match src with | .net a => (a.ip.toNat, a.port.toNat) | _ => (0, 0)
      p.Admitted s → n ≠ 0 → a.toNat ≤ 3 → (p.taken s).boundElsewhere src n = false →
      exec (.openSession t src h a) s = .next (p.answered s
        ((p.taken s).setSession n
          { isOpen := true, auth := granted, ip := bound.1, udp := bound.2, lastAt := (p.taken s).up })
        stOk (le 1 granted ++ zeros 3)))
    ∧ (let p : Pkt := { op := 0x04, t := t, src := src, hd := h }
      p.Admitted s → n ≠ 0 →
      exec (.closeSession t src h) s = .next (p.answered s
        (if (p.taken s).rd F.stgOwner = n then ((p.taken s).setSession n {}).wr F.stgOwner 0xFF
          else (p.taken s).setSession n {}) stOk []))
    ∧ (∀ mask : BitVec 256,
      let p : Pkt := { op := 0x85, t := t, src := src, hd := h, payload := le 32 mask.toNat }
      p.Admitted s → n ≠ 0 →
      exec (.eventSubscribe t src h mask) s = .next (p.answered s
        ((p.taken s).setSession n { (p.taken s).session n with subs := mask.toNat }) stOk []))

/-- The staging opcodes (R120 to R122): a write that nothing refuses merges its bits into the Basket, takes it if it had no
owner, and answers OK; UNSTAGE takes the words of its range out of it. -/
def Obligations.StagingReachesTheBasket : Prop :=
  ∀ (s : State) (t : Nat) (src : Src) (h : Hdr),
    let staged (p : Pkt) (bits : List (Nat × (Word × Word))) : Host.Outcome State Fault Refusal :=
      .next (p.answered s ((p.taken s).rebasket h.session.toNat (bits.foldl stageOne (p.taken s).basket.words)
        (p.taken s).basket.badEntries) stOk [])
    let free (p : Pkt) (bits : List (Nat × (Word × Word))) : Prop :=
      p.Admitted s ∧ passes ((p.taken s).stageRefusals (p.ctx s) (bits.map fun x => (x.1 / 65536, x.1 % 65536)))
        ∧ (bits.foldl stageOne (p.taken s).basket.words).length ≤ 131072
    (∀ (so first : BitVec 16) (values : List Word),
      let p : Pkt := { op := 0x10, t := t, src := src, hd := h, need := stageNeed (stageWordsBits so first values)
                       payload := rangeParams so first (BitVec.ofNat 16 values.length) ++ wordsBytes values }
      free p (stageWordsBits so first values) → passes ((p.taken s).stageWordsRefusals so first values) →
      exec (.stageWords t src h so first values) s = staged p (stageWordsBits so first values))
    ∧ (∀ entries : List (BitVec 16 × BitVec 16 × Word × Word),
      let p : Pkt := { op := 0x11, t := t, src := src, hd := h, need := stageNeed (stageFieldsBits entries)
                       payload := entries.flatMap fun e =>
                         le 2 e.1.toNat ++ le 2 e.2.1.toNat ++ wordBytes e.2.2.1 ++ wordBytes e.2.2.2 }
      free p (stageFieldsBits entries) → passes ((p.taken s).stageFieldsRefusals entries) →
      exec (.stageFields t src h entries) s = staged p (stageFieldsBits entries))
    ∧ (∀ mode : Byte,
      let p : Pkt := { op := 0x12, t := t, src := src, hd := h, need := { auth := authP }, payload := mode :: zeros 3 }
      let bits := [(wordKey 0x0101 0, ((15, BitVec.ofNat 32 mode.toNat) : Word × Word))]
      free p bits → mode.toNat ≤ 15 → exec (.stageModeReq t src h mode) s = staged p bits)
    ∧ (∀ so first count : BitVec 16,
      let p : Pkt := { op := 0x14, t := t, src := src, hd := h, need := unstageNeed so first count
                       payload := rangeParams so first count }
      let hit (e : Nat × (Word × Word)) : Bool := inWordRange so first count (e.1 / 65536) (e.1 % 65536)
      p.Admitted s → rangeExists so.toNat first.toNat count.toNat (p.taken s) = none →
      passes ((p.taken s).stageRefusals (p.ctx s) [(so.toNat, first.toNat)]) →
      exec (.unstage t src h so first count) s = .next (p.answered s
        ((p.taken s).rebasket h.session.toNat ((p.taken s).basket.words.filter fun e => !hit e)
          ((p.taken s).basket.badEntries.filter fun e => !inWordRange so first count e.1 e.2.1)) stOk []))

/-- CHECK, COMMIT_NOW, COMMIT_AT, DISARM and DISCARD (R124 to R134): CHECK runs the rules over the merged view and reports;
COMMIT_NOW whose CHECK passes is parked with the Basket armed for the first boundary after preload; COMMIT_AT arms the boundary
its instant names and answers ACCEPTED with it; DISARM leaves no instant armed; DISCARD empties the Basket. -/
def Obligations.CommitsAreArmedAndCancelled : Prop :=
  ∀ (s : State) (t : Nat) (src : Src) (h : Hdr),
    let p (op : Nat) : Pkt := { op := op, t := t, src := src, hd := h, need := { auth := authC } }
    let d (op : Nat) : Dev := (p op).taken s
    let checked (x : Dev) : Dev := x.runCheck (x.judgeAuth h.session.toNat)
    ((p 0x20).Admitted s → exec (.check t src h) s =
      .next ((p 0x20).answered s (checked (d 0x20)) stOk ((checked (d 0x20)).checkReply src)))
    ∧ ((p 0x22).Admitted s → passes ((d 0x22).commitRefusals ((p 0x22).ctx s)) →
      (checked (d 0x22)).rd F.stgCkPass ≠ 0 →
      exec (.commitNow t src h) s =
        let k := checked (d 0x22)
        .next ((p 0x22).parkedIn s (k.arm (k.boundaryCeil (k.preloadEnd + 1)) .now h.session.toNat) .commit))
    ∧ (∀ (kind : Byte) (instant : BitVec 80),
      let p : Pkt := { p 0x24 with payload := [kind, 0] ++ le 10 instant.toNat }
      let k := checked (p.taken s)
      let x := k.commitInstant kind.toNat instant
      p.Admitted s → kind.toNat ≤ 2 → (kind.toNat < 2 → instant.toNat < 2 ^ 64) →
      (kind.toNat = 2 → instant.toNat / 2 ^ 48 < 1000000000 ∧ k.on F.timeNetValid = true) →
      passes ((p.taken s).commitRefusals (p.ctx s)) →
      k.rd F.stgCkPass ≠ 0 → k.now ≤ x → k.boundaryCeil x ≤ k.now + 36000000000000 → k.preloadEnd < k.boundaryCeil x →
      exec (.commitAt t src h kind instant) s =
        .next (p.answered s (k.arm (k.boundaryCeil x) .at h.session.toNat) stAccepted (le 8 (k.boundaryCeil x))))
    ∧ ((p 0x26).Admitted s → (d 0x26).rd F.stgOwner = h.session.toNat → (d 0x26).on F.stgArmed = true →
      exec (.disarm t src h) s = .next ((p 0x26).answered s ((d 0x26).cancelCommit 0x3B) stOk []))
    ∧ ((p 0x27).Admitted s → (d 0x27).rd F.stgOwner = h.session.toNat → (d 0x27).rd F.stgOwner ≠ 0xFF →
      exec (.discard t src h) s = .next ((p 0x27).answered s
        (((((d 0x27).cancelCommit 0x3C).emptyBasket.wr F.fltEvcArm 0).bumpWrap F.stgVersion).wr F.stgChecked 0) stOk []))

/-- Reads of a range (R114, R140, R141, R275, R284, R412, R354): with its unit present, its range inside the object and its data
within what the port carries, each answers OK with the words, bytes or pairs named, and changes nothing of the block's units; the state
words of a loop slot whose evaluation is under way are read once it has published (R284). -/
def Obligations.RangeReadsAnswer : Prop :=
  ∀ (s : State) (t : Nat) (src : Src) (h : Hdr),
    let read (p : Pkt) (data : Bytes) : Host.Outcome State Fault Refusal := .next (p.answered s (p.taken s) stOk data)
    (∀ so first count : BitVec 16,
      let p (op : Nat) (need : OpNeed) : Pkt :=
        { op := op, t := t, src := src, hd := h, payload := rangeParams so first count, need := need }
      let here (p : Pkt) : Prop := p.Admitted s ∧ (p.taken s).allAbsent so.toNat first.toNat count.toNat = none
        ∧ rangeExists so.toNat first.toNat count.toNat (p.taken s) = none ∧ 0 < count.toNat ∧ count.toNat ≤ 1020
      (let p := p 0x30 (readNeed so count)
       let e := (p.taken s).readable so.toNat
       here p → exec (.readWords t src h so first count) s =
         .next (p.answered s e stOk (natsBytes (e.readRange so.toNat first.toNat count.toNat))))
      ∧ (let p := p 0x32 (readStagedNeed count)
         here p → exec (.readStaged t src h so first count) s = read p ((List.range count.toNat).flatMap fun i =>
           let w := (p.taken s).keptWord so.toNat (first.toNat + i)
           wordBytes w.1 ++ wordBytes w.2)))
    ∧ (∀ first : BitVec 16,
      let p (op : Nat) : Pkt := { op := op, t := t, src := src, hd := h, payload := le 2 first.toNat ++ zeros 2 }
      ((p 0x33).Admitted s → exec (.readBasketIndex t src h first) s =
        read (p 0x33) ((((p 0x33).taken s).basket.words.drop first.toNat |>.take (replyLimit src / 4)).flatMap fun e =>
          le 2 (e.1 / 65536) ++ le 2 (e.1 % 65536)))
      ∧ ((p 0x34).Admitted s → exec (.readDirectory t src h first) s =
        read (p 0x34) ((((soTable.flatMap fun x => (List.range x.soN).map fun i => (x.so + i, x)).filter
          fun x => decide (first.toNat ≤ x.1)).take (replyLimit src / 8)).flatMap fun x =>
            le 2 x.1 ++ le 2 x.2.words ++ le 4 (((p 0x34).taken s).soFlags x.2 x.1)))
      ∧ ((p 0x52).Admitted s → first.toNat < ((p 0x52).taken s).loopSlots →
        exec (.tuneRead t src h first) s =
          read (p 0x52) (natsBytes (((p 0x52).taken s).readRange (0x0600 + first.toNat) 0 40))))
    ∧ (∀ offset length : BitVec 16,
      let p : Pkt := { op := 0x60, t := t, src := src, hd := h, payload := le 2 offset.toNat ++ le 2 length.toNat
                       need := calReadNeed length }
      p.Admitted s → 0 < length.toNat → length.toNat ≤ 4080 → offset.toNat + length.toNat ≤ 16384 →
      exec (.calRead t src h offset length) s =
        read p (((p.taken s).calBytes.drop offset.toNat).take length.toNat))
    ∧ (∀ first count : Byte,
      let p (op : Nat) : Pkt := { op := op, t := t, src := src, hd := h, payload := pairParams first count }
      let words (op so a n : Nat) : Host.Outcome State Fault Refusal :=
        read (p op) (natsBytes (((p op).taken s).readRange so a n))
      ((p 0x81).Admitted s → 0 < count.toNat → first.toNat + count.toNat ≤ 32 →
        exec (.readHistory t src h first count) s = words 0x81 0x0F08 (10 * first.toNat) (10 * count.toNat))
      ∧ ((p 0x84).Admitted s → first.toNat + count.toNat ≤ 256 →
        exec (.readEventRoute t src h first count) s = words 0x84 0x0F10 first.toNat count.toNat)
      ∧ ((p 0xA0).Admitted s → first.toNat + count.toNat ≤ 55 →
        (count = 0 ∨ ∃ l, first.toNat ≤ l ∧ l < first.toNat + count.toNat ∧ ((p 0xA0).taken s).lanePresent l = true) →
        exec (.laneStatus t src h first count) s = words 0xA0 0x0200 first.toNat count.toNat))

/-- Reads of time, queues, twin and Lantern (R212, R215, R380, R396, R476, R490, R491, R492): GET_TIME gives fabric time, network time
and the mapping; READ_TCI gives the captures of an input and empties its FIFO; TWIN_STATUS, PILOT_REPORT, ACQ_STATUS, HIST_READ,
AFTERGLOW_READ and QUEUE_STATUS (log entry 170, the model's choice of the order) give what they name where the variant has the unit.
The opcodes whose reply layout the spec does not give (log entry 11, the model's choice of a free value): PTP_STATUS, UNIT_STATUS and
IMAGE_STATUS answer OK with some data within every port's limit and change nothing of the block's units, whatever the layout. -/
def Obligations.UnitReadsAnswer : Prop :=
  (∀ (s : State) (t : Nat) (src : Src) (h : Hdr),
    let p (op : Nat) : Pkt := { op := op, t := t, src := src, hd := h }
    let d (op : Nat) : Dev := (p op).taken s
    let read (p : Pkt) (data : Bytes) : Host.Outcome State Fault Refusal := .next (p.answered s (p.taken s) stOk data)
    ((p 0x70).Admitted s → exec (.getTime t src h) s =
      let net : Nat := if (d 0x70).on F.timeNetValid then (d 0x70).toNet (d 0x70).now else 0
      read (p 0x70) (le 8 (d 0x70).now ++ le 6 (net / 1000000000) ++ le 4 (net % 1000000000)
        ++ le 8 ((d 0x70).rdPair F.timeMapN) ++ le 8 ((d 0x70).rdPair F.timeMapF) ++ le 4 ((d 0x70).readWord 0x0300 0)))
    ∧ (∀ index : Byte,
      let p : Pkt := { p 0x72 with payload := index :: zeros 3 }
      p.Admitted s → index.toNat ≤ 3 → 8 * ((p.taken s).tci index.toNat).length ≤ replyLimit src →
      exec (.readTci t src h index) s = .next (p.answered s
        (((p.taken s).setTci index.toNat []).wr F.timeTciFill 0 index.toNat) stOk
        (((p.taken s).tci index.toNat).flatMap (le 8))))
    ∧ ((p 0x90).Admitted s → (d 0x90).hasTwin = true → exec (.twinStatus t src h) s =
      read (p 0x90) (natsBytes ((d 0x90).readRange 0x0E01 0 8)))
    ∧ ((p 0x92).Admitted s → (d 0x92).hasTwin = true →
      let report := if (d 0x92).rd F.twinRole = 1 then (d 0x92).twin.report else (d 0x92).twin.ownReport
      report.length ≤ replyLimit src → exec (.pilotReport t src h) s = read (p 0x92) report)
    ∧ ((p 0xC2).Admitted s → (d 0xC2).acqLevel ≠ 0 → exec (.acqStatus t src h) s =
      read (p 0xC2) (natsBytes ((d 0xC2).readRange 0x1310 0 3 ++ (d 0xC2).readRange 0x1311 0 4)))
    ∧ (∀ (unit : Byte) (first count : BitVec 16),
      let p : Pkt := { p 0xC4 with payload := [unit, 0] ++ le 2 first.toNat ++ le 2 count.toNat ++ zeros 2, need := histNeed count }
      p.Admitted s → (p.taken s).acqLevel ≠ 0 → unit.toNat ≤ 3 → 0 < count.toNat → first.toNat + count.toNat ≤ 4096 →
      exec (.histRead t src h unit first count) s = read p (natsBytes ((List.range count.toNat).map fun i =>
        tget (fun _ => 0) (p.taken s).acq.bins (unit.toNat * 4096 + first.toNat + i))))
    ∧ (∀ (map : Byte) (first rows : BitVec 16),
      let p : Pkt := { p 0xC5 with payload := [map, 0] ++ le 2 first.toNat ++ le 2 rows.toNat ++ zeros 2, need := glowNeed rows }
      p.Admitted s → 2 ≤ (p.taken s).acqLevel → map.toNat ≤ 1 → 0 < rows.toNat → first.toNat + rows.toNat ≤ 256 →
      exec (.afterglowRead t src h map first rows) s = read p ((List.range (256 * rows.toNat)).flatMap fun i =>
        le 2 (tget (fun _ => 0) (p.taken s).acq.bins (2 ^ 20 + map.toNat * 65536 + first.toNat * 256 + i))))
    ∧ (∀ first count : Byte,
      let p : Pkt := { p 0xD0 with payload := pairParams first count }
      p.Admitted s → first.toNat + count.toNat ≤ 64 →
      exec (.queueStatus t src h first count) s = read p (natsBytes ((List.range count.toNat).flatMap fun i =>
        let q := first.toNat + i
        (p.taken s).readRange 0x1201 (2 * q) 2 ++ [((p.taken s).queue q).chunks.length]))))
  ∧ (∀ (s : State) (t : Nat) (src : Src) (h : Hdr),
    let read (p : Pkt) (o : Host.Outcome State Fault Refusal) : Prop :=
      ∃ data : Bytes, data.length ≤ 1456 ∧ o = .next (p.answered s (p.taken s) stOk data)
    (let p : Pkt := { op := 0x73, t := t, src := src, hd := h }
     p.Admitted s → read p (exec (.ptpStatus t src h) s))
    ∧ (let p : Pkt := { op := 0xF4, t := t, src := src, hd := h }
      p.Admitted s → read p (exec (.imageStatus t src h) s))
    ∧ (∀ first count : Byte,
      let p (op : Nat) : Pkt := { op := op, t := t, src := src, hd := h, payload := pairParams first count }
      ((p 0xA2).Admitted s → first.toNat + count.toNat ≤ 128 →
        (count = 0 ∨ ∃ u, first.toNat ≤ u ∧ u < first.toNat + count.toNat ∧ ((p 0xA2).taken s).slotPresent u = true) →
        read (p 0xA2) (exec (.unitStatus t src h first count) s))))

/-- WRITE_LIVE and the rows that are live writes of one place (R7, R114, R214, R303, R319, R329, R331, R363, R419, R440, R491,
R80): a write that nothing refuses does what its words do, in order, and answers OK with the words as they read after it. -/
def Obligations.LiveWritesActAndReadBack : Prop :=
  ∀ (s : State) (t : Nat) (src : Src) (h : Hdr),
    let p (so first : BitVec 16) (ws : List Word) : Pkt :=
      { op := 0x38, t := t, src := src, hd := h, need := liveNeed so first ws
        payload := rangeParams so first (BitVec.ofNat 16 ws.length) ++ wordsBytes ws }
    let fine (so first : BitVec 16) (ws : List Word) : Prop :=
      (p so first ws).Admitted s ∧ passes (((p so first ws).taken s).liveRefusals ((p so first ws).ctx s) so first ws)
    let wrote (so first : BitVec 16) (ws : List Word) : Host.Outcome State Fault Refusal :=
      let e := ((p so first ws).taken s).liveWords (liveEntries so first ws)
      .next ((p so first ws).answered s e stOk (natsBytes (e.readRange so.toNat first.toNat ws.length)))
    (∀ so first ws, fine so first ws → exec (.writeLive t src h so first ws) s = wrote so first ws)
    ∧ (∀ lo hi, fine 0x0302 4 [lo, hi] → exec (.setNet t src h lo hi) s = wrote 0x0302 4 [lo, hi])
    ∧ (∀ v, fine 0x0303 2 [v] → exec (.acceptNext t src h v) s = wrote 0x0303 2 [v])
    ∧ (∀ ws, fine 0x0D10 0 ws → exec (.mailboxWrite t src h ws) s = wrote 0x0D10 0 ws)
    ∧ (∀ leg : Fin 12,
      let v : Word := 0x02000000 ||| (regWord s.dev.regs 0x0802 leg &&& 7)
      fine 0x0802 (BitVec.ofNat 16 leg) [v] →
      exec (.legTrippedClear t src h leg) s = wrote 0x0802 (BitVec.ofNat 16 leg) [v])
    ∧ (∀ (leg : Fin 12) (a b : BitVec 16), fine 0x0801 (BitVec.ofNat 16 (3 * leg + 1)) [a ++ b] →
      exec (.legCompareWrite t src h leg a b) s = wrote 0x0801 (BitVec.ofNat 16 (3 * leg + 1)) [a ++ b])
    ∧ (∀ (leg : Fin 12) (en gh gl : Bool),
      let v : Word := BitVec.ofNat 32 (4 * flag en + 2 * flag gh + flag gl)
      fine 0x0802 (BitVec.ofNat 16 leg) [v] →
      exec (.legForce t src h leg en gh gl) s = wrote 0x0802 (BitVec.ofNat 16 leg) [v])
    ∧ (∀ v, fine 0x0910 1 [v] → exec (.ckptNow t src h v) s = wrote 0x0910 1 [v])
    ∧ (∀ v, fine 0x0910 2 [v] → exec (.ledgerClr t src h v) s = wrote 0x0910 2 [v])
    ∧ (∀ v, fine 0x1002 0 [v] → exec (.lvcClose t src h v) s = wrote 0x1002 0 [v])
    ∧ (∀ v, fine 0x0F04 0 [v] → exec (.evcArm t src h v) s = wrote 0x0F04 0 [v])
    ∧ (∀ (n : Fin 12) v, fine 0x0084 (BitVec.ofNat 16 n) [v] →
      exec (.clkEn t src h n v) s = wrote 0x0084 (BitVec.ofNat 16 n) [v])
    ∧ (∀ v, fine 0x1305 0 [v] → exec (.acqClear t src h v) s = wrote 0x1305 0 [v])

/-- TUNE_WORD and TUNE_WORDS (R274): tuning writes that nothing refuses change their slots' words in order, and answer the
evaluation count at which each takes effect. -/
def Obligations.TuningChangesTheSlot : Prop :=
  ∀ (s : State) (t : Nat) (src : Src) (h : Hdr) (entries : List (BitVec 16 × BitVec 16 × Word)),
    let p (op : Nat) : Pkt :=
      { op := op, t := t, src := src, hd := h, need := { auth := authC }
        payload := entries.flatMap fun e => le 2 e.1.toNat ++ le 2 e.2.1.toNat ++ wordBytes e.2.2 }
    let es := entries.map fun e => (e.1.toNat, e.2.1.toNat, e.2.2)
    let fine (op : Nat) : Prop :=
      (p op).Admitted s ∧ passes (((p op).taken s).tuneRefusals es)
    let tuned (op : Nat) : Host.Outcome State Fault Refusal :=
      let r := tuneAll es ((p op).taken s)
      .next ((p op).answered s r.2 stOk (natsBytes r.1))
    (∀ slot word v, entries = [(slot, word, v)] → fine 0x50 → exec (.tuneWord t src h slot word v) s = tuned 0x50)
    ∧ (entries ≠ [] → entries.length ≤ 8 → fine 0x51 → exec (.tuneWords t src h entries) s = tuned 0x51)

/-- REQ_MODE, STEP_RUN, STEP_CONTINUE and STEP_ABORT (R20, R26, R28, R38): a request for the mode in force answers OK at once;
one that is granted is parked with SYS.MODE_PEND showing where it leads; a sequence starts at the step named, and a return to HELD that
is due stays due; it goes on after a PAUSE, or ends. -/
def Obligations.ModeRequestsAndSteps : Prop :=
  ∀ (s : State) (t : Nat) (src : Src) (h : Hdr),
    (∀ (mode : Byte) (target : Mode),
      let p : Pkt := { op := 0x40, t := t, src := src, hd := h, need := reqModeNeed mode, payload := mode :: zeros 3 }
      let d := p.taken s
      p.Admitted s → modeOf mode.toNat = some target → (target = .pilot → d.hasTwin = true) →
      (target = d.mode → exec (.reqMode t src h mode) s = .next (p.answered s d stOk (le 4 (d.word 0x0002 0))))
      ∧ (∀ m, target ≠ d.mode → d.judgeRequest target = .inl m →
        exec (.reqMode t src h mode) s = .next (p.parkedIn s (d.pendRequest src m) (.mode mode.toNat))))
    ∧ (∀ first : Byte,
      let p : Pkt := { op := 0x42, t := t, src := src, hd := h, need := { auth := authM }, payload := first :: zeros 3 }
      let d := p.taken s
      p.Admitted s → (d.mode = .service ∨ d.mode = .calibrate) → d.stepsActive = false → first.toNat ≤ 127 →
      exec (.stepRun t src h first) s = .next (p.answered s
        ((({ d with steps := { d.steps with startReq := true, contReq := false } }.wr F.stgStepState 1).wr F.stgStepIdx first.toNat).wr F.stgStepWait 0)
        stAccepted []))
    ∧ (let p : Pkt := { op := 0x43, t := t, src := src, hd := h, need := { auth := authM } }
       let d := p.taken s
       p.Admitted s → d.rd F.stgStepState = 2 →
       exec (.stepContinue t src h) s = .next (p.answered s { d with steps := { d.steps with contReq := true } } stOk []))
    ∧ (let p : Pkt := { op := 0x44, t := t, src := src, hd := h, need := { auth := authM } }
       p.Admitted s → exec (.stepAbort t src h) s = .next (p.answered s ((p.taken s).endSteps 5) stOk []))

/-- ACK_FAULT and CLEAR_FAULT (R101, R409, R410): the classes named that are set are acknowledged; the classes named are cleared
one by one after the raises that wait have been classified, and those that stay set are named with CAUSE_ACTIVE. -/
def Obligations.FaultsAreAcknowledgedAndCleared : Prop :=
  ∀ (s : State) (t : Nat) (src : Src) (h : Hdr) (mask : Word),
    let p (op : Nat) : Pkt := { op := op, t := t, src := src, hd := h, need := { auth := authP }, payload := le 4 mask.toNat }
    let done := (classesOf mask.toNat).foldl (fun d c => d.clearClass c)
      ((((p 0x83).taken s).classify []).clearTrips mask.toNat)
    let left := done.setClasses &&& mask.toNat
    ((p 0x82).Admitted s → exec (.ackFault t src h mask) s =
      let r := ((p 0x82).taken s).ackFaults mask.toNat
      .next ((p 0x82).answered s r.2 stOk (le 4 r.1)))
    ∧ ((p 0x83).Admitted s → left = 0 → exec (.clearFault t src h mask) s = .next ((p 0x83).answered s done stOk []))
    ∧ ((p 0x83).Admitted s → left ≠ 0 → exec (.clearFault t src h mask) s =
      .next ((p 0x83).answered s done stCauseActive (le 4 left)))

/-- SAFE_TEST, SAFE_ACK, BREAKER_CLOSE, BREAKER_TRIP (R432, R434, R435, R437, R442): the switch tests start in HELD; SNUFFED is
left on a valid reset edge with nothing holding it; the close pulse drives switches 2 and 3; a trip from a switching mode raises
class 28 and brings the safe state. -/
def Obligations.SafetyOpcodesAct : Prop :=
  ∀ (s : State) (t : Nat) (src : Src) (h : Hdr),
    (∀ switch : Byte,
      let p : Pkt := { op := 0xE1, t := t, src := src, hd := h, need := { auth := authM, hostOnly := true }
                       payload := switch :: zeros 3 }
      p.Admitted s → (p.taken s).mode = .held →
      exec (.safeTest t src h switch) s = .next (p.answered s (p.taken s).startTests stAccepted []))
    ∧ (let p : Pkt := { op := 0xE2, t := t, src := src, hd := h, need := { auth := authP, hostOnly := true } }
       let d := p.taken s
       p.Admitted s → d.mode = .snuffed → d.edgeValid = true → d.snuffHolds = 0 →
       exec (.safeAck t src h) s = .next (p.answered s d.leaveSnuffed stOk (le 4 (d.leaveSnuffed.word 0x0002 0))))
    ∧ (let p : Pkt := { op := 0xE3, t := t, src := src, hd := h, need := { auth := authP, hostOnly := true } }
       let d := p.taken s
       p.Admitted s → d.mode = .held ∨ d.mode = .precharge → d.rd F.twinRole ≤ 1 → d.on F.sysGuardPend = false → d.on F.safeTripActive = false →
       d.on F.safeTestRun = false → d.on F.fltSet 28 = false → d.on F.fltSet 29 = false → d.rd F.safeSwOk = 15 →
       d.on F.safeBkrClosed = false → d.on F.safeCloseActive = false →
       exec (.breakerClose t src h) s = .next (p.answered s
         (({ d with island := { d.island with closeSeen := false, closeAt := d.up } }.wr F.safeCloseActive 1).driveSwitches
           (switchBit 2 + switchBit 3)) stAccepted []))
    ∧ (let p : Pkt := { op := 0xE4, t := t, src := src, hd := h, need := { auth := authP } }
       let d := p.taken s
       (p.Admitted s → d.mode.switching = true →
         exec (.breakerTrip t src h) s = .next (p.answered s (d.fault 28 1).safeState stAccepted []))
       ∧ (p.Admitted s → d.mode.switching = false → d.on F.safeTripActive = true →
         exec (.breakerTrip t src h) s = .next (p.answered s d stAccepted []))
       ∧ (p.Admitted s → d.mode.switching = false → d.on F.safeTripActive = false →
         exec (.breakerTrip t src h) s = .next (p.answered s (d.tripDemand (decide (d.mode = .snuffed))) stAccepted [])))

/-- RESET and RESET_DELAY_EXPIRY (R43, R114): the reply goes out, and the device resets 1 ms later, with reset cause 3. -/
def Obligations.ResetFollowsItsReply : Prop :=
  ∀ (s : State) (t : Nat) (src : Src) (h : Hdr),
    let p : Pkt := { op := 0xF0, t := t, src := src, hd := h, payload := 0 :: zeros 3
                     need := { auth := authM, hostOnly := true, confirm := true } }
    (p.Admitted s → exec (.reset t src h 0) s =
      .next (p.answered s { p.taken s with resetAt := some ((p.taken s).up + 10000000) } stOk []))
    ∧ (let d := s.dev.advance t
       ∀ x, d.resetAt = some x →
         (d.timeRuns = false ∨ d.spent (x - 10000000) 10000000 = true →
           exec (.resetDelayExpiry t) s = .next { s with dev := d.resetWith 3 0 })
         ∧ (d.timeRuns = true → d.spent (x - 10000000) 10000000 = false →
           exec (.resetDelayExpiry t) s = .next { s with dev := d }))

/-- TWIN_SELFTEST and MARK_UNFIT (R384, R391, R114) on a variant with a twin: the self-check starts; Flame releases the Wick,
any other unit takes role 5, but for a released one, which leaves role 6 only through a reset (R380). -/
def Obligations.TwinOpcodesAct : Prop :=
  ∀ (s : State) (t : Nat) (src : Src) (h : Hdr),
    let p (op : Nat) : Pkt := { op := op, t := t, src := src, hd := h, need := { auth := authM } }
    let d (op : Nat) : Dev := (p op).taken s
    ((p 0x91).Admitted s → (d 0x91).hasTwin = true → exec (.twinSelftest t src h) s =
      .next ((p 0x91).answered s { d 0x91 with
        twin := { (d 0x91).twin with checking := true, checkResult := 0, checkAt := (d 0x91).now } } stAccepted []))
    ∧ ((p 0x93).Admitted s → (d 0x93).hasTwin = true →
      ((d 0x93).rd F.twinRole = 1 → exec (.markUnfit t src h) s =
        .next ((p 0x93).answered s (d 0x93).releaseWick stOk []))
      ∧ ((d 0x93).rd F.twinRole ≠ 1 → (d 0x93).rd F.twinRole ≠ 6 → exec (.markUnfit t src h) s =
        .next ((p 0x93).answered s (d 0x93).markUnfit stOk []))
      ∧ ((d 0x93).rd F.twinRole = 6 → exec (.markUnfit t src h) s = .next ((p 0x93).answered s (d 0x93) stOk [])))

/-- LANE_LOOPBACK, LANE_RETRAIN, UNIT_BYPASS, UNIT_REINSERT (R157, R161, R248, R249): a lane of SERVICE goes into the loopback
named, and kind 0 ends it; a lane of HELD or SERVICE that is enabled is due to start its bring-up anew at the next boundary (log entry 151,
the model's choice of the instant), with LANE.RATE_LIMITED and LANE.ATTEMPTS cleared at once; a cell of an arm that keeps enough cells goes to
bypass pending; a bypassed cell that meets R249 is accepted for reinsertion. -/
def Obligations.LaneAndUnitOpcodesAct : Prop :=
  ∀ (s : State) (t : Nat) (src : Src) (h : Hdr),
    (∀ lane kind : Byte,
      let p : Pkt := { op := 0xA1, t := t, src := src, hd := h, need := { auth := authM }, payload := pairParams lane kind }
      let d := p.taken s
      p.Admitted s → d.lanePresent lane.toNat = true → lane.toNat < 55 → kind.toNat ≤ 4 →
      d.mode = .service → (kind.toNat = 3 → d.laneUp lane.toNat = true) →
      exec (.laneLoopback t src h lane kind) s = .next (p.answered s
        (if kind.toNat = 0 then d.endLoopback lane.toNat else d.loopbackOn lane.toNat kind.toNat) stOk []))
    ∧ (∀ lane : Byte,
      let p : Pkt := { op := 0xA6, t := t, src := src, hd := h, need := { auth := authM }, payload := lane :: zeros 3 }
      let d := p.taken s
      p.Admitted s → d.lanePresent lane.toNat = true → lane.toNat < 55 → (d.mode = .held ∨ d.mode = .service) →
      exec (.laneRetrain t src h lane) s = .next (p.answered s
        (let e := (d.wr F.laneRateLimited 0 lane.toNat).wr F.laneAttempts 0 lane.toNat
         if e.on F.laneEn lane.toNat then e.setLane lane.toNat { e.lane lane.toNat with restartDue := true } else e) stAccepted []))
    ∧ (∀ slot : Byte,
      let p : Pkt := { op := 0xA3, t := t, src := src, hd := h, need := { auth := authP }, payload := slot :: zeros 3 }
      let d := p.taken s
      p.Admitted s → slot.toNat < 96 → d.populated slot.toNat = true →
      (d.cell slot.toNat).stage ≠ 2 → (d.cell slot.toNat).stage ≠ 3 → d.bypassLeavesFew slot.toNat = false →
      exec (.unitBypass t src h slot) s = .next (p.answered s (d.bypassPending slot.toNat 0) stAccepted []))
    ∧ (∀ slot : Byte,
      let p : Pkt := { op := 0xA4, t := t, src := src, hd := h, need := { auth := authP }, payload := slot :: zeros 3 }
      let d := p.taken s
      p.Admitted s → slot.toNat < 96 → d.populated slot.toNat = true → d.reinsertable slot.toNat = true →
      d.bypassCaused slot.toNat = false →
      exec (.unitReinsert t src h slot) s = .next (p.answered s
        (d.setCell slot.toNat { d.cell slot.toNat with reinsert := true }) stAccepted []))

/-- MANAGE_FORWARD and MANAGE_FORWARD_TIMEOUT (R2, R16, R33, R175): the inner packet leaves as MANAGE_REQ frames on the lane its route or
its slot names, ranked with its sender, under the next MSG_ID, and the packet waits; one that no route takes is refused and changes nothing;
50 ms later without the inner reply it is answered EXPIRED. -/
def Obligations.ForwardingSendsAndExpires : Prop :=
  ∀ (s : State) (t : Nat) (src : Src) (h : Hdr),
    (∀ (node : BitVec 16) (slot : Byte) (inner : Bytes) (way : Nat × Nat × Nat × Nat),
      let p : Pkt := { op := 0xA5, t := t, src := src, hd := h, need := forwardNeed inner
                       payload := le 2 node.toNat ++ [slot, 0] ++ inner }
      let d := p.taken s
      let id := d.nextMsg
      let frames := manageItems 0x08 src way.2.1 way.2.2.1 d.nodeAddr way.2.2.2 id inner
      p.Admitted s → 16 ≤ inner.length → slot.toNat < 128 → ¬ (node.toNat = d.nodeAddr ∧ slot.toNat = 127) →
      (d.forwardWay node.toNat slot.toNat = some way →
        exec (.manageForward t src h node slot inner) s = .next (p.parkedIn s
          (frames.foldl (fun d x => d.queueFrame way.1 x) { d with nextMsg := (id + 1) % 65536 }) (.forward id)))
      ∧ (d.forwardWay node.toNat slot.toNat = none → exec (.manageForward t src h node slot inner) s =
        .next (p.answered s d stUnitAbsent (refusalData 0xFFFF 0 0xFF 0))))
    ∧ (∀ (msgId : BitVec 16) (x : Parked),
      let d := s.dev.advance t
      d.parked.find? (fun y => decide (y.why = .forward msgId.toNat)) = some x →
      500000000 ≤ (d.now % 2 ^ 32 + 2 ^ 32 - x.ticket.stamp) % 2 ^ 32 →
      exec (.manageForwardTimeout t msgId) s =
        let e := (d.answerParked x stExpired (refusalData 0xFFFF 0 0xFF 0x40)).resumeParked
        .next { s with fuse := s.fuse.burn e, dev := e })

/-- MEM_READ, MEM_WRITE and ECC_TEST_WRITE (R449, R456 to R462): bytes of a page or of the SRAM test window are read with a page
status, a poisoned page is refused; in SERVICE a page outside queues and Lantern is written, whole (and no longer poisoned) or in part,
and window words are written; a test location keeps the half that ECC_TEST_WRITE does not name and is recorded. -/
def Obligations.MemoryOpcodesAct : Prop :=
  ∀ (s : State) (t : Nat) (src : Src) (h : Hdr),
    (∀ (address : BitVec 64) (length : BitVec 16),
      let p : Pkt := { op := 0xB1, t := t, src := src, hd := h, need := { auth := authM }
                       payload := le 8 address.toNat ++ le 2 length.toNat ++ zeros 2 }
      let d := p.taken s
      let o := memOffset address.toNat
      let r := d.readPage (o / 1024)
      let part (data : Bytes) : Bytes := (data.drop (o % 1024)).take length.toNat
      p.Admitted s → passes (d.memRefusals address.toNat length.toNat) →
      (sramAddr address.toNat = true → exec (.memRead t src h address length) s =
          let w := d.readWindowRange o length.toNat
          .next (p.answered s w.2.2 stOk (le 4 (flag w.2.1) ++ w.1)))
      ∧ (sramAddr address.toNat = false → exec (.memRead t src h address length) s = .next
          (match r.1 with
          | .unwritten => p.answered s r.2 stOk (le 4 2 ++ part (zeros 1024))
          | .clean data => p.answered s r.2 stOk (le 4 0 ++ part data)
          | .corrected data _ => p.answered s r.2 stOk (le 4 1 ++ part data)
          | .bad _ => p.answered s r.2 stMemoryError (refusalData 0xFFFF 0 0xFF 0))))
    ∧ (∀ (address : BitVec 64) (bytes : Bytes),
      let p : Pkt := { op := 0xB2, t := t, src := src, hd := h, need := { auth := authM }
                       payload := le 8 address.toNat ++ le 2 bytes.length ++ zeros 2 ++ bytes }
      let d := p.taken s
      let o := memOffset address.toNat
      let page := o / 1024
      let merged (old : Bytes) : Bytes := old.take (o % 1024) ++ bytes ++ old.drop (o % 1024 + bytes.length)
      p.Admitted s → passes (d.memRefusals address.toNat bytes.length) → d.mode = .service →
      (sramAddr address.toNat = true → exec (.memWrite t src h address bytes) s =
          .next (p.answered s (d.writeWindowRange o bytes) stOk []))
      ∧ (sramAddr address.toNat = false → d.chunksHeld.contains (page / 1024) = false → d.inLantern page = false →
        (bytes.length = 1024 → exec (.memWrite t src h address bytes) s =
          .next (p.answered s ((d.clearPoison page).writePage page 0 bytes) stOk []))
        ∧ (bytes.length ≠ 1024 → exec (.memWrite t src h address bytes) s = .next
          (match d.peekPage page with
          | .unwritten => p.answered s (d.writePage page 0 (merged (zeros 1024))) stOk []
          | .clean data => p.answered s (d.writePage page 0 (merged data)) stOk []
          | .corrected data bits => p.answered s ((d.dramCorrected bits).writePage page 0 (merged data)) stOk []
          | .bad tag => p.answered s (((d.dramPoison page tag).bump F.memPartialRefused).raise 0xAC) stMemoryError
              (refusalData 0xFFFF 0 0xFF 0x83)))))
    ∧ (∀ (address checkBits : BitVec 64) (bytes : Bytes),
      let p : Pkt := { op := 0xB3, t := t, src := src, hd := h, need := { auth := authM }
                       payload := le 8 address.toNat ++ le 8 checkBits.toNat ++ bytes }
      let d := p.taken s
      let sram := sramAddr address.toNat
      let checks := address.toNat.testBit 62
      let o := address.toNat % 2 ^ 62
      let n := bytes.length
      let ks := if sram then (List.range (n / 8)).map fun i => sramTest (o / 8 + i) else [o / 1024]
      p.Admitted s → d.mode = .service → (d.mem.tests ++ ks.filter fun k => !d.mem.tests.contains k).length ≤ 64 →
      (sram = true → 0 < n → n ≤ 64 → n % 8 = 0 → o % 8 = 0 → o + n ≤ 4096 → (checks = true ∨ checkBits = 0) →
        exec (.eccTestWrite t src h address checkBits bytes) s = .next (p.answered s
          (((List.range (n / 8)).foldl (fun d i => d.testWord (o / 8 + i)
              (if checks then none else some (BitVec.ofNat 64 (leAt bytes (8 * i) 8)))
              (if checks then some (BitVec.ofNat 8 (checkBits.toNat / 256 ^ i)) else none)) d).recordTests ks) stOk []))
      ∧ (sram = false → d.hasDram = true → n = (if checks then 64 else 1024) → checkBits = 0 → o % 1024 = 0 →
          o + 1024 ≤ d.rd F.memDataPages * 1024 →
        exec (.eccTestWrite t src h address checkBits bytes) s = .next (p.answered s
          ((d.testPage (o / 1024) (if checks then none else some bytes) (if checks then some bytes else none)).recordTests ks)
          stOk [])))

/-- ACQ_ARM, ACQ_STOP, ACQ_READ and QUEUE_READ (R467, R486, R488, R492): Lantern is armed from the next boundary with its counters at
0; it stops; the header or the samples of a recorded segment are read from its page; whole entries leave a queue of the host. -/
def Obligations.LanternAndQueueOpcodesAct : Prop :=
  ∀ (s : State) (t : Nat) (src : Src) (h : Hdr),
    (let p : Pkt := { op := 0xC0, t := t, src := src, hd := h, need := { auth := authP } }
     let d := p.taken s
     p.Admitted s → d.acqLevel ≠ 0 → d.acqChannels ≠ [] → d.acq.armed = false →
     ∃ e : Dev, exec (.acqArm t src h) s = .next (p.answered s e stAccepted [])
       ∧ e.acq.armed = true ∧ e.acq.firstAt = d.boundaryCeil (d.now + 1) ∧ e.acq.samples = 0 ∧ e.acq.written = []
       ∧ e.rd F.acqState = 1 ∧ e.rd F.acqStage = 0 ∧ e.rd F.acqFilled = 0 ∧ e.rd F.acqSegSeq = 0
       ∧ (∀ f i, f.key i / 65536 ≠ 0x1310 → e.rd f i = d.rd f i))
    ∧ (let p : Pkt := { op := 0xC1, t := t, src := src, hd := h, need := { auth := authP } }
       p.Admitted s → (p.taken s).acqLevel ≠ 0 →
       exec (.acqStop t src h) s = .next (p.answered s ((p.taken s).acqStop 0) stOk []))
    ∧ (∀ (segment offset : Word) (length : BitVec 16),
      let p : Pkt := { op := 0xC3, t := t, src := src, hd := h
                       payload := wordBytes segment ++ wordBytes offset ++ le 2 length.toNat ++ zeros 2 }
      let d := p.taken s
      let n := segment.toNat
      let header := offset.getLsbD 31
      let o := if header then 0 else offset.toNat % 2 ^ 31
      let len := if header then 64 else length.toNat
      let r := d.readPage (if header then d.segPage n else d.segPage n + 1 + o / 1024)
      let part (data : Bytes) : Bytes := (data.drop (o % 1024)).take len
      p.Admitted s → d.acqLevel ≠ 0 → d.hasDram = true → d.on F.acqStore = true →
      d.acq.written.contains n = true → (d.acq.drain.any fun g => g.index == n) = false →
      (∀ g, d.acq.seg = some g → g.index ≠ n) → 0 < len →
      (header = false → o % 1024 + len ≤ 1024 ∧ o + len ≤ 4 * d.acqChannels.length * d.acqLen) →
      exec (.acqRead t src h segment offset length) s = .next
        (match r.1 with
        | .unwritten => p.answered s r.2 stOk (le 4 2 ++ part (zeros 1024))
        | .clean data => p.answered s r.2 stOk (le 4 0 ++ part data)
        | .corrected data _ => p.answered s r.2 stOk (le 4 1 ++ part data)
        | .bad _ => p.answered s r.2 stMemoryError (refusalData 0xFFFF 0 0xFF 0xC3)))
    ∧ (∀ (queue : Byte) (maximum : BitVec 16),
      let p : Pkt := { op := 0xD1, t := t, src := src, hd := h, payload := [queue, 0] ++ le 2 maximum.toNat }
      let d := p.taken s
      let q := queue.toNat
      let r := d.takeEntries (d.queue q).fill q (min maximum.toNat (replyLimit src / 64))
      let e := (r.2.sendReply (p.ticket s) stOk r.1).resumeParked
      p.Admitted s → q < 64 → d.hostQueue q = true → r.1.length ≤ replyLimit src →
      exec (.queueRead t src h queue maximum) s = .next { s with fuse := s.fuse.burn e, dev := e })

/-- The image update (R58, R115): IMAGE_BEGIN names the slot not loaded and starts its erase; each erased 64 KiB block counts;
IMAGE_WRITE queues blocks for erased flash; a program that ends writes its block; IMAGE_FINISH, once every block is written and
with the right IMAGE_SEQ, programs block 0, and that ends the update; an erase or a program that fails makes the update fail. -/
def Obligations.ImageUpdateProceeds : Prop :=
  ∀ (s : State) (t : Nat) (src : Src) (h : Hdr),
    let d := s.dev.advance t
    (∀ length : BitVec 16,
      let p : Pkt := { op := 0xF1, t := t, src := src, hd := h, need := imageNeed, payload := le 2 length.toNat ++ zeros 2 }
      let slotB := decide ((p.taken s).rd F.sysSlotLoaded = 1)
      p.Admitted s → 2 ≤ length.toNat → length.toNat ≤ 16384 →
      exec (.imageBegin t src h length) s = .next (p.answered s
        { p.taken s with upd := { active := true, slotB := slotB, length := length.toNat } } stOk (le 1 (flag slotB) ++ zeros 3)))
    ∧ (∀ ok : Bool, d.upd.active = true → d.upd.failed = false → d.upd.erased < eraseBlocks d.upd.length →
      exec (.imageEraseDone t ok) s = .next { s with dev := { d with upd :=
        if ok then { d.upd with erased := d.upd.erased + 1 } else { d.upd with failed := true } } })
    ∧ (∀ (first : BitVec 16) (blocks : Bytes),
      let p : Pkt := { op := 0xF2, t := t, src := src, hd := h, need := imageNeed
                       payload := le 2 first.toNat ++ le 2 (blocks.length / 256) ++ blocks }
      let u := (p.taken s).upd
      let n := blocks.length / 256
      let pages := (cut 256 blocks).zipIdx.map fun x => (first.toNat + x.2, x.1)
      p.Admitted s → blocks.length % 256 = 0 → 1 ≤ n → n ≤ 15 → u.active = true → u.failed = false → u.finishing = false →
      1 ≤ first.toNat → first.toNat + n ≤ u.length → (first.toNat + n - 1) / 256 < u.erased →
      exec (.imageWrite t src h first blocks) s = .next (p.answered s
        { p.taken s with upd := { u with programming := u.programming ++ pages } } stOk []))
    ∧ (∀ (b : Nat × Bytes) (rest : List (Nat × Bytes)), d.upd.programming = b :: rest →
      (b.1 = 0 → exec (.imageProgramDone t true) s = .next { s with dev := { d with upd :=
        { d.upd with programming := rest, finishing := false, active := false, done := true } } })
      ∧ (b.1 ≠ 0 → d.upd.written.contains b.1 = false → exec (.imageProgramDone t true) s = .next { s with dev := { d with upd :=
        { d.upd with programming := rest, written := d.upd.written ++ [b.1] } } })
      ∧ (b.1 ≠ 0 → d.upd.written.contains b.1 = true → exec (.imageProgramDone t true) s = .next { s with dev := { d with upd :=
        { d.upd with programming := rest } } })
      ∧ exec (.imageProgramDone t false) s = .next { s with dev := { d with upd :=
        { d.upd with failed := true, finishing := false, programming := [] } } })
    ∧ (∀ block0 : Bytes,
      let p : Pkt := { op := 0xF3, t := t, src := src, hd := h, need := imageNeed, payload := block0 }
      let u := (p.taken s).upd
      p.Admitted s → block0.length = 256 → u.active = true → u.failed = false → u.finishing = false → u.complete = true →
      ((p.taken s).rd F.sysSlotLoaded = 0 ∨ leAt block0 8 4 = ((p.taken s).rd F.sysImageSeq + 1) % 2 ^ 32) →
      exec (.imageFinish t src h block0) s = .next (p.answered s
        { p.taken s with upd := { u with finishing := true, programming := u.programming ++ [(0, block0)] } } stAccepted []))

/-- FUSE_KEY_HASH and FUSE_SIGNED_BOOT (R48): the hash is programmed once and locked; signed boot is programmed only over a
locked hash. The vendor's words stay, and the words of the block show what has been programmed. -/
def Obligations.FusesAreProgrammed : Prop :=
  ∀ (s : State) (t : Nat) (src : Src) (h : Hdr),
    (∀ hash : Bytes,
      let p : Pkt := { op := 0xF5, t := t, src := src, hd := h, need := fuseNeed, payload := hash }
      p.Admitted s → hash.length = 32 → (p.taken s).on F.sysKeyLocked = false → s.fuse.keyLocked = false →
      ∃ u, exec (.fuseKeyHash t src h hash) s = .next u ∧ u.pending = s.pending ∧ u.fuse.part = s.fuse.part
        ∧ u.fuse.keyLocked = true ∧ u.fuse.keyHash = bytesWords hash ∧ u.dev.rd F.sysKeyLocked = 1)
    ∧ (let p : Pkt := { op := 0xF6, t := t, src := src, hd := h, need := fuseNeed }
       p.Admitted s → (p.taken s).on F.sysKeyLocked = true → s.fuse.keyLocked = true →
       ∃ u, exec (.fuseSignedBoot t src h) s = .next u ∧ u.pending = s.pending
         ∧ u.fuse = { s.fuse with signedBoot := true } ∧ u.dev.rd F.sysSignedBoot = 1)

/-- CAL_WRITE and CAL_WRITE_DONE (R355, R356): a good page waits with CAL.BUSY set until its verify; the write is then counted and the
packet that asked for it answered: verified, the page stands in the store and takes effect at the next boundary; a page that fails its
verify leaves the store as it was and reads as broken (log entry 48). -/
def Obligations.CalibrationPagesAreWritten : Prop :=
  ∀ (s : State) (t : Nat),
    (∀ (src : Src) (h : Hdr) (page : BitVec 16) (bytes : Bytes),
      let p : Pkt := { op := 0x61, t := t, src := src, hd := h
                       need := { auth := authM, hostOnly := true, confirm := true }
                       payload := le 2 page.toNat ++ zeros 2 ++ bytes }
      let d := p.taken s
      p.Admitted s → bytes.length = 256 → page.toNat ≤ 63 → blockGood bytes = true → reservedBad page.toNat bytes = false →
      (d.mode = .held ∨ d.mode = .calibrate) → d.cal.writing = none → d.calCount page.toNat < 10000 →
      exec (.calWrite t src h page bytes) s = .next (p.parkedIn s
        (({ d with cal := { d.cal with writing := some (page.toNat, bytes) } }.wr F.calBusy 1).wr F.calBusyPage page.toNat)
        (.calWrite page.toNat)))
    ∧ (let d := s.dev.advance t
      ∀ (page : Nat) (bytes : Bytes) (verified : Bool), d.cal.writing = some (page, bytes) →
      ∃ e : Dev,
        exec (.calWriteDone t verified) s = .next { s with dev :=
          match (d.parked.find? fun y => decide (y.why = .calWrite page)) with
          | none => e
          | some x => if verified then e.answerParked x stOk (le 4 (d.calCount page + 1))
              else e.answerParked x stMemoryError (refusalData 0xFFFF 0 0xFF 0) }
        ∧ e.cal.writing = none ∧ e.calCount page = d.calCount page + 1 ∧ e.rd F.calBusy = 0 ∧ e.parked = d.parked
        ∧ (verified = true → tget factoryPage e.cal.pages page = bytes ∧ e.cal.apply = d.cal.apply ++ [page]
            ∧ e.rd F.calLastPage = page % 64)
        ∧ (verified = false → e.cal.pages = d.cal.pages ∧ page ∈ e.cal.broken)
        ∧ (∀ f i, f.key i / 65536 ≠ 0x0C00 → e.rd f i = d.rd f i)
        ∧ (∀ q, q ≠ page → e.calCount q = d.calCount q))

/-! ## Start-up and clocks (chapters 2 and 3) -/

/-- Spark (R42, R46 to R48, R65, R72 to R74): it starts with the reference of REF_SEL, reads the fuses, locks the PLL, ramps,
clears the SRAM and gives way to Kindle; a fuse read that fails or a PLL that does not lock stops it. -/
def Obligations.SparkRunsInOrder : Prop :=
  ∀ (s : State) (t : Nat),
    let d := s.dev.advance t
    let next (e : Dev) : Host.Outcome State Fault Refusal := .next { s with dev := e }
    let at_ (x : BootStage) : Boot := { d.boot with stage := x }
    (∀ refSel, d.boot.stage = .waiting → ∃ e, exec (.sparkStart t refSel) s = next e
      ∧ Dev.OnlyRegs { d with boot := at_ .sparkFuses } e ∧ e.rd F.clkRefSel = flag refSel
      ∧ e.rd F.clkRefActive = flag refSel ∧ e.mode = .spark ∧ e.rd F.sysModePrev = 0 ∧ e.rd F.sysModeSeq = 0
      ∧ e.rd F.clkLocked = 0)
    ∧ (∀ (r r0 : FuseRead) (corrected : Bool), s.dev.boot.stage = .sparkFuses → (s.fuse.merge r).part = some r0 →
      ∃ u, exec (.fuseReadDone t (some (r, corrected))) s = .next u
      ∧ u.pending = s.pending ∧ u.fuse = s.fuse.merge r ∧ u.dev.boot = { s.dev.boot with stage := .sparkPll }
      ∧ u.dev.rd F.sysVariant = variantCode r0.variant
      ∧ variantCaps r0.variant = (u.dev.cellLanes, u.dev.downPorts, u.dev.rd F.sysTwinPresent, u.dev.acqLevel,
          u.dev.loopSlots, u.dev.rd F.sysDramMaxGib, u.dev.cellSlots)
      ∧ u.dev.rd F.sysSignedBoot = flag u.fuse.signedBoot ∧ u.dev.rd F.sysKeyLocked = flag u.fuse.keyLocked
      ∧ u.dev.rd F.sysFuseCorr = flag corrected ∧ u.dev.rd F.sysRepairUsed = flag r0.repairUsed)
    ∧ (d.boot.stage = .sparkFuses → exec (.fuseReadDone t none) s = next { d with boot := at_ .stopped })
    ∧ (d.boot.stage = .sparkPll → exec (.sparkPllTimeout t) s = next { d with boot := at_ .stopped })
    ∧ (∀ (band : Fin 32) refCycles, d.boot.stage = .sparkPll → ∃ e, exec (.pllLocked t { band := band, refCycles := refCycles }) s = next e
      ∧ Dev.OnlyRegs { d with boot := at_ .sparkRamp } e ∧ e.rd F.clkLocked = 1 ∧ e.rd F.clkRamping = 1
      ∧ e.rd F.clkBand = band.val)
    ∧ (d.boot.stage = .sparkRamp → d.on F.clkRamping = true → exec (.rampEnd t) s =
      next { d.wr F.clkRamping 0 with boot := at_ .sparkSram })
    ∧ (d.boot.stage = .sparkSram → ∃ e, exec (.sramInitDone t) s = next e ∧ e.boot = at_ .kindle ∧ e.mode = .kindle
      ∧ e.rd F.sysModePrev = 1 ∧ e.rd F.sysModeSeq = 1)

/-- Resets (R43, R44, R356, R400, R412, R428): power-on leaves every register at its reset value; any other cause counts itself,
names itself and its rail, and keeps the epoch and the fault history. The calibration store outlives every reset. -/
def Obligations.ResetsKeepWhatOutlivesThem : Prop :=
  ∀ (s : State) (t : Nat),
    let d := s.dev.advance t
    let kept : List Fld := [F.sysResetCount, F.sysResetCause, F.sysResetRail, F.twinEpoch, F.fltHistSeq, F.fltHistBoot, F.fltHistFill]
    let clean (e : Dev) : Prop := e.cal.pages = d.cal.pages ∧ e.cal.counts = d.cal.counts ∧ e.cal.writing = none
      ∧ Dev.OnlyRegs { State.reset.dev with cal := e.cal, coll := e.coll, fresh := d.fresh } e
    let is (o : Host.Outcome State Fault Refusal) (cause rail : Nat) : Prop := ∃ e : Dev, o = .next { s with dev := e }
      ∧ clean e ∧ e.rd F.sysResetCause = cause ∧ e.rd F.sysResetRail = rail
      ∧ e.rd F.sysResetCount = min 65535 (d.rd F.sysResetCount + 1) ∧ e.rd F.twinEpoch = d.rd F.twinEpoch
      ∧ e.coll = { ({} : Collector) with history := d.coll.history } ∧ e.rd F.fltHistSeq = d.rd F.fltHistSeq
      ∧ e.rd F.fltHistBoot = d.rd F.fltHistSeq ∧ e.rd F.fltHistFill = d.rd F.fltHistFill
      ∧ ∀ f i, (∀ g ∈ kept, f.key i ≠ g.key 0) → e.rd f i = State.reset.dev.rd f i
    (∃ e : Dev, exec (.deviceReset t .powerOn) s = .next { s with dev := e } ∧ clean e ∧ e.regs = State.reset.dev.regs
      ∧ e.coll = {})
    ∧ is (exec (.deviceReset t .pornPin) s) (if d.boot.stage = .stopped then 5 else 1) 0
    ∧ (∀ r, is (exec (.deviceReset t (.railMonitor r)) s) (if d.boot.stage = .stopped then 5 else 2) (railCode r))
    ∧ (d.island.watchdogLate = true → d.islandSpent d.island.lateAt 100000 = true → is (exec (.watchdogReset t) s) 4 0)

/-- Kindle (R50 to R56): both headers are read; the valid slot with the larger IMAGE_SEQ is read block by block, a block with a
bad CRC being read again three times; the last block accepts an unsigned slot, or waits for its signature: the hash of its key against
the fuses, the Ed25519 verification over the blocks before it, and the zero bytes; DRAM training fills the size words, up to what the
controller addresses, or leaves them 0. -/
def Obligations.KindleJudgesTheSlots : Prop :=
  ∀ (s : State) (t : Nat) (b : Bytes),
    let d := s.dev.advance t
    let next (e : Dev) : Host.Outcome State Fault Refusal := .next { s with dev := e }
    let first : Boot := { d.boot with headersRead := 1, rereads := 0, blockA := b.take 252 }
    d.boot.stage = .kindle →
    (∀ slotB, d.boot.headersRead = flag slotB → blockGood b = false → d.boot.rereads < 3 →
      exec (.kindleHeaderRead t slotB b) s =
        next ({ d with boot := { d.boot with rereads := d.boot.rereads + 1 } }.bump F.sysBootRereads))
    ∧ (∀ h, d.boot.headersRead = 0 → blockGood b = true → parseHeader b = some h → exec (.kindleHeaderRead t false b) s =
      next { d with boot := { first with hdrA := some h } })
    ∧ (d.boot.headersRead = 0 → (blockGood b = false ∧ 3 ≤ d.boot.rereads ∨ blockGood b = true ∧ parseHeader b = none) →
      exec (.kindleHeaderRead t false b) s = next ({ d with boot := { first with hdrA := none } }.wr F.sysSlotACause 2))
    ∧ (∀ x y, d.boot.headersRead = 1 → blockGood b = true → parseHeader b = some y → d.boot.hdrA = some x →
      d.rd F.sysSlotACause = 0 → d.rd F.sysSlotBCause = 0 →
      (∀ h ∈ [x, y], headerCause (d.rd F.sysFwRelease) (d.on F.sysSignedBoot) h = none) →
      let slotB := decide (x.seq < y.seq)
      exec (.kindleHeaderRead t true b) s = next { d with boot := { d.boot with
        headersRead := 2, hdrB := some y, blockB := b.take 252, trying := some slotB, next := 1, rereads := 0, sigWait := false
        blocks := tset (fun _ => []) [] 0 (if slotB then b.take 252 else d.boot.blockA) } })
    ∧ (∀ slotB h, d.boot.trying = some slotB → d.boot.hdr slotB = some h → d.boot.accepted = false → d.boot.sigWait = false →
      let got : Boot := { d.boot with
        blocks := tset (fun _ => []) d.boot.blocks d.boot.next (b.take 252), next := d.boot.next + 1, rereads := 0 }
      (blockGood b = false → d.boot.rereads < 3 → exec (.kindleBlockRead t b) s =
        next ({ d with boot := { d.boot with rereads := d.boot.rereads + 1 } }.bump F.sysBootRereads))
      ∧ (blockGood b = false → 3 ≤ d.boot.rereads → exec (.kindleBlockRead t b) s =
        next ((d.wr (if slotB then F.sysFailBlockB else F.sysFailBlockA) d.boot.next).rejectSlot slotB 3))
      ∧ (blockGood b = true → d.boot.next + 1 < h.length → exec (.kindleBlockRead t b) s = next { d with boot := got })
      ∧ (blockGood b = true → h.length ≤ d.boot.next + 1 → d.on F.sysSignedBoot = true →
        exec (.kindleBlockRead t b) s = next { d with boot := { got with sigWait := true } })
      ∧ (blockGood b = true → h.length ≤ d.boot.next + 1 → d.on F.sysSignedBoot = false →
        exec (.kindleBlockRead t b) s = next ({ d with boot := got }.acceptSlot slotB h false)))
    ∧ (∀ slotB h, d.boot.trying = some slotB → d.boot.hdr slotB = some h → d.boot.sigWait = true →
      let last := tget (fun _ => []) d.boot.blocks (h.length - 1)
      let known := sha256 (last.take 32) = (List.range 8).flatMap fun i => le 4 (d.rd F.sysKeyHash i)
      let signs := Config.ed25519 (last.take 32) (d.boot.signedBytes h) ((last.drop 32).take 64)
      (known → signs = true → zeroRange last 96 156 = true → exec (.signatureVerified t () ()) s = next (d.acceptSlot slotB h true))
      ∧ (¬ known → exec (.signatureVerified t () ()) s = next (d.rejectSlot slotB 7))
      ∧ (known → (signs = false ∨ zeroRange last 96 156 = false) → exec (.signatureVerified t () ()) s = next (d.rejectSlot slotB 8)))
    ∧ (∀ (ranks : Fin 4) mib, d.rd F.sysDramMaxGib ≤ 8 → ∃ e, exec (.dramTrainingDone t true ranks mib) s = next e
      ∧ e.rd F.memDramOk = 1 ∧ e.rd F.memRanks = ranks.val ∧ e.rd F.memDramMib = min mib (1024 * d.rd F.sysDramMaxGib)
      ∧ e.rd F.memDataPages = min mib (1024 * d.rd F.sysDramMaxGib) * 1048576 / 1088 ∧ e.boot = d.boot)
    ∧ (∀ (ranks : Fin 4) mib, ∃ e, exec (.dramTrainingDone t false ranks mib) s = next e ∧ e.rd F.memDramOk = 0
      ∧ e.rd F.memDramMib = 0 ∧ e.rd F.memDataPages = 0 ∧ e.boot = { d.boot with dramFailed := true })

/-- Clocks and temperature (R43, R67 to R77, R82, R162, R200, R515): lock lost moves SAFE onto the supervisor oscillator, drops
LEASE_OUT, raises class 3 and starts a relock with the band table's entry or the automatic search; lock regained counts it and lets
fabric time go on by the reference cycles counted; the recovered reference falls back to the local one, starts its second again, and
comes back once U has held lock for that second; an output enabled and not gated whose count was bad raises class 2, and SAFE's moves
it onto the supervisor oscillator; the highest die temperature is kept; a rail that falls below its warning raises class 0, each time;
the AC test is in force where R162 lets it. -/
def Obligations.ClocksAreSupervised : Prop :=
  ∀ (s : State) (t : Nat),
    let d := s.dev.advance t
    let next (e : Dev) : Host.Outcome State Fault Refusal := .next { s with dev := e }
    (∀ entry, d.on F.clkLocked = true →
      entry = (if d.on F.clkBandMode = true ∧ d.boot.stage = .light then d.tableBand else none) →
      let lost : Dev := { d with
        clk := { d.clk with relocking := true, unlocked5ms := false, safeOnSup := true,
                            tableBand := entry.map (·.1), pumpCode := entry.map (·.2) }
        twin := { d.twin with leaseOut := false } }
      let low := (lost.wr F.clkLocked 0).wr F.clkRamping 0
      let e := ((match entry with | some x => low.wr F.clkBand x.1 | none => low).legsRefresh.brakeUpdate).fault 3 0
      exec (.pllLockLost t) s =
        next (if d.on F.clkBandMode = true ∧ d.boot.stage = .light ∧ entry = none then e.raise 0x06 else e))
    ∧ (d.clk.relocking = true → d.clk.unlocked5ms = false →
      exec (.lockNotRegained t) s = next ({ d with clk := { d.clk with unlocked5ms := true } }.fault 3 1))
    ∧ (d.clk.relocking = true → d.clk.tableBand.isSome = true →
      exec (.bandTableLockTimeout t) s = next ({ d with clk := { d.clk with tableBand := none, pumpCode := none } }.raise 0x06))
    ∧ (∀ (band : Fin 32) refCycles, d.boot.stage = .light → d.clk.relocking = true →
      let back : Dev := { d with clk := { d.clk with
        relocking := false, unlocked5ms := false, tableBand := none, safeOnSup := false
        localLost := d.clk.localLost && decide (d.rd F.clkRefActive = 2) } }
      let locked := ((back.wr F.clkLocked 1).wr F.clkRamping 1).wr F.clkBand (d.clk.tableBand.getD band)
      exec (.pllLocked t { band := band, refCycles := refCycles }) s = next (((locked.advance (d.now + 400 * refCycles)).wr F.clkBandFromTable
        (flag d.clk.tableBand.isSome)).relocked.legsRefresh.brakeUpdate))
    ∧ (∀ ppm : Int,
      let bad : Dev := { d with clk := { d.clk with refGoodFrom := d.up } }
      let back := ((bad.wr F.clkRefActive (d.rd F.clkRefSel)).wr F.clkRefFallback 1).fault 1 0
      (ppm.natAbs ≤ 200 → exec (.refFrequencyWindow t ppm) s = next d)
      ∧ (d.rd F.clkRefActive ≠ 2 → exec (.refRecoveredClockMissing t) s = next bad
        ∧ (200 < ppm.natAbs → exec (.refFrequencyWindow t ppm) s = next bad))
      ∧ (d.rd F.clkRefActive = 2 → d.clk.localLost = false → exec (.refRecoveredClockMissing t) s = next back
        ∧ (200 < ppm.natAbs → exec (.refFrequencyWindow t ppm) s = next back))
      ∧ (d.rd F.clkRefActive = 2 → d.clk.localLost = true → exec (.refRecoveredClockMissing t) s = next back.pllLost
        ∧ (200 < ppm.natAbs → exec (.refFrequencyWindow t ppm) s = next back.pllLost)))
    ∧ (d.on F.clkRefSrc = true → d.on F.laneLocked laneU = true → d.spent d.clk.refGoodFrom ticksSec = true →
      exec (.refRestore t) s = next (d.wr F.clkRefActive 2))
    ∧ (let lost (x : Bool) : Dev := { d with clk := { d.clk with localLost := x } }
      exec (.localRefLost { t := t, lost := false }) s = next (lost false)
      ∧ (d.rd F.clkRefActive = 2 → exec (.localRefLost { t := t, lost := true }) s = next ((lost true).wr F.clkRefLostLocal 1))
      ∧ (d.rd F.clkRefActive ≠ 2 → exec (.localRefLost { t := t, lost := true }) s = next (lost true).pllLost))
    ∧ (∀ bad : BitVec 12,
      let hit (i : Nat) : Prop := bad.getLsbD i = true ∧ d.on F.clkEn i = true ∧ d.outputGated i = false
      ∃ e, exec (.clockMonitorCheck t bad) s = next e
      ∧ (∀ i, i < 12 → ((e.rd F.clkMonFail).testBit i = true ↔ (d.rd F.clkMonFail).testBit i = true ∨ hit i))
      ∧ (∀ i, i < 12 → ((({ cls := 2, src := i } : Raise) ∈ e.coll.raises) ↔ ({ cls := 2, src := i } : Raise) ∈ d.coll.raises
          ∨ hit i ∧ d.clk.monBad.testBit i = false))
      ∧ (∀ i, i < 12 → (e.clk.monBad.testBit i = true ↔ hit i))
      ∧ (e.clk.safeOnSup = true ↔ d.clk.safeOnSup = true ∨ hit 1))
    ∧ (∀ t0 t1 t2 t3 : BitVec 16, ∃ e, exec (.dieTemperatureUpdate t t0 t1 t2 t3) s = next e
      ∧ e.rd F.sysDieT 0 = t0.toNat ∧ e.rd F.sysDieT 1 = t1.toNat ∧ e.rd F.sysDieT 2 = t2.toNat ∧ e.rd F.sysDieT 3 = t3.toNat
      ∧ sN 16 (e.rd F.sysTPeak) = max (sN 16 (d.rd F.sysTPeak)) e.dieTemp)
    ∧ (∀ rail below,
      let seen : Dev := { d with clk := { d.clk with railsLow := d.clk.railsLow ^^^ 2 ^ railCode rail } }
      (d.clk.railsLow.testBit (railCode rail) = below → exec (.supplyOutOfRange t { rail := rail, below := below }) s = next d)
      ∧ (d.clk.railsLow.testBit (railCode rail) = false → exec (.supplyOutOfRange t { rail := rail, below := true }) s = next (seen.fault 0 (railCode rail)))
      ∧ (d.clk.railsLow.testBit (railCode rail) = true → exec (.supplyOutOfRange t { rail := rail, below := false }) s = next seen))
    ∧ (∀ i, exec (.acTestInstruction t i) s = next { d with tap := if d.mode.guardMayOpen then some i else none })

/-! ## The control cycle, the modes and the commit (chapters 1, 5, 9, 10) -/

/-- LIGHT, CONTROL_CYCLE_BOUNDARY and EDGE_EXPANSION (R12, R60, R198, R266): Light is taken once a slot has been accepted; a boundary
that is due runs the steps of R12 in their order, stands at its instant, and names the next one, which the cycle origin and the cycle
length give; the next epoch is expanded once, at its schedule point. The
boundaries (R198): the first boundary at or after an instant lies less than one cycle after it, a whole number of cycles from
the origin. -/
def Obligations.BoundariesRunInOrder : Prop :=
  (∀ (s : State) (t : Nat),
    let d := s.dev.advance t
    (d.boot.stage = .kindle → d.boot.accepted = true → exec (.light t ()) s = .next { s with dev := d.light })
    ∧ (d.boundaryDue = true → ∃ x : Dev, exec (.controlCycleBoundary t) s = .next { s with dev := x.nextBoundary }
      ∧ x = (((d.enterBoundary.boundaryLatch).boundaryModes).boundaryRun d.clock.index).boundaryRest d.clock.index
      ∧ d.clock.boundary ≤ d.enterBoundary.now ∧ x.nextBoundary.clock.boundary = x.boundaryCeil (x.now + 1))
    ∧ (d.boundaryDue = false → exec (.controlCycleBoundary t) s = .next { s with dev := d })
    ∧ (d.timeRuns = true → d.mode.switching = true → d.rd F.twinRole ≤ 1 → d.sched.expanded < d.clock.boundary →
      exec (.edgeExpansion t) s = .next { s with dev :=
        ((d.advance d.schedInstant).expandEpoch d.clock.boundary d.schedInstant).noteUsed }))
  ∧ (∀ (d : Dev) (x : Nat), d.cycle ≠ 0 → d.origin ≤ x →
    x ≤ d.boundaryCeil x ∧ d.boundaryCeil x < x + d.cycle ∧ (d.boundaryCeil x - d.origin) % d.cycle = 0
      ∧ ∀ b, x ≤ b → (b - d.origin) % d.cycle = 0 → d.boundaryCeil x ≤ b)

/-- The timers of the modes (R23, R27, R28): PRECHARGE and RIDE_THROUGH that last too long raise their classes; RIDE_THROUGH
that has recovered, and a WAIT step whose count has run out, act in the boundary that is due: the first returns to the run mode held
before, the second gives way to the next step. A change of mode (R30, R31): SYS.MODE is the mode entered, SYS.MODE_PREV the one left,
SYS.MODE_CAUSE its cause, and SYS.MODE_SEQ counts it. -/
def Obligations.ModesChangeAndTimersAct : Prop :=
  (∀ (s : State) (t : Nat),
    let d := s.dev.advance t
    let next (e : Dev) : Host.Outcome State Fault Refusal := .next { s with dev := e }
    (d.mode = .precharge → d.modes.enteredAt + d.rd F.stgPrechargeMax * ticksMs ≤ d.now →
      exec (.prechargeTimeout t) s = next (d.fault 4 0))
    ∧ (d.mode = .rideThrough → d.on F.stgRtEn = true → d.boundaryCeil (d.modes.enteredAt + d.rd F.stgRtMax * ticksMs) ≤ d.now →
      exec (.rideThroughExceeded t) s = next (d.fault 5 0))
    ∧ (d.mode = .rideThrough → d.on F.stgRtEn = true → d.boundaryDue = true → d.outsideEnvelope = false →
      d.recoveredBy (d.modes.insideFor + 1) = true → exec (.rideThroughRecovered t) s = next d.cycleBoundary)
    ∧ (d.rd F.stgStepState = 1 → d.rd F.stgStKind (d.rd F.stgStepIdx) = 1 → d.rd F.stgStepWait = 1 →
      d.steps.startReq = false → d.boundaryDue = true → exec (.stepWaitExpiry t) s = next d.cycleBoundary))
  ∧ (∀ d : Dev, d.mode = .rideThrough → d.on F.stgRtEn = true → d.rd F.hmpArmFloor = 0 → d.rd F.hmpArmShort = 0 →
    d.outsideEnvelope = false → d.rd F.stgRtRecover * ticksMs ≤ (d.modes.insideFor + 1) * d.cycle →
    d.conditionStep = ({ d with modes := { d.modes with insideFor := d.modes.insideFor + 1 } }).enterMode d.runMode 6)
  ∧ (∀ d : Dev, (d.mode = .service ∨ d.mode = .calibrate) → d.rd F.stgStepState = 1 → d.steps.startReq = false →
    (1 < d.rd F.stgStepWait → d.stepBoundary = d.wr F.stgStepWait (d.rd F.stgStepWait - 1))
    ∧ (d.rd F.stgStepWait ≤ 1 → d.rd F.stgStepIdx < 127 →
      d.stepBoundary = ((d.wr F.stgStepWait 0).wr F.stgStepIdx (d.rd F.stgStepIdx + 1)).startStep))
  ∧ (∀ (d : Dev) (m : Mode) (cause : Nat) (takeover : Bool), cause < 16 →
    let e := d.changeMode m cause takeover
    e.mode = m ∧ e.rd F.sysModePrev = modeCode d.mode ∧ e.rd F.sysModeCause = cause
      ∧ e.rd F.sysModeSeq = (d.rd F.sysModeSeq + 1) % 256 ∧ e.boot = d.boot ∧ e.clock = d.clock)

/-- Cells and fast slots (R245, R247, R249, R270): a slot held too long raises class 11; a bypass no cell confirms is warned of
once; a reinserted cell whose ramp has run is active; the oldest waiting trigger of a slot evaluates it. -/
def Obligations.CellAndTriggerEventsAct : Prop :=
  ∀ (s : State) (t : Nat),
    let d := s.dev.advance t
    let next (e : Dev) : Host.Outcome State Fault Refusal := .next { s with dev := e }
    (∀ slot : Fin 96,
      let c := d.cell slot
      (d.rd F.modCHeld slot = max 1 (d.rd F.modHoldMax) → exec (.cellSamplesLost t slot) s = next (d.fault 11 slot))
      ∧ (c.stage = 2 → 8 ≤ c.epochs → c.warned = false →
        exec (.bypassUnconfirmed t slot) s = next ((d.setCell slot { c with warned := true }).raise 0x23))
      ∧ (c.stage = 4 → d.rd F.modReinsertRamp ≤ c.ramp → exec (.reinsertRampEnd t slot) s =
        next ((d.setCell slot { c with stage := 1, ramp := 0, causes := 0 }).showCell slot)))
    ∧ (∀ (slot : Fin 256) (x : Nat × Nat), (d.engines.triggers.find? fun y => y.1 == slot.val) = some x →
      let e := { d with engines := { d.engines with triggers := d.engines.triggers.erase x } }.fastTrigger slot x.2
      d.rd F.twinRole ≤ 1 → exec (.fastPathTrigger t slot) s = next (e.engineTo e.now))
    ∧ (∀ slot : Fin 256, (d.engines.triggers.find? fun y => y.1 == slot.val) = none →
      exec (.fastPathTrigger t slot) s = next d)

/-- The commit (R36, R120, R131, R135, R138): nothing happens before the armed instant; a Basket preempted by a fault or refused
by the check at its boundary keeps its words, is disarmed and counted; an applied Basket is empty, and each staged word of an
ordinary object takes exactly its staged bits, every other word keeping its value. -/
def Obligations.CommitsApplyTheBasket : Prop :=
  ∀ (d : Dev) (a : Armed),
    (d.basket.armed = none → d.commitStep = d)
    ∧ (d.basket.armed = some a → d.now < a.instant → d.commitStep = d)
    ∧ (d.basket.armed = some a → a.instant ≤ d.now → d.modes.faultChanged = true →
      d.commitStep = d.refuseCommit F.stgPreempted 0x03 (0xFFFF, 0, 0xFF, 0x3D))
    ∧ (∀ e rest, d.basket.armed = some a → a.instant ≤ d.now → d.modes.faultChanged = false →
      d.boundaryFailures = e :: rest → d.commitStep = d.refuseCommit F.stgRefusedAt 0x0A e)
    ∧ (∀ c src e, src < 256 → (d.refuseCommit c src e).basket.words = d.basket.words)
    ∧ (d.basket.armed = some a → a.instant ≤ d.now → d.modes.faultChanged = false → d.boundaryFailures = [] →
      d.commitStep = d.applyBasket a)
    ∧ (d.basket.words.Pairwise (fun x y => x.1 ≠ y.1) →
      (∀ k, (∀ e ∈ d.basket.words, e.1 ≠ k) → tget resetWord d.committedRegs k = tget resetWord d.regs k)
      ∧ (∀ e ∈ d.basket.words, e.1 ≠ wordKey 0x0101 0 → (e.1 / 65536 < 0x0600 ∨ 0x0700 ≤ e.1 / 65536) → e.1 / 65536 ≠ 0x0802 →
        tget resetWord d.committedRegs e.1 = (tget resetWord d.regs e.1 &&& ~~~ e.2.1) ||| (e.2.2 &&& e.2.1)))

/-! ## Faults and the safety island (chapters 16 and 17) -/

/-- FAULT_CLASSIFY (R402, R403, R405, R411 to R413): what a cause with no row of its own adds joins the raises that wait; they are
taken class by class, one event for each, and a class word that failed parity is forced last. A class that is raised while clear is set
at its base level; raised again while unacknowledged it goes up one level to its ceiling, and stays where it is while acknowledged. The
event names every source raised, and the newest history entry is the event. -/
def Obligations.RaisesBecomeEvents : Prop :=
  (∀ (s : State) (t : Nat) (extra : List ExtraRaise),
    let waiting := extra.foldl (fun d x => d.extraRaise x) (s.dev.advance t)
    let event (d : Dev) (c : Nat) : Dev :=
      let mine := waiting.coll.raises.filter fun r => r.cls == c
      if mine = [] then d else d.faultEvent c mine
    let made := (List.range 32).foldl event { waiting with coll := { waiting.coll with raises := [] } }
    exec (.faultClassify t extra) s = .next { s with dev := (extra.foldl (fun d x => d.forceClass x) made) })
  ∧ (∀ d : Dev,
    (∀ e : Fin 8, d.causeActive 13 e = false → (d.extraRaise (.engineFailed e)).coll.raises = d.coll.raises ++ [{ cls := 13, src := e.val }])
    ∧ (∀ (code : Word) (packet : Bool), (d.extraRaise (.firmware code packet)).coll.raises
        = d.coll.raises ++ [{ cls := 30, src := 0, data := code.toNat }]
      ∧ (d.extraRaise (.firmware code packet)).ports.internalDue = (packet || d.ports.internalDue))
    ∧ (∀ b, (d.extraRaise (.sramUncorrectable b)).coll.raises = d.coll.raises ++ [{ cls := 30, src := 16 + b.val }])
    ∧ (∀ b, (d.extraRaise (.sramCorrected b)).coll.raises = d.coll.raises))
  ∧ (∀ set acked level base ceil, raiseLevel set acked level base ceil =
      if set = false then (base, false, false)
      else if acked = true then (level, false, false)
      else if level < ceil then (level + 1, true, false) else (level, false, true))
  ∧ ∀ (d : Dev) (c : Nat) (r : Raise) (rs : List Raise), c < 32 → d.mode = .held →
    let v := raiseLevel (d.on F.fltSet c) (d.on F.fltAcked c) (d.rd F.fltLevel c) (d.rd F.fltBase c) (d.rd F.fltCeil c)
    let e := d.faultEvent c (r :: rs)
    v.1 ≤ 3 → e.on F.fltSet c = true ∧ e.rd F.fltLevel c = v.1 ∧ e.rd F.fltAcked c = 0
      ∧ (∃ x rest, e.coll.history = x :: rest ∧ x.cls = c ∧ x.level = v.1 ∧ x.source = 0x80 + c ∧ x.at_ = d.now
          ∧ x.seq = (d.rd F.fltHistSeq + 1) % 2 ^ 32 ∧ x.data = r.data ∧ rest = d.coll.history.take 31
          ∧ ∀ k, k < 128 → (x.mask.testBit k = true ↔ ∃ y ∈ r :: rs, y.src = k))

/-- The door guard, the reset button and the watchdog (R428 to R432): the guard's channels are shown; the guard opening where it
must be closed raises class 28 and brings the safe state, in HELD it asks for the guard test again; a discrepancy that lasts raises
class 29; the start-up test ends; a press of 50 ms to 5 s is a valid edge, a longer one is stuck; a watchdog not serviced brings the
safe state. The breaker, the switches and the contactors (R433 to R440): the auxiliary contact reports a trip or a close; a demand is
released or has failed, and is made again; the close pulse ends; switches are tested one after the other and judged; a sense or a
mirror contact that differs raises class 29. Each acts once its interval has passed. -/
def Obligations.SafetyIslandEventsAct : Prop :=
  (∀ (s : State) (t : Nat),
    let d := s.dev.advance t
    let next (e : Dev) : Host.Outcome State Fault Refusal := .next { s with dev := e }
    (∀ a b : Bool,
      let seen := ((d.wr F.safeGuardA (flag a)).wr F.safeGuardB (flag b)).wr F.safeGuardClosed (flag (a && !b))
      let e := { seen with island := { d.island with
        guardTest := guardNext d.island.guardTest d.island.startTest (a && !b) (!a && b)
        discrepancy := d.island.discrepancy && decide (a = b), guardFrom := d.up
        discFrom := if d.guardDiscrepant then d.island.discFrom else d.up } }
      (d.guardClosed = (a && !b) → exec (.guardChange t a b) s = next e)
      ∧ (d.guardClosed = false → (a && !b) = true → exec (.guardChange t a b) s = next (e.raise 0x71))
      ∧ (d.guardClosed = true → (a && !b) = false → d.mode.guardMayOpen = false →
        exec (.guardChange t a b) s = next (((e.raise 0x70).fault 28 0).safeState))
      ∧ (d.guardClosed = true → (a && !b) = false → d.mode = .held → d.on F.sysGuardPend = false →
        exec (.guardChange t a b) s = next (let x := (e.raise 0x70).wr F.sysGuardPend 1
          { x with island := { x.island with guardTest := .waitClose, startTest := false } })))
    ∧ (d.guardDiscrepant = true → d.island.discrepancy = false →
      d.islandSpent d.island.discFrom (1000 * d.rd F.safeDiscMs) = true → exec (.guardDiscrepancy t) s =
      next ({ d with island := { d.island with discrepancy := true } }.fault 29 0))
    ∧ (d.islandSpent d.island.guardFrom (10000 * d.rd F.safeGuardHold) = true →
      (d.island.guardTest = .opening → exec (.guardHoldExpiry t) s =
        next { d with island := { d.island with guardTest := .waitClose } })
      ∧ (d.island.guardTest = .closing → exec (.guardHoldExpiry t) s =
        next (({ d with island := { d.island with guardTest := .idle, startTest := false } }.wr F.sysGuardPend 0).raise 0x72)))
    ∧ (∀ ticks, d.boot.stage = .light →
      let e := { d.wr F.safeRstIn 0 with island := { d.island with stuckActive := false } }
      (d.island.stuckActive = false → 50000 ≤ ticks → ticks < 5000000 → exec (.safeRstRelease t ticks) s =
        next (((e.wrPair F.safeEdgeAt e.now).wr F.safeEdgeValid (flag (decide (e.mode = .snuffed)))).raise 0x73))
      ∧ (d.island.stuckActive = true ∨ ticks < 50000 ∨ 5000000 ≤ ticks → exec (.safeRstRelease t ticks) s = next e)
      ∧ (d.island.stuckActive = false → exec (.resetInputStuck t) s =
        next (({ d with island := { d.island with stuckActive := true } }.wr F.safeRstIn 1).fault 29 1)))
    ∧ (d.island.watchdogLate = false → exec (.watchdogExpiry t) s =
      next (({ d with island := { d.island with watchdogLate := true, lateAt := d.up } }.fault 28 2).safeState)))
  ∧ (∀ (s : State) (t : Nat),
    let d := s.dev.advance t
    let next (e : Dev) : Host.Outcome State Fault Refusal := .next { s with dev := e }
    let aux (closed : Bool) : Dev := d.wr F.safeBkrClosed (flag closed)
    (d.on F.safeBkrClosed = true →
      (d.island.tripWait = true → exec (.bkrAuxChange t false) s =
        next ({ aux false with island := { d.island with tripWait := false, openAt := d.up } }.raise 0x77))
      ∧ (d.island.tripWait = false → exec (.bkrAuxChange t false) s = next (aux false)))
    ∧ (d.on F.safeBkrClosed = false →
      (d.on F.safeCloseActive = true → d.island.closeSeen = false → exec (.bkrAuxChange t true) s =
        next ({ aux true with island := { d.island with closeSeen := true, closedAt := d.up } }.raise 0x78))
      ∧ (d.on F.safeCloseActive = false ∨ d.island.closeSeen = true → exec (.bkrAuxChange t true) s = next (aux true)))
    ∧ (d.on F.safeTripActive = true → (d.island.tripSnuffed = false ∨ d.rd F.safeTripMax ≠ 0) →
      (d.island.tripWait = false → d.islandSpent d.island.openAt (1000 * d.rd F.safeTripHold) = true →
        exec (.tripRelease t false) s = next d.tripEnd)
      ∧ (d.islandSpent d.island.tripAt (1000 * (if d.rd F.safeTripMax = 0 then 1000 else d.rd F.safeTripMax)) = true →
        (d.on F.safeBkrClosed = false → exec (.tripRelease t true) s = next d.tripEnd)
        ∧ (d.on F.safeBkrClosed = true → exec (.tripRelease t true) s = next ({ d.tripEnd with
            island := { d.tripEnd.island with tripFailed := true, failedAt := d.up } }.fault 29 6))))
    ∧ (d.mode = .snuffed → d.island.tripFailed = true → d.on F.safeBkrClosed = true → d.on F.safeTripActive = false →
      d.islandSpent d.island.failedAt 10000000 = true → exec (.tripRepeat t) s = next (d.tripDemand true))
    ∧ (d.on F.safeCloseActive = true →
      (d.island.closeSeen = true → d.islandSpent d.island.closedAt 20000 = true → exec (.closePulseEnd t) s =
        next ((d.wr F.safeCloseActive 0).driveSwitches 0))
      ∧ (d.island.closeSeen = false → d.islandSpent d.island.closeAt (10000 * d.rd F.safeCloseMs) = true →
        exec (.closePulseEnd t) s = next (((d.wr F.safeCloseActive 0).driveSwitches 0).fault 29 7)))
    ∧ (∀ switch : Fin 4, d.on F.safeTestRun = false →
      exec (.switchFeedbackMismatch t switch) s = next ((d.wr F.safeSwFb
        (if d.rd F.safeSwOut &&& switchBit switch = 0 then d.rd F.safeSwFb ||| switchBit switch
          else d.rd F.safeSwFb &&& (15 ^^^ switchBit switch))).switchFails switch))
    ∧ (∀ k passed senseOn senseOff, d.island.test = .on k passed →
      d.islandSpent d.island.testFrom (10 * d.rd F.safeTestUs) = true →
      let off := if senseOff then d.driveSwitches 0 else (d.driveSwitches 0).wr F.safeSwFb (switchBit k)
      let judged := if senseOn && senseOff then off.switchPasses k else off.switchFails k
      let passed := if senseOn && senseOff then passed + 1 else passed
      (k < 3 → exec (.switchTestStep t senseOn senseOff) s = next (judged.testGoes (.gap k passed)))
      ∧ (3 ≤ k → exec (.switchTestStep t senseOn senseOff) s = next
        ((({ judged with island := { judged.island with test := .idle } }.wr F.safeTestRun 0).wrPair F.safeTestAt judged.now).raise
          (if passed = 4 then 0x74 else 0x75))))
    ∧ (∀ k passed senseOn senseOff, d.island.test = .gap k passed → d.islandSpent d.island.testFrom 1000 = true →
      exec (.switchTestStep t senseOn senseOff) s =
        next ((d.testGoes (.on (k + 1) passed)).driveSwitches (switchBit (k + 1))))
    ∧ (d.boot.stage = .light → d.rd F.safeTestHours ≠ 0 →
      d.island.periodFrom + d.rd F.safeTestHours * 3600 * ticksSec ≤ d.up →
      exec (.periodicSwitchTest t) s = next { d with island := { d.island with periodFrom := d.up } }.startTests)
    ∧ (∀ (contactor : Fin 4) (level : Bool),
      let bit := 2 ^ contactor.val
      let fb := if level then d.rd F.safeLvcFb ||| bit else d.rd F.safeLvcFb &&& (15 ^^^ bit)
      (fb ≠ d.rd F.safeLvcFb →
        exec (.lvcFbChange t contactor level) s = next (((d.wr F.safeLvcFb fb).contactorsSettle).raise 0x79))
      ∧ (fb = d.rd F.safeLvcFb → exec (.lvcFbChange t contactor level) s = next d))
    ∧ (∀ contactor : Fin 4, d.contactorWrong contactor = true → d.island.lvcMismatch.testBit contactor = false →
      d.islandSpent (d.island.lvcAt.getD contactor 0) (10000 * d.rd F.safeLvcMs) = true →
      exec (.contactorMismatch t contactor) s =
        next ({ d with island := { d.island with lvcMismatch := d.island.lvcMismatch ||| 2 ^ contactor.val } }.fault 29
          (8 + contactor))))

/-! ## The local stage and measurement (chapters 12 and 13) -/

/-- The interlock (R76, R315, R324, R327): driving a leg's gate outputs never leaves both high, and leaves both low where the
leg may not switch or a kill path holds it. -/
def Obligations.LegsNeverShootThrough : Prop :=
  ∀ (d : Dev) (n : Nat), n < 12 →
    let e := d.drive2 n
    (e.on F.legGh n && e.on F.legGl n) = false
      ∧ (d.legMay n = false ∨ d.legKilled n = true → e.rd F.legGh n = 0 ∧ e.rd F.legGl n = 0)
      ∧ (d.legRequests n = (true, true) → e.rd F.legGh n = 0 ∧ e.rd F.legGl n = 0)

/-- The events of a leg (R316 to R332), once their CTRL cycle has come: a zero event starts a period and takes the shadow compares; a
compare acts once a period, and of two in one CTRL cycle the higher value decides; a dead time gives the request of its switch; priming
and blanking end, an input still active then acts; the current limit cuts, a short circuit trips; a pump starts where its leg has
driven its upper switch long enough. The DC link and the brake (R333 to R335): a brake comparator is shown and the brake follows; a
brake no longer asked for goes off once its shortest time has passed; an over-voltage kills every leg and raises class 17; a tick of
the heating model adds what the brake was on and takes the part of LEG.BRK_TAU away. -/
def Obligations.LegAndBrakeEventsAct : Prop :=
  (∀ (s : State) (t : Nat) (n : Fin 12),
    let d := s.dev.advance t
    let l := d.leg n
    let next (e : Dev) : Host.Outcome State Fault Refusal := .next { s with dev := e }
    (l.counting = true → d.ctrlDue (d.zeroDue n) = true → ∃ e, exec (.legZeroEvent t n) s = next e ∧ (e.leg n).zeroAt = d.now
      ∧ (e.leg n).periods = l.periods + 1 ∧ (e.leg n).aDone = none ∧ (e.leg n).bDone = none
      ∧ e.rd F.legCmpa n = (d.shadowAt n).1 % 65536 ∧ e.rd F.legCmpb n = (d.shadowAt n).2 % 65536)
    ∧ (∀ b : Bool,
      let va := d.rd F.legCmpa n
      let vb := d.rd F.legCmpb n
      let v := if b then vb else va
      let sameCycle (x : Option Nat) : Prop := ∃ i, x = some i ∧ i / 16 = d.now / 16
      let done := d.setLeg n (if b then { l with bDone := some d.now } else { l with aDone := some d.now })
      l.counting = true → l.periods ≠ 0 → (if b then l.bDone else l.aDone) = none → v ≤ d.rd F.legPrd n →
      (v ≤ d.ctrlSince l.zeroAt ∨ d.zeroDue n / 16 ≤ d.now / 16 + 1) →
      (l.primed = false → exec (.legCompareAction t n b) s = next (done.legTimer n (if b then 0 else 1)))
      ∧ (l.primed = true → b = false → (sameCycle l.bDone → vb < va) →
        exec (.legCompareAction t n b) s = next ((done.legSetP n true).legTimer n 1))
      ∧ (l.primed = true → b = false → sameCycle l.bDone → va ≤ vb →
        exec (.legCompareAction t n b) s = next ((done.legSetP n false).legTimer n 1))
      ∧ (l.primed = true → b = true → (sameCycle l.aDone → va ≤ vb) →
        exec (.legCompareAction t n b) s = next ((done.legSetP n false).legTimer n 0))
      ∧ (l.primed = true → b = true → sameCycle l.aDone → vb < va →
        exec (.legCompareAction t n b) s = next ((done.legSetP n true).legTimer n 0)))
    ∧ (∀ high due, l.dead = some (high, due) → d.ctrlDue due = true → exec (.legDeadTimeEnd t n) s =
      next ((d.setLeg n { l with dead := none, ghReq := high, glReq := !high }).legUpdate n))
    ∧ (l.counting = true → l.primed = false → l.periods ≠ 0 → d.on F.legTripped n = false →
      d.ctrlDue (l.startAt + d.ctrlTicks (d.rd F.legPrime n)) = true →
      exec (.legPrimeEnd t n) s = next ((d.setLeg n { l with primed := true }).legUpdate n))
    ∧ (∀ due, l.blank = some due → d.ctrlDue due = true →
      let ended := d.setLeg n { l with blank := none }
      let dsat := d.on F.legDsatIn n = true ∧ d.on F.legDsatEn n = true
      let limit := d.on F.legCsLimIn n = true ∧ d.rd F.legCsLim n ≠ 255
      (¬ dsat → ¬ limit → exec (.legBlankEnd t n) s = next ended)
      ∧ (dsat → ¬ limit → exec (.legBlankEnd t n) s = next (ended.legTrip n 1))
      ∧ (¬ dsat → limit → exec (.legBlankEnd t n) s = next (ended.legCutNow n)))
    ∧ (d.rd F.legCsLim n ≠ 255 →
      (d.blanked n = false → exec (.legCurrentCut t n true) s = next ((d.wr F.legCsLimIn 1 n).legCutNow n))
      ∧ (d.blanked n = true → exec (.legCurrentCut t n true) s = next (d.wr F.legCsLimIn 1 n))
      ∧ exec (.legCurrentCut t n false) s = next (d.wr F.legCsLimIn 0 n))
    ∧ (d.on F.legDsatEn n = true → d.blanked n = false →
      exec (.legShortCircuit t n true true) s = next ((d.wr F.legDsatIn 1 n).legTrip n 1))
    ∧ (d.on F.legDsatEn n = false ∨ d.blanked n = true →
      exec (.legShortCircuit t n true true) s = next (d.wr F.legDsatIn 1 n))
    ∧ exec (.legShortCircuit t n true false) s = next (d.wr F.legDsatIn 0 n)
    ∧ (d.rd F.legCsSc n ≠ 255 →
      exec (.legShortCircuit t n false true) s = next ((d.wr F.legCsScIn 1 n).legTrip n 2)
      ∧ exec (.legShortCircuit t n false false) s = next (d.wr F.legCsScIn 0 n))
    ∧ (∀ x, d.on F.legTpEn n = true → d.rd F.legState n = 3 → d.on F.legGh n = true → l.ghSince = some x →
      x + 80000 * d.rd F.legTpDly n ≤ d.now →
      exec (.pumpDelayExpiry t n) s = next (d.setLeg n (l.pumpStart n d.now))))
  ∧ (∀ (s : State) (t : Nat),
    let d := s.dev.advance t
    let next (e : Dev) : Host.Outcome State Fault Refusal := .next { s with dev := e }
    (∀ above : Bool, exec (.dcovBrakeCrossing t 0 above) s = next ((d.wr F.legOv0Above (flag above)).brakeUpdate)
      ∧ exec (.dcovBrakeCrossing t 1 above) s = next ((d.wr F.legOv1Above (flag above)).brakeUpdate))
    ∧ (d.brakeFree = true → d.on F.legBrkOn = true → d.brakeAsked = false ∨ d.on F.legBrkInhib = true →
      let due := d.brake.onAt + d.ctrlTicks (d.rd F.legBrkMinOn)
      (d.ctrlDue due = true → exec (.brkMinOnExpiry t) s = next d.brakeOff)
      ∧ (d.ctrlDue due = false → exec (.brkMinOnExpiry t) s = next d))
    ∧ (∀ (input : Fin 2),
      let tripped (x : Bool) : Dev := (List.range 12).foldl Dev.legUpdate
        { d with brake := if input = 0 then { d.brake with trip0 := x } else { d.brake with trip1 := x } }
      ((if input = 0 then d.on F.legOv0En else d.on F.legOv1En) = true → exec (.dcLinkOverVoltage t input true) s =
        next ((((tripped true).wr F.legOvTripped 1).fault 17 input).raise 0x51))
      ∧ exec (.dcLinkOverVoltage t input false) s = next (tripped false))
    ∧ (d.ctrlDue (d.brake.tickAt + d.ctrlTicks 625000) = true → ∃ e, exec (.brakeHeatTick t ()) s = next e ∧ e.brake.tickAt = d.now
      ∧ e.brakeHeat = min (2 ^ 48 - 1) (d.brakeHeat - d.brakeHeat / 2 ^ d.rd F.legBrkTau + d.brakeOnCycles)))

/-- The channels (R346 to R352, R358): a window of MEAS.OSR bits goes through the filter; once that is whole its result, scaled, waits
to be published 4 CTRL cycles later with the instant of its middle, and a result at an end of the range sets MEAS.SAT; published, it
gives the value, the raw value, its instant and a count. A fast window out of its limits so many times in a row raises class 19; a
stream lost holds the channel and raises class 20, and its return starts it anew. -/
def Obligations.ChannelsMeasure : Prop :=
  (∀ (s : State) (t : Nat) (n : Fin 32) (bits : List Bool),
    let d := s.dev.advance t
    let c := d.chan n
    let next (e : Dev) : Host.Outcome State Fault Refusal := .next { s with dev := e }
    (let f := (c.main.window bits).1
      let r := (c.main.window bits).2
      let full := d.rd F.measOsr n ^ d.chanOrder n
      let run := d.setChan n { c with main := f }
      let e := if r = 0 ∨ r = full then (run.wr F.measSat 1 n).raise 0x5A else run
      let x := normalise r full
      let o : ChanOut := {
        chan := n, due := 16 * (d.now / 16 + 4), x := x
        at_ := d.now - d.chanOrder n * (d.rd F.measOsr n - 1) * sdPeriod / 2 - d.rd F.measSkew n
        y := scaled x (d.chanCal n).1 (d.chanCal n).2.1 (s32 (d.rd F.measScale n)) }
      c.running = true → bits.length = d.rd F.measOsr n →
      (d.on F.measHeld n = true → exec (.channelOutput t n bits) s = next (run.bumpWrap F.measOutCount n))
      ∧ (d.on F.measHeld n = false → f.toSettle ≠ 0 → exec (.channelOutput t n bits) s = next e)
      ∧ (d.on F.measHeld n = false → f.toSettle = 0 →
        exec (.channelOutput t n bits) s = next { e with engines := { e.engines with outs := e.engines.outs ++ [o] } }))
    ∧ (let f := (c.fast.window bits).1
      let y := scaled (normalise (c.fast.window bits).2 (d.rd F.measFpOsr n ^ 2)) (d.chanCal n).1 (d.chanCal n).2.2
        (s32 (d.rd F.measScale n))
      let low := s32 (d.rd F.measOcLo n)
      let high := s32 (d.rd F.measOcHi n)
      let shown (run : Nat) (out : Bool) : Dev :=
        ((d.setChan n { c with fast := f, ocRun := run }).wr F.measFpOut (u32 y) n).wr F.measOcIn (flag out) n
      c.running = true → d.on F.measFpEn n = true → bits.length = d.rd F.measFpOsr n →
      (f.toSettle ≠ 0 → exec (.channelOverCurrent t n bits) s = next (d.setChan n { c with fast := f }))
      ∧ (f.toSettle = 0 → low ≤ y → y ≤ high → exec (.channelOverCurrent t n bits) s = next (shown 0 false))
      ∧ (f.toSettle = 0 → y < low ∨ high < y → c.ocRun ≠ d.rd F.measOcCnt n →
        exec (.channelOverCurrent t n bits) s = next (shown (c.ocRun + 1) true))
      ∧ (f.toSettle = 0 → y < low ∨ high < y → c.ocRun = d.rd F.measOcCnt n →
        exec (.channelOverCurrent t n bits) s =
          next ((((shown (c.ocRun + 1) true).wr F.measOc 1 n).fault 19 n).raise 0x58)))
    ∧ (c.running = true → d.on F.measHeld n = false →
      exec (.modulatorStreamLost t n) s = next (((d.wr F.measHeld 1 n).fault 20 n).raise 0x5C))
    ∧ (d.on F.measHeld n = true → exec (.modulatorStreamResumed t n) s =
      next (((d.setChan n { running := true, main := Sinc.start (d.chanOrder n), fast := Sinc.start 2 }).wr F.measValid 0 n).wr
        F.measHeld 0 n)))
  ∧ (∀ (d : Dev) (o : ChanOut), o.chan < 32 →
    let e := d.publishOutput o
    e.rd F.measOut o.chan = u32 o.y ∧ e.rd F.measRaw o.chan = u32 o.x ∧ e.rd F.measValid o.chan = 1
      ∧ e.rd F.measAtLo o.chan + 2 ^ 32 * e.rd F.measAtHi o.chan = o.at_ % 2 ^ 64
      ∧ e.rd F.measOutCount o.chan = (d.rd F.measOutCount o.chan + 1) % 65536 ∧ o ∉ e.engines.outs)

/-! ## The ports and time (chapters 4 and 8) -/

/-- The host port (R88 to R92): a packet written is taken as its bytes say; the oldest complete reply is driven and, clocked out
whole, leaves its queue; with none waiting nothing but zeros is driven; the status bytes are those of R91; an instruction that
is not listed is framing error 4. -/
def Obligations.HostPortTransacts : Prop :=
  ∀ (s : State) (t : Nat),
    let d := s.dev.advance t
    d.portActive .host = true →
    (∀ (bytes : Bytes) (e : Dev), e = d.takeBytes .host none bytes →
      exec (.writePacket t bytes) s = .next { s with fuse := s.fuse.burn e, dev := e }
      ∧ (bytes.length < 16 → e = d.discardPacket .host 1)
      ∧ (16 ≤ bytes.length → bytes.length < 16 + leAt bytes 4 2 → e = d.discardPacket .host 1)
      ∧ (16 + leAt bytes 4 2 < bytes.length → e = d.discardPacket .host 2))
    ∧ (∀ p d', d.takePacket 0 = some (p, d') →
      (exec (.readReply t true) s =
        let e := (d'.driveHost p).resumeParked
        .next { s with fuse := s.fuse.burn e, dev := e })
      ∧ exec (.readReply t false) s = .next { s with fuse := s.fuse.burn d, dev := d.driveHost p })
    ∧ (d.takePacket 0 = none → ∀ c, exec (.readReply t c) s = .next { s with fuse := s.fuse.burn d, dev := d.driveHost [] })
    ∧ exec (.readStatus t) s = .next { s with dev := d.driveHost d.portStatus }
    ∧ (∀ code, goodInstruction code = false → exec (.badInstruction t code) s = .next { s with dev := d.wr F.cmdLastFraming 4 0 })

/-- The network port (R93, R106, R119, R469): a whole datagram for the command port is taken as a packet, one of another length, a
fragment or one that is not unicast is discarded, as a frame for another station is let go; ARP requests and echo requests for the node
are answered to their sender under the port's tag, replies resolve what was asked for, entries are asked for again after 60 s; the link
is up at 1000 Mb/s full duplex alone; a session idle too long closes with event 0x07; telemetry that has waited 10 ms leaves. -/
def Obligations.NetworkPortAnswers : Prop :=
  ∀ (s : State) (t : Nat),
    let d := s.dev.advance t
    let next (e : Dev) : Host.Outcome State Fault Refusal := .next { s with dev := e }
    let sent (e : Dev) (mac : Nat) (body : NetBody) : Dev :=
      { e with ports := { e.ports with netOut := e.ports.netOut ++ [{ mac := mac, tag := d.netTag, body := body }] } }
    (∀ (dst src : NetEnd) (tag : Option (BitVec 16)) (port srcPort : BitVec 16) (fragment : Bool) (bytes : Bytes),
      let n := netHead dst src tag
      let from_ := Src.net (netAddrOf n srcPort)
      (d.frameOk n false = false → exec (.commandDatagram t dst src port srcPort fragment tag bytes) s = next d)
      ∧ (d.frameOk n false = true → port.toNat = d.rd F.cmdUdpPort → d.portActive from_ = true →
        (n.dstIp.toNat = d.netIp → fragment = false →
          exec (.commandDatagram t dst src port srcPort fragment tag bytes) s = next (d.takeBytes from_ none bytes)
          ∧ (bytes.length ≠ 16 + leAt bytes 4 2 → d.takeBytes from_ none bytes = d.discardPacket from_ 2))
        ∧ ((n.dstIp.toNat = d.netIp ∧ fragment = true) ∨ d.notUnicast n.dstIp.toNat = true →
          exec (.commandDatagram t dst src port srcPort fragment tag bytes) s = next (d.discardPacket from_ (d.rd F.cmdLastFraming 1)))))
    ∧ (∀ (src dst : NetEnd) (tag : Option (BitVec 16)) (bytes : Bytes),
      let n := netHead dst src tag
      d.frameOk n false = true → n.dstIp.toNat = d.netIp →
      exec (.icmpEcho t src dst tag bytes) s = next (sent d n.srcMac.toNat (.icmp n.srcIp.toNat bytes)))
    ∧ (∀ (src dst : NetEnd) (tag : Option (BitVec 16)),
      let n := netHead dst src tag
      n.dstIp.toNat = d.netIp →
      (d.frameOk n true = true → exec (.arpFrame t true src dst tag) s = next (sent d n.srcMac.toNat (.arp false n.srcIp.toNat)))
      ∧ (d.frameOk n false = true →
        d.ports.arpWait.contains n.srcIp.toNat = true ∨ (d.ports.arp.any fun x => x.1 == n.srcIp.toNat) = true →
        exec (.arpFrame t false src dst tag) s = next (d.arpResolve n.srcIp.toNat n.srcMac.toNat)
        ∧ (n.srcIp.toNat, n.srcMac.toNat, d.up) ∈ (d.arpResolve n.srcIp.toNat n.srcMac.toNat).ports.arp))
    ∧ (∀ (entry : Fin 8) x, d.ports.arp[entry.val]? = some x → d.netRuns = true → x.2.2 + 60 * ticksSec ≤ d.up →
      exec (.arpRefresh t entry) s = next (sent
        { d with ports := { d.ports with arp := d.ports.arp.set entry.val (x.1, x.2.1, d.up) } } (2 ^ 48 - 1) (.arp true x.1)))
    ∧ (∀ speed full, exec (.netLinkChange t speed full) s =
      next (({ d with ports := { d.ports with linkUp := decide (speed = 1000) && full } }.ptpRefresh).netResume))
    ∧ (∀ n : Fin 16, (d.session (16 + n)).isOpen = true →
      (d.session (16 + n)).lastAt + d.rd F.cmdNetIdle * ticksSec ≤ d.up →
      exec (.netSessionTimeout t n) s = next ((d.closeSession (16 + n)).raise 0x07)
      ∧ ((d.closeSession (16 + n)).session (16 + n)).isOpen = false)
    ∧ exec (.telemetryDatagramTimeout t) s =
      next (((List.range 16).filter d.telDue).foldl (fun d k => d.telDatagram (48 + k)) d)

/-- Time (R196, R202 to R206): an exchange is initiated on every lane R204 names once its interval has passed; a source of a lane lost
freezes the rate at the frequency, shows holdover and raises class 8, once; the servo's frequency and rate stay within 100 ppm. -/
def Obligations.FabricTimeFollowsItsSource : Prop :=
  ∀ (s : State) (t : Nat),
    let d := s.dev.advance t
    let next (e : Dev) : Host.Outcome State Fault Refusal := .next { s with dev := e }
    let interval (l : Nat) : Nat :=
      if (d.laneTime l).delays.length < 16 then 10 * ticksUs else d.rd F.timeSyncInt * ticksUs
    exec (.timeSyncInterval t) s = next (((List.range 55).filter fun l =>
      d.initiates l && d.spent (d.laneTime l).sentAt (interval l)).foldl Dev.sendSync d)
    ∧ ((d.rd F.timeSrc = 1 ∨ d.rd F.timeSrc = 2) →
      d.spent (max d.clock.lastSampleAt d.clock.srcFrom) (16 * d.rd F.timeSyncInt * ticksUs) = true →
      (d.on F.timeHoldover = true → exec (.timeSourceLost t) s = next d)
      ∧ (d.on F.timeHoldover = false → ∃ e, exec (.timeSourceLost t) s = next e
        ∧ e.rd F.timeRate = d.rd F.timeFreq ∧ e.rd F.timeHoldover = 1 ∧ e.rd F.timeSrcLost = 1
        ∧ e.coll.raises = d.coll.raises ++ [{ cls := 8, src := 0 }]))
    ∧ ∀ (x : Dev) (theta : Int), x.clock.haveSample = true → x.clock.lastSampleAt < x.up →
      let e := x.servo theta
      (s32 (e.rd F.timeFreq)).natAbs ≤ 429496 ∧ (s32 (e.rd F.timeRate)).natAbs ≤ 429496 ∧ e.clock.lastSampleAt = x.up

/-- The PTP port (R208, R210, R211, R213): messages of other domains, and its own, change nothing; a master answers delay requests with
their arrival, and peer delay requests are answered with the turnaround, in one step or two; a Sync of the master followed, in one step
or with its Follow_Up, gives an offset; the answers to its own requests give the mean delay; the messages of its state leave at their
intervals; the announce timeout forgets the master. -/
def Obligations.PtpPortRuns : Prop :=
  ∀ (s : State) (t : Nat) (m : PtpMsg),
    let d := s.dev.advance t
    let next (e : Dev) : Host.Outcome State Fault Refusal := .next { s with dev := e }
    let time := m.seconds * 1000000000 + m.nanos
    let mine : Prop := d.ptp.state.follows = true ∧ m.source = d.ptp.master
    let own : Prop := m.requester = d.ptpSelf
    let took (await : Bool) : Dev := { d with ptp := { d.ptp with
      syncSeq := m.seq, syncRx := m.rxAt, syncCorr := m.correction, awaitFollow := await } }
    (d.ptpRuns = false ∨ m.domain ≠ d.rd F.timePtpDomain ∨ m.source = d.ptpSelf → exec (.ptpMessage t m) s = next d)
    ∧ (d.ptpRuns = true → m.domain = d.rd F.timePtpDomain → m.source ≠ d.ptpSelf →
      (m.kind = .sync → mine → m.twoStep = false → exec (.ptpMessage t m) s = next ((took false).ptpOffset time m.correction))
      ∧ (m.kind = .sync → mine → m.twoStep = true → exec (.ptpMessage t m) s = next (took true))
      ∧ (m.kind = .followUp → mine → d.ptp.awaitFollow = true → m.seq = d.ptp.syncSeq → exec (.ptpMessage t m) s =
        next ({ d with ptp := { d.ptp with awaitFollow := false } }.ptpOffset time (d.ptp.syncCorr + m.correction)))
      ∧ (m.kind = .delayReq → d.ptp.state = .master → d.on F.timePtpP2p = false → exec (.ptpMessage t m) s =
        next (d.ptpSend (d.stamp { d.ptpFrame .delayResp m.seq with correction := m.correction, requester := m.source } m.rxAt)))
      ∧ (m.kind = .delayResp → mine → d.on F.timePtpP2p = false → own → m.seq = d.ptp.delaySeq →
        exec (.ptpMessage t m) s = next (d.ptpDelay (Int.tdiv
          (((d.toNet d.ptp.syncRx : Int) - (d.ptp.syncOrigin + d.ptp.syncCorr))
            + ((time : Int) - m.correction - d.toNet d.ptp.delayTx)) 2)))
      ∧ (m.kind = .pdelayReq → d.on F.timePtpP2p = true → exec (.ptpMessage t m) s = next (d.ptpPeerResp m))
      ∧ (m.kind = .pdelayResp → d.on F.timePtpP2p = true → own → m.seq = d.ptp.pdReqSeq → m.twoStep = false →
        exec (.ptpMessage t m) s = next ({ d with ptp := { d.ptp with pdT2 := time, pdT4 := m.rxAt, pdCorr := m.correction } }.ptpDelay
          (Int.tdiv ((d.toNet m.rxAt : Int) - d.toNet d.ptp.pdT1 - m.correction) 2)))
      ∧ (m.kind = .announce → m.stepsRemoved < 255 → d.ptp.masterRank = [] → ∃ e, exec (.ptpMessage t m) s = next e
        ∧ e.ptp.master = m.source ∧ e.ptp.masterRank = ptpMsgRank m ∧ e.ptp.announceAt = d.up))
    ∧ (d.ptpRuns = true →
      (let seq := (d.ptp.txSeq + 1) % 65536
       d.ptp.state = .master → d.ptpDue d.ptp.syncAt (d.rd F.timePtpLogSync) = true → exec (.ptpMessageInterval t .sync) s =
        next ({ d with ptp := { d.ptp with txSeq := seq, syncAt := some d.up } }.ptpSync seq))
      ∧ (let seq := (d.ptp.annSeq + 1) % 65536
       d.ptp.state = .master → d.ptpDue d.ptp.annAt (d.rd F.timePtpLogAnn) = true → exec (.ptpMessageInterval t .announce) s =
        next ({ d with ptp := { d.ptp with annSeq := seq, annAt := some d.up } }.ptpSend (d.ptpFrame .announce seq)))
      ∧ (let seq := (d.ptp.delaySeq + 1) % 65536
       d.ptp.state.follows = true → d.on F.timePtpP2p = false → d.ptpDue d.ptp.delayAt (d.rd F.timePtpLogDelay) = true →
        exec (.ptpMessageInterval t .delayReq) s = next
          ({ d with ptp := { d.ptp with delaySeq := seq, delayTx := d.now, delayAt := some d.up } }.ptpSend
            (d.ptpFrame .delayReq seq)))
      ∧ (d.spent d.ptp.announceAt (d.rd F.timePtpAnnTo * logTicks (d.rd F.timePtpLogAnn)) = true →
        let e := { d with ptp := { d.ptp with masterRank := [], master := 0, haveDelay := false, state := d.ptpDecide none } }
        (d.rd F.timeSrc ≠ 3 → exec (.ptpAnnounceTimeout t) s = next e)
        ∧ (d.rd F.timeSrc = 3 → exec (.ptpAnnounceTimeout t) s = next e.sourceLost)))

/-- Time pulses and captures (R216 to R218): a firing starts the pulse and, in periodic mode, names the next; a pulse ends, a programme
that waited takes effect and the firings it has outlasted are skipped; an enabled edge is captured with its polarity and instant while
the FIFO of 16 has room, and is counted lost when it has none. SET_TPO (R216, R217): an output whose level is low is programmed at once;
one whose pulse is running takes the programme at the end of the pulse, its first firing converted at execution. -/
def Obligations.PulsesAndCapturesAct : Prop :=
  (∀ (s : State) (t : Nat),
    let d := s.dev.advance t
    let next (e : Dev) : Host.Outcome State Fault Refusal := .next { s with dev := e }
    (∀ n : Fin 8,
      let x := d.tpo n
      let fired : Tpo := { x with level := true, endAt := d.now + d.rd F.timeTpoWidth n }
      (d.rd F.timeTpoMode n = 0 ∨ x.level = true ∨ d.now < x.next → exec (.tpoFiring t n) s = next d)
      ∧ (x.level = false → x.next ≤ d.now →
        (d.rd F.timeTpoMode n = 1 → exec (.tpoFiring t n) s =
          next ((d.setTpo n { fired with next := 0 }).wr F.timeTpoMode 0 n))
        ∧ (d.rd F.timeTpoMode n = 2 → d.on F.timeTpoNet n = false → exec (.tpoFiring t n) s =
          next (d.setTpo n { fired with next := x.next + x.period }))
        ∧ (d.rd F.timeTpoMode n = 2 → d.on F.timeTpoNet n = true → exec (.tpoFiring t n) s =
          next (d.setTpo n { fired with nextNet := x.nextNet + x.period, next := d.toFabric (x.nextNet + x.period) })))
      ∧ (x.level = true → x.endAt ≤ d.now →
        let low := d.setTpo n { x with level := false }
        (x.pending = none → d.rd F.timeTpoMode n = 0 → exec (.tpoPulseEnd t n) s = next low)
        ∧ (x.pending = none → d.on F.timeTpoNet n = false → exec (.tpoPulseEnd t n) s = next (low.tpoSkip n))
        ∧ (∀ p, x.pending = some p → exec (.tpoPulseEnd t n) s = next ((low.programTpo n p).tpoSkip n))))
    ∧ (∀ (n : Fin 4) (rising : Bool),
      let bit := if rising then 0 else 1
      ((d.rd F.timeTciEdge n).testBit bit = false → exec (.tciEdge t n rising) s = next d)
      ∧ ((d.rd F.timeTciEdge n).testBit bit = true → (d.tci n).length < 16 → exec (.tciEdge t n rising) s =
        next (((d.setTci n (d.tci n ++ [(if rising then 2 ^ 63 else 0) + d.now % 2 ^ 63])).wr F.timeTciFill
          ((d.tci n).length + 1) n).raise 0x1C))
      ∧ ((d.rd F.timeTciEdge n).testBit bit = true → 16 ≤ (d.tci n).length → exec (.tciEdge t n rising) s =
        next (((d.raise 0x1C).bump F.timeTciLost n).raise 0x1B))))
  ∧ (∀ (d : Dev) (n : Nat), d.rd F.timeTpoMode n = 2 → d.on F.timeTpoNet n = false → 0 < (d.tpo n).period →
    (d.now ≤ (d.tpo n).next → d.tpoSkip n = d)
    ∧ ((d.tpo n).next < d.now →
      let x := (d.tpoSkip n).tpo n
      d.now ≤ x.next ∧ x.next < d.now + (d.tpo n).period ∧ (x.next - (d.tpo n).next) % (d.tpo n).period = 0))
  ∧ (∀ (s : State) (t : Nat) (src : Src) (h : Hdr) (index mode : Byte) (start period : BitVec 64),
    let p : Pkt := { op := 0x71, t := t, src := src, hd := h, need := { auth := authC }
                     payload := [index, mode, 0, 0] ++ le 8 start.toNat ++ le 8 period.toNat }
    let d := p.taken s
    let n := index.toNat
    let net := mode.toNat.testBit 2
    let first := if net then d.toFabric start.toNat else start.toNat
    let ticks := if net then 10 * period.toNat else period.toNat
    let prog : TpoProg := { mode := mode.toNat % 4, net := net, start := start.toNat, period := period.toNat, first := first }
    p.Admitted s → n ≤ 7 → mode.toNat < 8 → mode.toNat % 4 ≠ 3 →
    (mode.toNat % 4 = 2 → 1000 ≤ ticks ∧ d.rd F.timeTpoWidth n + 8 < ticks) →
    (net = true → d.on F.timeNetValid = true) → d.now + 100000 ≤ first →
    ((d.tpo n).level = false → exec (.setTpo t src h index mode start period) s =
      .next (p.answered s (d.programTpo n prog) stOk []))
    ∧ ((d.tpo n).level = true → exec (.setTpo t src h index mode start period) s =
      .next (p.answered s (d.setTpo n { d.tpo n with pending := some prog }) stOk [])))

/-! ## The lanes (chapters 6 and 7) -/

/-- Bring-up (R147 to R149, R151 to R153): signal starts the hunt, lock gives EXCHANGE; valid TRAIN blocks that are heard end it, or
its ROLE fails it; 16 SWITCH blocks sent and 4 heard give the quiet time, after which the new rate is hunted and verified; the last
VERIFY gives READY, whose last block gives UP with the frame layer anew; attempts that fail are counted and the third in a row gives
FAILED (log entry 24, the model's choice); a lock lost in UP is hunted again, and a hunt that fails, or locks late, restarts the
lane. -/
def Obligations.LanesComeUp : Prop :=
  ∀ (s : State) (t : Nat) (n : Fin 55),
    let d := s.dev.advance t
    let l := n.val
    let x := d.lane l
    let next (e : Dev) : Host.Outcome State Fault Refusal := .next { s with dev := e }
    let detect (o : Host.Outcome State Fault Refusal) : Prop := ∃ e, o = next e
      ∧ e.rd F.laneState l = 1 ∧ e.rd F.laneRate l = 0 ∧ e.rd F.laneLocked l = 0
    (d.laneState l = 1 → exec (.laneSignalDetect t n) s =
      next ((d.setLane l { x with attemptAt := d.up, stepAt := d.up, seen := 0, run := 0 }).wr F.laneState 2 l))
    ∧ (x.quiet = false → x.fallback = false → ∀ after,
        (d.laneState l = 2 ∧ x.atNew = false ∧ after = 3) ∨ (d.laneState l = 2 ∧ x.atNew = true ∧ after = 5)
          ∨ (d.laneState l = 9 ∧ d.up ≤ x.rehuntAt + 20 * ticksUs ∧ after = 7) →
      ∃ e, exec (.laneBlockLock t n) s = next e ∧ e.rd F.laneState l = after ∧ e.rd F.laneLocked l = 1
        ∧ (l = 48 → (e.session 32).isOpen = true ∧ (e.session 32).auth = d.rd F.cmdParentMaxAuth))
    ∧ (x.quiet = false → d.laneState l = 9 → x.rehuntAt + 20 * ticksUs < d.up → detect (exec (.laneBlockLock t n) s))
    ∧ (d.laneUp l = true → d.on F.laneLocked l = true →
      ∃ e, exec (.laneLockLost t n) s = next e ∧ e.rd F.laneState l = 9 ∧ e.rd F.laneLocked l = 0
        ∧ (l = 48 → (e.session 32).isOpen = false))
    ∧ (d.laneState l = 9 → d.spent x.rehuntAt (20 * ticksUs) = true → detect (exec (.rehuntTimeout t n) s))
    ∧ (∀ phase caps rate role port count : Byte, trainValid phase.toNat caps.toNat role.toNat = true →
      let y := d.noteTrain l (phase.toNat % 16)
      (d.laneUp l = true → phase.toNat % 16 = 1 → detect (exec (.train t n phase caps rate role port count) s))
      ∧ (d.laneState l = 3 → phase.toNat = 17 → x.seen + 1 < 8 → exec (.train t n phase caps rate role port count) s =
        next (((y.wr F.laneFarCaps caps.toNat l).wr F.laneFarRole role.toNat l).setLane l { y.lane l with seen := x.seen + 1 }))
      ∧ (d.laneState l = 3 → phase.toNat = 17 → 7 ≤ x.seen → role.toNat ≠ farRole l → d.rd F.laneAttempts l + 1 < 3 →
        ∃ e, exec (.train t n phase caps rate role port count) s = next e
          ∧ e.rd F.laneState l = 1 ∧ e.rd F.laneRoleMismatch l = 1 ∧ e.rd F.laneAttempts l = d.rd F.laneAttempts l + 1)
      ∧ (∀ r, d.laneState l = 3 → phase.toNat = 17 → 7 ≤ x.seen → role.toNat = farRole l → x.fallback = false →
        nextRate (caps.toNat &&& d.rd F.laneRateEn l &&& x.cut) (d.rd F.laneRate l) = some r →
        ∃ e, exec (.train t n phase caps rate role port count) s = next e
          ∧ e.rd F.laneState l = 4 ∧ (e.lane l).target = r ∧ (e.lane l).toSend = 16 ∧ (e.lane l).seen = 0)
      ∧ (d.laneState l = 4 → x.quiet = false → phase.toNat % 16 = 2 → rate.toNat = x.target → x.target ≤ 4 →
        (3 ≤ x.seen ∧ x.toSend = 0 → ∃ e, exec (.train t n phase caps rate role port count) s = next e
          ∧ (e.lane l).quiet = true ∧ (e.lane l).quietAt = d.up ∧ e.rd F.laneRate l = x.target ∧ e.rd F.laneLocked l = 0)
        ∧ (x.seen < 3 ∨ x.toSend ≠ 0 → exec (.train t n phase caps rate role port count) s =
          next (y.setLane l { y.lane l with seen := x.seen + 1 }))))
    ∧ (d.laneState l = 4 ∨ d.laneState l = 6 → x.quiet = true → d.spent x.quietAt (10 * ticksUs) = true →
      exec (.laneQuietEnd t n) s = next ((d.setLane l { x with
        quiet := false, atNew := decide (d.laneState l = 4), seen := 0, run := 0, stepAt := d.up }).wr F.laneState 2 l))
    ∧ (d.laneState l = 5 → d.verifyDue l ≤ d.up → x.ready = false → x.farHeard = true → x.fallback = false →
      (∀ r, nextRate x.mask (d.rd F.laneRate l) = some r → ∃ e, exec (.laneVerifyPassed t n) s = next e
        ∧ e.rd F.laneState l = 4 ∧ (e.lane l).target = r ∧ (e.lane l).toSend = 16 ∧ (e.lane l).verified = d.rd F.laneRate l)
      ∧ (nextRate x.mask (d.rd F.laneRate l) = none → ∃ e, exec (.laneVerifyPassed t n) s = next e
        ∧ e.rd F.laneState l = 5 ∧ (e.lane l).ready = true ∧ (e.lane l).toSend = 8
        ∧ (e.lane l).verified = d.rd F.laneRate l))
    ∧ (d.on F.clkLocked = true → d.laneState l = 5 → x.ready = true → x.toSend = 1 → x.quiet = false → x.douseLeft = 0 →
      x.busyUntil ≤ d.up → l < 53 → ∃ e, exec (.laneFrameTransmit t n) s = next e
        ∧ e.rd F.laneState l = 7 ∧ e.rd F.laneAttempts l = 0 ∧ e.rd F.laneRate l = d.rd F.laneRate l
        ∧ e.rd F.frmTxNext l = 0 ∧ e.rd F.frmTxAcked l = 255 ∧ e.rd F.frmRxExpect l = 0)
    ∧ (d.laneState l = 5 → x.ready = false → d.spent x.attemptAt (5 * ticksMs) = false →
      d.spent x.stepAt (100 * ticksUs) = true → ∃ e, exec (.laneAttemptTimeout t n) s = next e
        ∧ e.rd F.laneState l = 6 ∧ (e.lane l).fallback = true)
    ∧ (d.laneState l = 3 → (d.spent x.attemptAt (5 * ticksMs) = true ∨ d.spent x.stepAt (200 * ticksUs) = true) →
      ∃ e, exec (.laneAttemptTimeout t n) s = next e
      ∧ e.rd F.laneAttempts l = min 15 (d.rd F.laneAttempts l + 1)
      ∧ e.rd F.laneState l = if d.rd F.laneAttempts l + 1 < 3 then 1 else 11)
    ∧ (d.laneState l = 11 → d.spent x.failedAt (100 * ticksMs) = true → detect (exec (.laneFailedHoldEnd t n) s))

/-- Low power and bad blocks (R40, R146, R148, R152, R160, R161): a quiet U or D lane sleeps; a WAKE or the end of its wake time brings
it UP again; blocks with a bad sync header or of no known kind are counted while lock is held, and one in VERIFY begins its count
again; bit errors of PRBS31 are counted. DOUSE (R184, R185): a block of INDEX 0 to 7 and LEVEL 3 or 4 on a lane that holds lock is
seen: on a D or twin lane it raises 0x15, on U class 7 of its level when that cause was not active, on a cell lane it is counted (log
entries 27 and 72, the model's choice); any other is an unknown block. -/
def Obligations.LanesSleepAndSeeDouse : Prop :=
  (∀ (s : State) (t : Nat) (n : Fin 55),
    let d := s.dev.advance t
    let l := n.val
    let x := d.lane l
    let next (e : Dev) : Host.Outcome State Fault Refusal := .next { s with dev := e }
    let blocks (k : Nat) (type : Byte) : List (Bool × Bytes) := List.replicate k (true, plainBlock type)
    (48 ≤ l → l < 53 → d.laneUp l = true → x.wait = [] → x.held = [] → d.spent x.lastFrameAt ticksMs = true →
      exec (.laneIdleTimeout t n) s = next ((d.wr F.laneState 8 l).onLine l (.sleepBlocks 4) (blocks 4 0x14)))
    ∧ (d.laneState l = 8 → x.waking = false → exec (.wake t n) s =
      next (((d.setLane l { x with lastFrameAt := d.up }).wr F.laneState 7 l).onLine l (.wakeBlocks 8) (blocks 8 0x17)))
    ∧ (d.laneState l = 8 → x.waking = true → exec (.wake t n) s = next (d.wakeUp l)
      ∧ (d.spent x.wakeAt (2 * ticksUs) = true → exec (.laneWakeTimeout t n) s = next (d.wakeUp l))
      ∧ (d.wakeUp l).rd F.laneState l = 7)
    ∧ (d.on F.laneLocked l = true →
      (d.laneState l ≠ 5 → exec (.invalidBlock t n .syncHeader) s = next (d.bump F.laneBlocksBad l))
      ∧ (d.laneState l = 5 → exec (.invalidBlock t n .syncHeader) s =
        next ((d.bump F.laneBlocksBad l).setLane l { x with passed := false, verifyFrom := d.up }))
      ∧ (d.laneState l ≠ 3 → exec (.invalidBlock t n .unknownType) s = next (d.bump F.laneBlocksUnk l))
      ∧ (d.laneState l = 3 → exec (.invalidBlock t n .unknownType) s =
        next ((d.bump F.laneBlocksUnk l).setLane l { x with seen := 0 }))
      ∧ exec (.invalidBlock t n .badCheck) s = next ((d.bump F.laneBlocksUnk l).badTrain l))
    ∧ (d.on F.laneLocked l = false →
      ∀ why, why = .syncHeader ∨ why = .unknownType ∨ why = .badCheck → exec (.invalidBlock t n why) s = next d)
    ∧ (∀ bits, d.laneState l = 10 → d.rd F.laneLoopback l = 4 →
      exec (.invalidBlock t n (.prbsErrors bits)) s = next (d.bumpBy F.lanePrbsErr bits l)))
  ∧ (∀ (s : State) (t : Nat) (n : Fin 55) (index level epoch : Byte) (node : BitVec 16),
    let d := s.dev.advance t
    let l := n.val
    let seen := d.wr F.frmDouseSeen 1 l
    let next (e : Dev) : Host.Outcome State Fault Refusal := .next { s with dev := e }
    (d.on F.laneLocked l = false → exec (.douse t n index level epoch node) s = next d)
    ∧ (d.on F.laneLocked l = true → (7 < index.toNat ∨ level.toNat ≠ 3 ∧ level.toNat ≠ 4) →
      exec (.douse t n index level epoch node) s = next (d.bump F.laneBlocksUnk l))
    ∧ (d.on F.laneLocked l = true → index.toNat ≤ 7 → level.toNat = 3 ∨ level.toNat = 4 →
      (l < 48 → exec (.douse t n index level epoch node) s = next (seen.bump F.laneBlocksUnk l))
      ∧ (48 < l → exec (.douse t n index level epoch node) s = next (seen.raise 0x15))
      ∧ (l = 48 → d.causeActive 7 (level.toNat - 3) = false → ∃ e, exec (.douse t n index level epoch node) s = next e
        ∧ e.coll.raises = d.coll.raises ++ [{ cls := 7, src := level.toNat - 3 }] ∧ e.coll.douseUAt = some d.now)))

/-- What leaves a lane (R33, R167, R177, R178, R182): at a free block boundary a NAK or an ACK that is due goes before a frame of the
replay, a new frame goes under the next SEQ and is held, and an IDLE block goes where nothing waits; an ACK or NAK of a held SEQ
releases the frames before it, and a NAK or the replay timeout sends the rest again. -/
def Obligations.FramesAreSentAndAcknowledged : Prop :=
  ∀ (s : State) (t : Nat) (n : Fin 55),
    let d := s.dev.advance t
    let l := n.val
    let x := d.lane l
    let next (e : Dev) : Host.Outcome State Fault Refusal := .next { s with dev := e }
    (let y := d.drain l
      let x := y.lane l
      d.on F.clkLocked = true → y.transmits l = true → x.douseLeft = 0 → x.busyUntil ≤ y.up →
      (∀ q, x.nakDue = some q → exec (.laneFrameTransmit t n) s =
        next ((y.setLane l { x with nakDue := none }).onLine l (.nak q) [(true, seqBlock 0x41 q)]))
      ∧ (∀ q, x.nakDue = none → x.ackDue = some q → exec (.laneFrameTransmit t n) s =
        next ((y.setLane l { x with ackDue := none }).onLine l (.ack q) [(true, seqBlock 0x40 q)]))
      ∧ (∀ q rest h, x.nakDue = none → x.ackDue = none → x.again = none → x.replay = q :: rest →
        (x.held.find? fun h => h.seq == q) = some h → exec (.laneFrameTransmit t n) s =
          next (((y.setLane l { x with replay := rest }).bump F.frmReplays l).sendFrame l q h.item h.void true))
      ∧ (∀ i, x.nakDue = none → x.ackDue = none → x.again = none → x.replay = [] → y.nextItem l = some i →
        ∃ e v at_ bytes, exec (.laneFrameTransmit t n) s = next e
          ∧ e.rd F.frmTxNext l = (y.rd F.frmTxNext l + 1) % 256
          ∧ (e.lane l).held = x.held ++ [{ seq := y.rd F.frmTxNext l, item := i, void := v, endAt := at_ }]
          ∧ (e.lane l).sending = some (.frame (y.rd F.frmTxNext l) bytes))
      ∧ (x.nakDue = none → x.ackDue = none → x.again = none → x.replay = [] → y.nextItem l = none →
        exec (.laneFrameTransmit t n) s = next (y.onLine l .idle [(true, idleBlock)])))
    ∧ (d.on F.clkLocked = false → exec (.laneFrameTransmit t n) s = next d)
    ∧ (∀ seq : Byte,
      let q := seq.toNat
      let after := heldAfter x.held q
      d.transmits l = true →
      ((x.held.any fun h => h.seq == q) = true →
        (∃ e, exec (.ack t n seq) s = next e ∧ (e.lane l).held = after true ∧ (e.lane l).retries = 0
          ∧ e.rd F.frmTxAcked l = q)
        ∧ (2 ≤ d.rd F.frmRetryMax → x.retries = 0 → ∃ e, exec (.nak t n seq) s = next e ∧ (e.lane l).held = after false
          ∧ (e.lane l).replay = (after false).map (·.seq) ∧ (e.lane l).retries = 1))
      ∧ ((x.held.any fun h => h.seq == q) = false →
        exec (.ack t n seq) s = next d ∧ exec (.nak t n seq) s = next d))
    ∧ (∀ h rest, x.held = h :: rest → d.transmits l = true → x.replay = [] →
      (d.spent h.endAt (d.rd F.frmReplayTo * ticksUs) = false → exec (.replayTimeout t n) s = next d)
      ∧ (d.spent h.endAt (d.rd F.frmReplayTo * ticksUs) = true →
        (2 ≤ d.rd F.frmRetryMax → x.retries = 0 → exec (.replayTimeout t n) s = next (d.setLane l { x with
          retries := 1, retrySeq := h.seq, again := none, replay := x.held.map (·.seq) }))
        ∧ (0 < x.retries → x.retrySeq = h.seq → d.rd F.frmRetryMax ≤ x.retries + 1 →
          exec (.replayTimeout t n) s = next (d.restartLane l))))

/-- What arrives on a lane (R171, R173, R176, R177): on a lane that is UP a frame in sequence is acknowledged, moves the SEQ
expected on and has the effect of its type; a VOID frame has none; a duplicate is acknowledged again and nothing more; a frame
out of sequence or with flags of no good is counted and answered with a NAK. So it is for every frame row; a frame that is not listed
for its lane is taken in sequence like any other, and counted. -/
def Obligations.FramesArriveInOrder : Prop :=
  ∀ (s : State) (t : Nat) (n : Fin 55) (f : RxFrame),
    let d := s.dev.advance t
    let l := n.val
    let expect := d.rd F.frmRxExpect l
    let next (e : Dev) : Host.Outcome State Fault Refusal := .next { s with dev := e }
    let burns (e : Dev) : Host.Outcome State Fault Refusal := .next { s with fuse := s.fuse.burn e, dev := e }
    let taken (ans : Dev → Host.Outcome State Fault Refusal) (f : RxFrame) (c : Instr) (ftype : Nat) (act : Dev → Dev) : Prop :=
      let q := f.seq.toNat
      let seen : Dev := if f.flags.getLsbD 1 || ftype == 0 then d else d.frameSeen l false d.now (rxBytes ftype f)
      let accepted : Dev :=
        let e := (seen.setLane l { seen.lane l with
          ackDue := some expect, naked := none, nakDue := none, lastFrameAt := d.up }).wr F.frmRxExpect ((expect + 1) % 256) l
        if l = 53 ∨ l = 54 then e.partnerHeard else e
      (d.laneUp l = false → exec c s = ans d)
      ∧ (d.laneUp l = true → badFlags l f.flags.toNat = true → exec c s = ans ((d.bump F.frmRxBad l).sendNak l))
      ∧ (d.laneUp l = true → badFlags l f.flags.toNat = false →
        (q = expect → f.flags.getLsbD 1 = false → exec c s = ans (act accepted))
        ∧ (q = expect → f.flags.getLsbD 1 = true → exec c s = ans (accepted.bump F.frmRxVoid l))
        ∧ (q ≠ expect → (expect + 255 - q) % 256 < 32 →
          exec c s = ans (seen.setLane l { seen.lane l with ackDue := some ((expect + 255) % 256) }))
        ∧ (q ≠ expect → 32 ≤ (expect + 255 - q) % 256 → exec c s = ans ((seen.bump F.frmRxBad l).sendNak l)))
    let row := taken next f
    row (.unitCommand t n f) 0x02 (·.unitCommand l f) ∧ row (.sample t n f) 0x03 (·.sampleFrame l f)
    ∧ row (.unitState t n f) 0x04 (·.unitState l f) ∧ row (.wick t n f) 0x05 (·.wickFrame l f)
    ∧ row (.timeSync t n f) 0x06 (·.timeSync l f) ∧ row (.timeResp t n f) 0x07 (·.timeResp l f)
    ∧ row (.manageReq t n f) 0x08 (·.manageReq l f)
    ∧ taken burns f (.manageResp t n f) 0x09 (·.manageResp l f)
    ∧ row (.health t n f) 0x0B (·.healthFrame l f) ∧ row (.stateCopy t n f) 0x0C (·.stateCopyFrame l f)
    ∧ row (.digest t n f) 0x0D (·.digestContent l f) ∧ row (.telemetry t n f) 0x0E (·.telemetryFrame l f)
    ∧ row (.event t n f) 0x0F (·.eventFrame l f)
    ∧ (∀ (seq : Byte) (why : Discard), why = .outOfSequence seq ∨ why = .notListed seq →
      taken next { seq := seq, flags := 0, addr := 0, deadline := 0, payload := [] } (.frameDiscarded t n why) 0
        (·.bump F.frmRxBad l))
    ∧ (d.laneUp l = true →
      (∀ why, why = .badHeader ∨ why = .cutShort ∨ why = .badCrc →
        exec (.frameDiscarded t n why) s = next ((d.bump F.frmRxBad l).sendNak l))
      ∧ exec (.frameDiscarded t n .stray) s = next (d.bump F.frmRxBad l))

/-- What cells send (R173, R353, R368, R414): a SAMPLE without the length, the count or the marker set that R174 and R353 give it
is discarded and counted; a marker's SAMPLE gives the slot its values and instant, one of the MOD.SMP0_OFS marker also the slot's
u of the next expansion (R236); on a unit without the Wick any SAMPLE does (log entry 50, the model's choice); a cell's UNIT_STATE
and HEALTH are kept, HEALTH 3 appearing raises class 10 (log entry 73, the model's choice); a cell event raises 0xA3 or, at
severity 2, class 10. -/
def Obligations.CellsAreHeard : Prop :=
  ∀ (d : Dev) (l : Nat) (f : RxFrame),
    let p := f.payload
    l < 48 →
    (d.slotNamed l f = none → d.sampleFrame l f = d.bump F.frmRxBad l)
    ∧ (∀ slot at_ vs,
      let c := d.cell slot
      (d.holdsWick = true → (c.markers.find? fun m => m.1 == at_) = none →
        d.sampleMatch slot at_ vs = (d.bump F.measCsBad).raise 0x5D)
      ∧ (∀ m, d.holdsWick = true → (c.markers.find? fun m => m.1 == at_) = some m →
        (vs.length ≠ (d.setIndices m.2.1).length → d.sampleMatch slot at_ vs = (d.bump F.measCsBad).raise 0x5D)
        ∧ (vs.length = (d.setIndices m.2.1).length → let e := d.sampleMatch slot at_ vs
          (e.cell slot).sampleAt = at_ ∧ (e.cell slot).sampled = true ∧ (e.cell slot).markers = c.markers.erase m
          ∧ (m.2.2 ≠ 0 → (e.cell slot).u = tget (fun _ => 0) (e.cell slot).values 0 ∧ (e.cell slot).uAt = at_
            ∧ (e.cell slot).uFresh = true)
          ∧ (m.2.2 = 0 → (e.cell slot).u = c.u ∧ (e.cell slot).uAt = c.uAt)))
      ∧ (d.holdsWick = false → ((d.sampleMatch slot at_ vs).cell slot).sampleAt = at_))
    ∧ (∀ slot u, d.slotNamed l f = some slot → parseUState p = some u →
      ((d.unitState l f).cell slot).health = u.health ∧ ((d.unitState l f).cell slot).reported = true
      ∧ (u.health = 3 → (d.cell slot).health ≠ 3 →
        (d.unitState l f).coll.raises = d.coll.raises ++ [{ cls := 10, src := slot }]))
    ∧ (∀ slot, cellAddr l f = some slot → slot ≠ 127 → p.length = 32 → zeroRange p 30 2 = true →
      d.healthFrame l f = d.setCell slot { d.cell slot with healthReport := p })
    ∧ (p.length = 20 → zeroRange p 3 1 = true → zeroRange p 15 1 = true → byteAt p 2 / 2 = l →
      (byteAt p 14 < 2 → d.eventFrame l f = d.raise 0xA3 (leAt p 12 8))
      ∧ (byteAt p 14 = 2 → d.populated (byteAt p 2) = true →
        d.eventFrame l f = d.fault 10 (byteAt p 2) (leAt p 12 8)))

/-- What the partner sends (R385, R387, R390, R391, R396): a WICK gives its instant, expiry and epoch, and one of a higher epoch
ends this unit's own holding with class 24; chunks and digests of a state copy are placed by their cycle on the unit without the
Wick; a Pilot report is kept, and one with a divergence pending starts Flame's self-check. -/
def Obligations.PartnerFramesAreTaken : Prop :=
  ∀ (d : Dev) (l : Nat) (f : RxFrame),
    let p := f.payload
    l = 53 ∨ l = 54 →
    (p.length = 24 → byteAt p 14 ≤ 1 → 1 ≤ byteAt p 15 → byteAt p 15 ≤ 64 →
      let w : Dev := { d with twin := { d.twin with
        wickAt := some d.now, wickExpiry := leAt p 4 8, wickEpoch := leAt p 0 4 } }.wr F.twinPartnerRole 1
      (d.rd F.twinRole = 1 → d.rd F.twinEpoch < leAt p 0 4 → d.wickFrame l f = (w.superseded 1).sawEpoch (leAt p 0 4)
        ∧ (w.superseded 1).rd F.twinRole = 6 ∧ (w.superseded 1).twin.leaseOut = false)
      ∧ ((d.rd F.twinRole ≠ 1 ∨ leAt p 0 4 ≤ d.rd F.twinEpoch) → d.wickFrame l f = w.sawEpoch (leAt p 0 4)
        ∧ (d.holdsWick = false → (d.wickFrame l f).rd F.twinEpoch = max (d.rd F.twinEpoch) (leAt p 0 4))))
    ∧ (d.holdsWick = false → 17 ≤ p.length → p.length ≤ 256 → zeroRange p 12 4 = true → leAt p 8 2 < leAt p 10 2 →
      ∃ c, (d.stateCopyFrame l f).twin.copy = some c ∧ c.cycle = leAt p 0 4
        ∧ tget (fun _ => []) c.got (leAt p 8 2) = p.drop 16)
    ∧ (d.holdsWick = false → 1 ≤ byteAt p 5 → byteAt p 5 ≤ 31 → p.length = 8 + 8 * byteAt p 5 → zeroRange p 6 2 = true →
      (d.digestContent l f).twin.digestCycle = leAt p 0 4
      ∧ ∀ i, i < byteAt p 5 → tget (fun _ => 2 ^ 64) (d.digestContent l f).twin.digests (byteAt p 4 + i) = leAt p (8 + 8 * i) 8)
    ∧ (d.holdsWick = true → d.stateCopyFrame l f = d.bump F.frmRxBad l ∧ d.digestContent l f = d.bump F.frmRxBad l)
    ∧ (p.length = 52 → zeroRange p 15 1 = true → (byteAt p 13).testBit 6 = false →
      let e := d.healthFrame l f
      e.twin.report = p ∧ e.twin.reportAt = some d.now ∧ e.rd F.twinPartnerRole = byteAt p 12 % 8
      ∧ (d.rd F.twinRole = 1 → (byteAt p 13).testBit 5 = true → d.twin.checking = false →
        e.twin.checking = true ∧ e.twin.checkResult = 0 ∧ e.twin.checkAt = d.now))

/-- Routing and time on the lanes (R16, R175, R205, R206, R418, R469): a frame for another node leaves by its route, or counts a
route miss; MANAGE segments join in order, and a message not complete in time is discarded with event 0x16; a TIME_SYNC is
answered (one sent again counts once: log entry 167) and a TIME_RESP of the exchange in hand gives a delay and ends it; telemetry of a
child goes toward U. What is passed on at rank 5 ranks as member 1 (log entry 174). -/
def Obligations.FramesAreRoutedAndTimed : Prop :=
  ∀ (s : State) (t : Nat) (f : RxFrame),
    let d := s.dev.advance t
    let p := f.payload
    (∀ ftype rank,
      (d.route f.addr.toNat = .none → d.passOn ftype rank f = (d.bump F.grpRouteMiss).raise 0x0E)
      ∧ ∀ k, d.route f.addr.toNat = .lane k → d.passOn ftype rank f = d.forward k
        { ftype := ftype, rank := rank, member := if rank = 5 then 1 else 0, addr := f.addr.toNat, payload := p })
    ∧ (∀ (k : Nat) (x : TxItem), (49 ≤ k → d.rd F.grpDState (k - 49) ≠ 5) → d.laneLinked k = true →
      (d.queue (transitQueue k)).fill = 0 → d.forward k x = d.queueFrame k x)
    ∧ (∀ l req (x : Segment), (d.reasm.find? fun r => r.src == x.src && r.msgId == x.msgId && r.req == req && r.lane == l) = none →
      (x.seg = 0 → x.segs = 1 → d.join l req x = (d, some x.bytes))
      ∧ (x.seg = 0 → 1 < x.segs → d.join l req x = ({ d with reasm := d.reasm ++ [{
          src := x.src, msgId := x.msgId, req := req, lane := l, slot := x.slot, at_ := d.now, segs := x.segs, got := 1
          bytes := x.bytes }] }, none))
      ∧ (x.seg ≠ 0 → d.join l req x = (d.raise 0x16, none)))
    ∧ (∀ (src id : BitVec 16) (r : Reasm), d.reasm = [r] → r.src = src.toNat → r.msgId = id.toNat →
      (r.at_ + d.rd F.frmReasmTo * ticksMs ≤ d.now → exec (.manageReassemblyTimeout t src id) s =
        .next { s with dev := { d with reasm := [] }.raise 0x16 })
      ∧ (d.now < r.at_ + d.rd F.frmReasmTo * ticksMs → exec (.manageReassemblyTimeout t src id) s = .next { s with dev := d }))
    ∧ (∀ l, l = 48 ∨ l = 53 ∨ l = 54 → p.length = 16 → zeroRange p 10 6 = true → d.isSource l = false →
      ∃ x : Dev, d.timeSync l f = x.queueFrame l (farItem l 0x07 3 (le 8 d.now ++ zeros 8 ++ le 2 (leAt p 8 2) ++ zeros 6))
        ∧ (x.laneTime l).lastId = some (leAt p 8 2) ∧ x.regs = d.regs
        ∧ ((d.laneTime l).lastId = some (leAt p 8 2) → (d.laneTime l).answered ≤ 17 →
          (x.laneTime l).answered = (d.laneTime l).answered)
        ∧ ((d.laneTime l).lastId ≠ some (leAt p 8 2) → (x.laneTime l).answered = min 17 ((d.laneTime l).answered + 1)))
    ∧ (∀ l, l ≠ 48 → p.length = 24 → zeroRange p 18 6 = true → (d.laneTime l).pending = true →
      (d.laneTime l).clean = true → leAt p 16 2 = (d.laneTime l).syncId → leAt p 8 8 ≤ leAt p 0 8 + 100000 →
      (d.laneTime l).delays = [] →
      let sample := Int.tdiv (((d.now : Int) - (d.laneTime l).t1) - ((leAt p 8 8 : Int) - leAt p 0 8)) 2
      ((d.timeResp l f).laneTime l).delays = [sample] ∧ (d.timeResp l f).rd F.timeLaneDelay l = u32 sample
      ∧ ((d.timeResp l f).laneTime l).pending = false ∧ ((d.timeResp l f).laneTime l).done = true)
    ∧ (∀ l, 49 ≤ l → l ≤ 52 → 17 ≤ p.length → p.length ≤ 256 → zeroRange p 12 4 = true → d.on F.laneEn 48 = true →
      d.telemetryFrame l f = d.forward 48 { ftype := 0x0E, addr := f.addr.toNat, rank := 6, payload := p })
    ∧ (∀ l, l = 53 ∨ l = 54 → 5 ≤ p.length → p.length ≤ 256 → zeroRange p 3 1 = true →
      d.queueRoom 18 (entriesOf p.length) = true → d.eventFrame l f = ((d.putPacket 18 p).raise 0xA4).raise 0xB0)

/-! ## Trees and twins (chapters 14 and 15) -/

/-- The tree (R365, R368 to R371): a child that goes silent is lost and counted, with class 22; a readmitted child's ramp ends
in state 4; a parent that goes silent is lost, with class 23; after the hold a ramp starts where GRP.U_LOST_ACT asks for one.
Commands and reports of the tree (R363 to R365, R368): a UNIT_COMMAND that is not stale is accepted and waits for its instant,
and is passed on to the partner; a stale one is counted; a child's UNIT_STATE gives its capability, health and counts. -/
def Obligations.TreesCommandAndReport : Prop :=
  (∀ (s : State) (t : Nat),
    let d := s.dev.advance t
    let next (e : Dev) : Host.Outcome State Fault Refusal := .next { s with dev := e }
    (∀ n : Fin 4,
      ((d.child n).reportAt + d.rd F.grpChildTo * d.rd F.grpStateInt * d.cycle ≤ d.now →
        2 ≤ d.rd F.grpDState n → d.rd F.grpDState n ≤ 4 → ∃ e, exec (.childReportTimeout t n) s = next e
          ∧ e.rd F.grpDState n = 5 ∧ e.rd F.grpDLosses n = min 255 (d.rd F.grpDLosses n + 1)
          ∧ e.coll.raises = d.coll.raises ++ [{ cls := 22, src := n }] ∧ (e.child n).ramp = 0)
      ∧ (d.now < (d.child n).reportAt + d.rd F.grpChildTo * d.rd F.grpStateInt * d.cycle →
        exec (.childReportTimeout t n) s = next d)
      ∧ (d.rd F.grpDState n = 3 → d.rd F.grpReturnRamp ≤ (d.child n).ramp →
        exec (.childReturnRampEnd t n) s = next (d.wr F.grpDState 4 n)))
    ∧ (d.parentMissing = true → d.rd F.grpUState = 1 → ∃ e, exec (.parentLost t) s = next e
      ∧ e.rd F.grpUState = 2 ∧ e.rd F.grpParentLost = 1 ∧ e.group.lostAt = d.now
      ∧ e.coll.raises = d.coll.raises ++ [{ cls := 23, src := 0 }] ∧ ∀ q, e.rd F.grpCfQ q = d.rd F.grpCfQ q)
    ∧ (d.parentMissing = false → exec (.parentLost t) s = next d)
    ∧ (d.rd F.grpUState = 2 → d.group.lostAt + d.rd F.grpUHold * ticksMs ≤ d.now →
      (d.rd F.grpULostAct = 1 → exec (.uHoldExpiry t) s =
        next ({ d with group := { d.group with ramping := true } }.wr F.grpUState 3))
      ∧ (d.rd F.grpULostAct = 0 → exec (.uHoldExpiry t) s = next d)))
  ∧ (∀ (d : Dev) (f : RxFrame),
    (∀ c, d.forMe f = true → parseCommand f.payload = some c →
      (d.stale c = true → d.unitCommand 48 f = (d.parentHeard.bump F.grpCmdStale).raise 0x63)
      ∧ (d.stale c = false → ((d.unitCommand 48 f).group.accepted = some c.seq ∧ (d.unitCommand 48 f).group.pending = some c
        ∧ (d.unitCommand 48 f).group.heardAt = d.now ∧ (d.unitCommand 48 f).group.ramping = false
        ∧ (d.unitCommand 48 f).group.parentCycle = some (d.now / 32))))
    ∧ (∀ l, l ≠ 48 → d.unitCommand l f = d.bump F.frmRxBad l)
    ∧ (∀ n u, n < 4 → parseUState f.payload = some u → ∃ e, e = d.unitState (49 + n) f
      ∧ (e.child n).values = u.values ∧ (e.child n).reportAt = d.now ∧ (e.child n).present = u.present
      ∧ e.rd F.grpDHealth n = u.health ∧ e.rd F.grpDCap n = u.cap ∧ e.rd F.grpDHealthy n = u.healthy
      ∧ e.rd F.grpDTotal n = u.total)
    ∧ (∀ l, parseUState f.payload = none → d.unitState l f = d.bump F.frmRxBad l))

/-- Self-check and standby health (R378, R391, R394, R396 to R398): a self-check that ends shows its result and, failed, raises
class 25 and ends Flame's holding; test slices and loopback errors are counted; a Pilot report is sent with fresh counts; a
silent twin link is lost once; a lease that has run out lowers LEASE_OUT. -/
def Obligations.TwinHealthIsWatched : Prop :=
  ∀ (s : State) (t : Nat),
    let d := s.dev.advance t
    let next (e : Dev) : Host.Outcome State Fault Refusal := .next { s with dev := e }
    (∀ passed, d.twin.checking = true → d.twin.divPending = false → ∃ e, exec (.selftestDone t passed) s = next e
      ∧ e.twin.checking = false ∧ e.twin.checkResult = (if passed then 1 else 2) ∧ e.rd F.twinSelftestOk = flag passed
      ∧ (passed = true → e.coll.raises = d.coll.raises)
      ∧ (passed = false → e.coll.raises = d.coll.raises ++ [{ cls := 25, src := 0 }]
        ∧ (d.rd F.twinRole = 1 → e.rd F.twinRole = 6) ∧ (d.rd F.twinRole = 2 → d.paired = true → e.rd F.twinRole = 5)))
    ∧ (∀ passed, d.twin.checking = false → exec (.selftestDone t passed) s = next d)
    ∧ (d.twin.divPending = true → d.twin.flameResult = 0 → d.twin.checkResult = 1 → d.twin.checkAt + 5 * ticksMs ≤ d.now →
      exec (.flameSelftestTimeout t) s = next { d with twin := { d.twin with divEligible := true } })
    ∧ (d.paired = true → d.holdsWick = false →
      (exec (.testSlice t true) s = next { d with twin := { d.twin with
        slices := d.twin.slices + 1, nextSlice := (d.twin.nextSlice + 1) % 64 } })
      ∧ (∃ e, exec (.testSlice t false) s = next e ∧ e.twin.sliceFails = d.twin.sliceFails + 1
        ∧ e.coll.raises = d.coll.raises ++ [{ cls := 25, src := 1 }])
      ∧ (∀ failed : BitVec 55, exec (.standbyLoopbackTest t failed) s = next { d with twin := { d.twin with
        repLoopback := d.twin.repLoopback
          + ((List.range 55).filter fun l => d.lanePresent l && !d.on F.laneEn l && failed.getLsbD l).length } })
      ∧ (∃ e, exec (.pilotReportSend t) s = next e ∧ e.twin.ownReport = d.pilotReport
        ∧ e.twin.reportSeq = (d.twin.reportSeq + 1) % 2 ^ 32 ∧ e.twin.repCompared = 0 ∧ e.twin.repMismatch = 0
        ∧ e.twin.repUnverified = 0 ∧ e.twin.repCorrected = 0 ∧ e.twin.repLoopback = 0))
    ∧ (d.paired = true → d.twin.linkLost = false → (d.laneUp 53 = false ∧ d.laneUp 54 = false
        ∨ within d.twin.frameAt d.now d.leaseWait = false) →
      exec (.twinLinkLost t) s = next (({ d with twin := { d.twin with linkLost := true } }.fault 27 0).raise 0x6D))
    ∧ (d.twin.leaseOut = true →
      (d.rd64 F.twinExpiryLo F.twinExpiryHi ≤ d.now →
        exec (.leaseExpiry t) s = next { d with twin := { d.twin with leaseOut := false } })
      ∧ (d.now < d.rd64 F.twinExpiryLo F.twinExpiryHi → exec (.leaseExpiry t) s = next d))

/-- Pilot's replay (R389 to R391): without a complete copy there is none; a complete copy is used once, adopted from the
beginning of a round on, and from then each cycle is replayed and compared; a cycle whose digests agree ends the run of
mismatches, the third mismatch in a row is a divergence. -/
def Obligations.PilotReplaysAndCompares : Prop :=
  ∀ (s : State) (t : Nat),
    let d := s.dev.advance t
    let next (e : Dev) : Host.Outcome State Fault Refusal := .next { s with dev := e }
    (d.paired = true → d.holdsWick = false →
      (d.copyComplete = none → exec (.pilotReplay t) s = next d)
      ∧ ∀ cycle bs, d.copyComplete = some (cycle, bs) →
        let h := d.copyHeader bs
        let h : Dev := { h with twin := { h.twin with copy := none, replayed := some cycle } }
        let last := byteAt bs 40 % 2 == 1
        (h.twin.waitRound = true → leAt bs 36 2 ≠ h.enabledSlots.headD 0 → h.twin.inRound = false →
          exec (.pilotReplay t) s = next h)
        ∧ (h.twin.waitRound = true → leAt bs 36 2 = h.enabledSlots.headD 0 → ∃ e, exec (.pilotReplay t) s = next e
          ∧ e.twin.waitRound = !last ∧ e.twin.inRound = !last ∧ e.twin.replayed = some cycle)
        ∧ (h.twin.waitRound = false → ∃ x lacking, exec (.pilotReplay t) s = next
          (let y := (Dev.compareOutcome x lacking).wr F.twinCopyFull 1
          (if y.twin.divPending then y else y.adopt bs).divergenceResolve.eligibility)))
    ∧ ∀ x : Dev,
      let same := ∀ l, l < x.cellLanes → tget (fun _ => 0) x.sched.digests l = tget (fun _ => 0) x.twin.digests l
      (same → (x.compareOutcome []).rd F.twinDivRun = 0
        ∧ (x.compareOutcome []).twin.repCompared = x.twin.repCompared + 1
        ∧ (x.compareOutcome []).twin.repMismatch = x.twin.repMismatch)
      ∧ (¬ same → x.rd F.twinDivRun < 2 → (x.compareOutcome []).rd F.twinDivRun = x.rd F.twinDivRun + 1
        ∧ (x.compareOutcome []).twin.repMismatch = x.twin.repMismatch + 1)
      ∧ (¬ same → x.rd F.twinDivRun = 2 → (x.compareOutcome []).rd F.twinDiverged = 1
        ∧ (x.compareOutcome []).twin.divPending = true ∧ (x.compareOutcome []).twin.checking = true)

/-! ## The ledger (chapter 11) -/

/-- Checkpoints and the restore (R305, R307, R310): a checkpoint falls due after its hours and goes to the next sector; done,
its sector and number stand and 0x32 is raised; failed, 0x33, and the sector after it is tried an hour later; a restore without
a valid checkpoint starts from zero with 0x34. The rainflow count (R299, R300): the first temperature starts it; one that leaves
an extreme by no more than the hysteresis pushes nothing; a push never leaves more than 32 reversals. -/
def Obligations.LedgerIsKept : Prop :=
  (∀ (s : State) (t : Nat),
    let d := s.dev.advance t
    let next (e : Dev) : Host.Outcome State Fault Refusal := .next { s with dev := e }
    let hours := d.rd F.hmpCkptHours
    let start (e : Dev) (sector : Nat) : Dev :=
      { e with ledger := { e.ledger with wanted := some (sector % 16), retryAt := none } }.wr F.hmpCkptBusy 1
    let counting := d.rd F.hmpLedgerState = 2 ∨ d.rd F.hmpLedgerState = 3
    (hours ≠ 0 → d.ledger.ckptAt + hours * 3600 * ticksSec ≤ d.now → counting → d.on F.hmpCkptBusy = false →
      exec (.tallowCheckpointDue t) s =
        next (start { d with ledger := { d.ledger with ckptAt := d.now } } (d.rd F.hmpCkptSector + 1)))
    ∧ (hours = 0 → exec (.tallowCheckpointDue t) s = next d)
    ∧ (∀ sector bs, d.ledger.copy = some (sector, bs) →
      let e : Dev := { d with ledger := { d.ledger with copy := none } }.wr F.hmpCkptBusy 0
      exec (.tallowCheckpointDone t true) s = next
        ((({ e with ledger := { e.ledger with doneAt := d.now, retryAt := none } }.wr F.hmpCkptSector sector).wr F.hmpCkptSeq
          (leAt bs 8 4)).raise 0x32)
      ∧ exec (.tallowCheckpointDone t false) s = next
        (({ e with ledger := { e.ledger with retryAt := some ((sector + 1) % 16, d.now) } }.wr F.hmpCkptFail 1).raise 0x33))
    ∧ (∀ sector at_, d.ledger.retryAt = some (sector, at_) → counting → d.on F.hmpCkptBusy = false →
      (at_ + 3600 * ticksSec ≤ d.now → exec (.tallowCheckpointRetry t) s = next (start d sector))
      ∧ (d.now < at_ + 3600 * ticksSec → exec (.tallowCheckpointRetry t) s = next d))
    ∧ (d.rd F.hmpLedgerState = 1 →
      (∃ e, exec (.ledgerRestoreDone t none []) s = next e ∧ e.rd F.hmpRestoreNone = 1
        ∧ e.rd F.hmpLedgerState = (if d.on F.hmpTwEn then 2 else 3) ∧ e.wear = d.wear)
      ∧ (∀ (sector : Fin 16) (bs : Bytes), d.ckptValid bs = false → ∃ e,
        exec (.ledgerRestoreDone t (some sector) bs) s = next e ∧ e.rd F.hmpRestoreNone = 1 ∧ e.wear = d.wear)
      ∧ (∀ (sector : Fin 16) (bs : Bytes), d.ckptValid bs = true → ∃ e,
        exec (.ledgerRestoreDone t (some sector) bs) s = next e
        ∧ e.rd F.hmpCkptSector = sector.val ∧ e.rd F.hmpCkptSeq = leAt bs 8 4 ∧ e.ledger.hours = leAt bs 56 4
        ∧ e.rd F.hmpLedgerState = (if d.on F.hmpTwEn then 2 else 3))))
  ∧ (∀ (d : Dev) (s : Nat) (x : Int),
    let w := d.wearOf s
    let hyst : Int := (d.rd F.hmpTwHyst * 4 : Nat)
    (w.extreme = none → d.wearSample s x = d.setWear s { w with extreme := some x })
    ∧ (∀ e, w.extreme = some e → (e - x).natAbs ≤ hyst → ((d.wearSample s x).wearOf s).residue = w.residue
      ∧ (d.wearSample s x).regs = d.regs)
    ∧ (w.residue.length ≤ 32 → ((d.wearSample s x).wearOf s).residue.length ≤ 32))

/-! ## Memory, queues and Lantern (chapters 18 and 19) -/

/-- Scrubbing, self-refresh and spilled queues (R40, R449, R457, R458, R460, R461, R463): a scrub read counts what it corrects,
poisons what it cannot, and ends a pass with its event; the DRAM wakes once its scrub lags by MEM.DSCRUB_BATCH pages and sleeps after
10 ms without access (a timer event counts within one part in 10,000 of its interval: log entry 18); an empty head takes the next page of its spill. -/
def Obligations.MemoryIsScrubbedAndRefilled : Prop :=
  ∀ (s : State) (t : Nat),
    let d := s.dev.advance t
    let next (e : Dev) : Host.Outcome State Fault Refusal := .next { s with dev := e }
    (∀ (bank : Fin 96) (word : Fin 16384),
      (d.on F.memScrubPaused = true → ∀ o w p, exec (.sramScrubStep t bank word o w p) s = next d)
      ∧ (d.on F.memScrubPaused = false →
        exec (.sramScrubStep t bank word .clean false false) s = next d
        ∧ (∀ bits, exec (.sramScrubStep t bank word (.corrected bits) false false) s = next (d.sramCorrected bank))
        ∧ (∀ bits, exec (.sramScrubStep t bank word (.corrected bits) true false) s =
          next ((d.sramCorrected bank).bump F.memScrubCancelled))
        ∧ (d.mem.sramPoison.contains (bank.val, word.val) = false → ∃ e,
          exec (.sramScrubStep t bank word .uncorrectable false false) s = next e
          ∧ e.mem.sramPoison.contains (bank.val, word.val) = true)
        ∧ exec (.sramScrubStep t bank word .clean false true) s =
          next ((d.wr F.memSpassAt (d.now / 2 ^ 32)).raise 0xAE)))
    ∧ (∀ page : Fin 8388608,
      let settled (e : Dev) : Dev := { e with mem := { e.mem with draining := e.mem.draining && decide (0 < e.scrubLag) } }
      let read : Dev := { d with mem := { d.mem with passDone := d.mem.passDone + 1 } }
      d.on F.memScrubPaused = false → d.hasDram = true → d.on F.memSelfRef = false →
      (d.page page = none → ∀ o w, exec (.dramScrubStep t page o w false) s = next (settled d))
      ∧ (∀ x, d.page page = some x →
        (∀ w, exec (.dramScrubStep t page .clean w false) s = next (settled read))
        ∧ (∀ bits, exec (.dramScrubStep t page (.corrected bits) false false) s = next (settled (read.dramCorrected bits)))
        ∧ exec (.dramScrubStep t page .uncorrectable false false) s = next (settled (read.dramPoison page x.tag))
        ∧ exec (.dramScrubStep t page .uncorrectable true false) s = next (settled (read.bump F.memScrubCancelled))
        ∧ ∀ w, exec (.dramScrubStep t page .clean w true) s = next (settled
          (({ d with mem := { d.mem with passFrom := d.up, passDone := 0 } }.wr F.memDpassAt (d.now / 2 ^ 32)).raise 0xAF))))
    ∧ (∀ (page : Fin 8388608) o w p, d.on F.memScrubPaused = true ∨ d.hasDram = false ∨ d.on F.memSelfRef = true →
      exec (.dramScrubStep t page o w p) s = next d)
    ∧ (d.on F.memSelfRef = true →
      (d.rd F.memDscrubBatch ≤ d.scrubLag → exec (.dramScrubWake t) s =
        next ({ d with mem := { d.mem with draining := true } }.wr F.memSelfRef 0))
      ∧ (d.scrubLag < d.rd F.memDscrubBatch → exec (.dramScrubWake t) s = next d))
    ∧ (d.hasDram = true → d.mem.draining = false →
      (d.spent d.mem.lastAccess (10 * ticksMs) = true → exec (.dramSelfRefresh t) s = next (d.wr F.memSelfRef 1))
      ∧ (d.spent d.mem.lastAccess (10 * ticksMs) = false → exec (.dramSelfRefresh t) s = next d))
    ∧ (∀ n : Fin 64,
      let q := d.queue n
      (q.head ≠ [] → ∀ o, exec (.queueHeadRefill t n o) s = next d)
      ∧ (q.head = [] → q.sram ≠ [] → ∃ e r, exec (.queueHeadRefill t n .clean) s = next e
        ∧ (e.queue n).head = q.sram.take 16 ++ r ∧ (e.queue n).entries = q.entries)
      ∧ (∀ p es rest, q.head = [] → q.sram = [] → q.cooler = (p, es) :: rest → ∃ e r,
        exec (.queueHeadRefill t n .clean) s = next e ∧ (e.queue n).head = es ++ r ∧ (e.queue n).entries = q.entries))

/-- Lantern's events (R479, R480, R484, R487, R491): samples are taken while it is armed; a stage compares its channel as its
kind says; re-arming ends, a drained segment stands in DRAM with its header before it, a clear ends. -/
def Obligations.LanternSamplesAndDrains : Prop :=
  ∀ (s : State) (t : Nat),
    let d := s.dev.advance t
    let next (e : Dev) : Host.Outcome State Fault Refusal := .next { s with dev := e }
    (d.acq.armed = false → exec (.acqSample t) s = next d)
    ∧ (d.acq.armed = true → d.acq.samples = 0 → (d.now < d.acq.firstAt → exec (.acqSample t) s = next d)
      ∧ (d.acq.firstAt ≤ d.now → exec (.acqSample t) s = next d.acqSample))
    ∧ (d.acq.armed = true → d.acq.samples ≠ 0 →
      (d.now + 1 < d.acq.lastAt + d.ctrlTicks (d.rd F.acqDiv + 1) → exec (.acqSample t) s = next d)
      ∧ (d.acq.lastAt + d.ctrlTicks (d.rd F.acqDiv + 1) ≤ d.now + 1 → exec (.acqSample t) s = next d.acqSample))
    ∧ (d.acqSample.acq.lastAt = d.now ∧ d.acqSample.acq.samples = d.acq.samples + 1)
    ∧ (∀ k r,
      let x := d.recordValue r (d.rd F.acqSChan k)
      let a := s32 (d.rd F.acqSA k)
      let b := s32 (d.rd F.acqSB k)
      let met : Bool := (d.stageMet k r).1.isSome
      (d.rd F.acqSKind k = 0 → (met = true ↔ a < x)) ∧ (d.rd F.acqSKind k = 1 → (met = true ↔ x < a))
      ∧ (d.rd F.acqSKind k = 2 → (met = true ↔ d.acq.primed = true ∧ a < x))
      ∧ (d.rd F.acqSKind k = 3 → (met = true ↔ d.acq.primed = true ∧ x < a))
      ∧ (d.rd F.acqSKind k = 4 → (met = true ↔ a ≤ x ∧ x ≤ b)) ∧ (d.rd F.acqSKind k = 5 → (met = true ↔ x < a ∨ b < x)))
    ∧ (d.rd F.acqState = 3 → d.spent d.acq.rearmFrom 4000 = true → exec (.acqRearmDone t) s = next (d.wr F.acqState 1))
    ∧ (d.rd F.acqState ≠ 3 ∨ d.spent d.acq.rearmFrom 4000 = false → exec (.acqRearmDone t) s = next d)
    ∧ (d.acq.drain = [] → exec (.acqSegmentDrained t) s = next d)
    ∧ (∀ g rest, d.acq.drain = g :: rest → ∃ x : Dev, exec (.acqSegmentDrained t) s = next (x.queueHeader (d.segHeader g))
      ∧ x.acq.drain = rest ∧ (x.page (d.segPage g.index)).map (·.data) = some (padTo 1024 (d.segHeader g)))
    ∧ exec (.acqClearDone t) s = next { d with acq := { d.acq with clearing := 0 } }

/-! ## Every command and every step -/

/-- A step runs the command at the front of the queue on the state with the queue's rest. On an empty queue (log entry 2, the
model's choice) one EDGE cycle of fabric time passes while the counter runs, and the control engine with it; nothing at all happens
while it does not. -/
def Obligations.StepRunsTheFrontCommand : Prop :=
  (∀ (s : State) (c : Instr) (rest : List Instr), step { s with pending := c :: rest } = exec c { s with pending := rest })
  ∧ (∀ (s : State) (c : Instr) (rest : List Instr), s.pending = c :: rest → step s = exec c { s with pending := rest })
  ∧ ∀ s : State, s.pending = [] →
    (s.dev.timeRuns = false → step s = .next s)
    ∧ (s.dev.timeRuns = true → step s = .next { s with dev := s.dev.idleTick } ∧ s.dev.idleTick.now = s.dev.edgeTick.now
      ∧ s.dev.now ≤ s.dev.idleTick.now)

/-- Every command is taken, well-formed or not: exec answers a next state whose queue is the one it was given; no command faults and
none is refused. -/
def Obligations.WellFormedCommandsComplete : Prop :=
  ∀ (c : Instr) (s : State), ∃ u, exec c s = .next u ∧ u.pending = s.pending

/-- What the block holds right after reset (R43, R48, R116, R163, R188, R421): no command waiting, no mode entered, the PLL not
locked, no class set, every lane disabled at rate code 7 with SEQ 0xFF acknowledged, the Basket empty and without owner, the
fuses sound. -/
def Obligations.ResetLeavesTheBlockIdle : Prop :=
  let s := State.reset
  s.pending = [] ∧ s.fuse.sound ∧ s.dev.boot.stage = .waiting ∧ s.dev.rd F.clkLocked = 0 ∧ s.dev.rd F.stgGen = 0
  ∧ s.dev.rd F.stgOwner = 0xFF ∧ s.dev.basket.words = [] ∧ s.dev.coll = {}
  ∧ (∀ l, l < 55 → s.dev.rd F.laneState l = 0 ∧ s.dev.rd F.laneRate l = 7 ∧ s.dev.rd F.frmTxAcked l = 255)
  ∧ (∀ k, k < 128 → s.dev.rd F.fltActive k = 0) ∧ (∀ k, k < 64 → (s.dev.queue k).entries = [])
  ∧ s.dev.timeRuns = false

/-- Fuses are programmed once (R48): whatever a step does from a state whose fuses are sound, signed boot and the locked key
hash stay as they are once programmed, and signed boot never stands without a locked hash. -/
def Obligations.EveryStepKeepsTheFuses : Prop :=
  ∀ s u : State, s.fuse.sound → step s = .next u → u.fuse.sound ∧ s.fuse.keeps u.fuse

/-- How a packet of an opcode row is taken (R89, R94, R97, R98, R100, R102, R108, R111, R112), for every opcode and handler: not at all
while its port takes none; refused with BAD_LENGTH where its length or that of its reply does not suit the port; the kept reply again for
a duplicate with a clean header; discarded, with framing error 3 and 0x05, without credit; refused, and nothing else, where a check of
R100 steps 3 to 8 fails; INTERNAL where a firmware fault strikes it (log entry 159); answered as its handler says where none does. -/
def Obligations.PacketsAreTakenInOrder : Prop :=
  ∀ (s : State) (p : Pkt) (h : Handler),
    let d := p.arrived s
    let k := p.ticket s
    let out := s.dev.serve p.op p.t p.src p.hd p.payload p.need h
    let credit := d.hasCredit (windowOf p.src p.hd.session.toNat)
    let discarded := ((d.bump F.cmdDiscarded (portWord p.src)).wr F.cmdLastFraming 3 (portWord p.src)).raise 0x05
    let room := p.src = .host → (p.entered s).replyRoom p.op = true
    let refusal := (p.entered s).precheck (p.ctx s) p.need
    (d.portActive p.src = false → out = d)
    ∧ (d.portActive p.src = true → lengthsFit p.src p.payload p.need = false →
      (credit = false → out = discarded)
      ∧ (credit = true → out = ((d.spend k).heard k).sendReply k stBadLength (refusalData 0xFFFF 0 0xFF 0)))
    ∧ (d.portActive p.src = true → lengthsFit p.src p.payload p.need = true →
      (∀ r, (p.ctx s).clean = true → d.duplicate k = some r → out = (d.heard k).resend k r)
      ∧ ((p.ctx s).clean = false ∨ d.duplicate k = none →
        (credit = false → out = discarded)
        ∧ (credit = true → room →
          (∀ st reason, refusal = some (st, reason) →
            out = (p.entered s).sendReply k st (refusalData 0xFFFF 0 0xFF reason))
          ∧ (refusal = none → (p.entered s).ports.internalDue = true →
            out = { p.entered s with ports := { (p.entered s).ports with internalDue := false } }.sendReply k stInternal
              (refusalData 0xFFFF 0 0xFF 0))
          ∧ (refusal = none → (p.entered s).ports.internalDue = false →
            (∀ st data e, h (p.ctx s) (p.taken s) = .reply st data e →
              (data.length ≤ replyLimit p.src → out = e.sendReply k st data)
              ∧ (replyLimit p.src < data.length →
                out = (p.taken s).sendReply k stBadLength (refusalData 0xFFFF 0 0xFF 0)))
            ∧ (∀ why e, h (p.ctx s) (p.taken s) = .park why e →
              out = { e with parked := e.parked ++ [{ ticket := k, why := why }] })))))

/-! ## Rules of the spec word for word -/

/-- R90: READ_REPLY sends the oldest complete reply waiting for the host port. A reply cut short is offered again, whole;
clocked out to its last CRC byte it leaves the queue; with no reply waiting, 0x00 is driven on every byte (nothing stands in
hostOut, and beyond what stands there the port drives zeros). -/
def Obligations.ReadReplyOffersTheOldest : Prop :=
  ∀ (s : State) (t : Nat),
    let d := s.dev.advance t
    d.portActive .host = true → (∀ x ∈ (d.queue 0).cooler, x.2 ≠ []) →
    (∀ p rest, (d.queue 0).packets = p :: rest →
      exec (.readReply t false) s = .next { s with fuse := s.fuse.burn d, dev := d.driveHost p }
      ∧ ((d.driveHost p).queue 0).packets = p :: rest
      ∧ ∃ x : Dev, (x.queue 0).packets = rest ∧ exec (.readReply t true) s =
        let e := (x.driveHost p).resumeParked
        .next { s with fuse := s.fuse.burn e, dev := e })
    ∧ ((d.queue 0).packets = [] → ∀ c, exec (.readReply t c) s = .next { s with fuse := s.fuse.burn d, dev := d.driveHost [] })

/-- R202: an offset sample moves TIME.FREQ by θ × 2^32 / (16 × T) and TIME.RATE by a further quarter of that divisor, each held
within ±429,496, divisions rounding toward zero; both are 0 at Light. -/
def Obligations.ServoFollowsItsSamples : Prop :=
  (∀ (d : Dev) (theta : Int), d.clock.haveSample = true → d.clock.lastSampleAt < d.up →
    let gap : Int := ((d.up - d.clock.lastSampleAt : Nat) : Int)
    let clamp (x : Int) : Int := max (-429496) (min 429496 x)
    let freq := clamp (s32 (d.rd F.timeFreq) - Int.tdiv (theta * 2 ^ 32) (16 * gap))
    let rate := clamp (freq - Int.tdiv (theta * 2 ^ 32) (4 * gap))
    s32 ((d.servo theta).rd F.timeFreq) = freq ∧ s32 ((d.servo theta).rd F.timeRate) = rate)
  ∧ ∀ d : Dev, d.lightClock.rd F.timeFreq = 0 ∧ d.lightClock.rd F.timeRate = 0

/-- R264: a regular slot is due at control-cycle index k when k mod (LOOP.DIV + 1) = LOOP.PHASE; a Basket that would leave an
enabled slot's LOOP.PHASE above LOOP.DIV fails CHECK with rule 0x02. -/
def Obligations.RegularSlotsFallDue : Prop :=
  (∀ (d : Dev) (s k : Nat), d.regular s = true → (d.due s k = true ↔ k % (d.rd F.loopDiv s + 1) = d.rd F.loopPhase s))
  ∧ ∀ (d : Dev) (s auth : Nat), s ∈ d.merged.enabledSlots → d.merged.rd F.loopDiv s < d.merged.rd F.loopPhase s →
    (F.loopPhase.soAt s, F.loopPhase.wordAt s, 24, 2) ∈ d.ckReport auth ∧ (d.runCheck auth).rd F.stgCkPass = 0
end

