-- ==== Sys2Proof/Laws/Dispatch.lean ====
section
/-!
SUPPORT. Laws/Dispatch.lean: each command's meaning, one lemma per constructor, so that no proof unfolds the whole dispatch.
-/
namespace Sys2Proof.Machine

theorem exec_sparkStart (t : Nat) (refSel : Bool) (s : State) :
    exec (.sparkStart t refSel) s = execSparkStart t refSel s := rfl

theorem exec_deviceReset (t : Nat) (cause : ResetCause) (s : State) :
    exec (.deviceReset t cause) s = execDeviceReset t cause s := rfl

theorem exec_supplyOutOfRange (t : Nat) (rail : RailCross) (s : State) :
    exec (.supplyOutOfRange t rail) s = execSupplyOutOfRange t rail s := rfl

theorem exec_fuseReadDone (t : Nat) (outcome : Option (FuseRead × Bool)) (s : State) :
    exec (.fuseReadDone t outcome) s = execFuseReadDone t outcome s := rfl

theorem exec_sparkPllTimeout (t : Nat) (s : State) :
    exec (.sparkPllTimeout t) s = execSparkPllTimeout t s := rfl

theorem exec_pllLocked (t : Nat) (found : LockFound) (s : State) :
    exec (.pllLocked t found) s = execPllLocked t found s := rfl

theorem exec_bandTableLockTimeout (t : Nat) (s : State) :
    exec (.bandTableLockTimeout t) s = execBandTableLockTimeout t s := rfl

theorem exec_rampEnd (t : Nat) (s : State) :
    exec (.rampEnd t) s = execRampEnd t s := rfl

theorem exec_sramInitDone (t : Nat) (s : State) :
    exec (.sramInitDone t) s = execSramInitDone t s := rfl

theorem exec_kindleHeaderRead (t : Nat) (slotB : Bool) (block : List Byte) (s : State) :
    exec (.kindleHeaderRead t slotB block) s = execKindleHeaderRead t slotB block s := rfl

theorem exec_kindleBlockRead (t : Nat) (block : List Byte) (s : State) :
    exec (.kindleBlockRead t block) s = execKindleBlockRead t block s := rfl

theorem exec_signatureVerified (t : Nat) (key signature : Unit) (s : State) :
    exec (.signatureVerified t key signature) s = execSignatureVerified t key signature s := rfl

theorem exec_dramTrainingDone (t : Nat) (passed : Bool) (ranks : Fin 4) (mib : Nat) (s : State) :
    exec (.dramTrainingDone t passed ranks mib) s = execDramTrainingDone t passed ranks mib s := rfl

theorem exec_light (t : Nat) (image : Unit) (s : State) :
    exec (.light t image) s = execLight t image s := rfl

theorem exec_refRecoveredClockMissing (t : Nat) (s : State) :
    exec (.refRecoveredClockMissing t) s = execRefRecoveredClockMissing t s := rfl

theorem exec_refFrequencyWindow (t : Nat) (ppmOff : Int) (s : State) :
    exec (.refFrequencyWindow t ppmOff) s = execRefFrequencyWindow t ppmOff s := rfl

theorem exec_refRestore (t : Nat) (s : State) :
    exec (.refRestore t) s = execRefRestore t s := rfl

theorem exec_localRefLost (ref : LocalRef) (s : State) :
    exec (.localRefLost ref) s = execLocalRefLost ref s := rfl

theorem exec_pllLockLost (t : Nat) (s : State) :
    exec (.pllLockLost t) s = execPllLockLost t s := rfl

theorem exec_lockNotRegained (t : Nat) (s : State) :
    exec (.lockNotRegained t) s = execLockNotRegained t s := rfl

theorem exec_clockMonitorCheck (t : Nat) (bad : BitVec 12) (s : State) :
    exec (.clockMonitorCheck t bad) s = execClockMonitorCheck t bad s := rfl

theorem exec_dieTemperatureUpdate (t : Nat) (t0 t1 t2 t3 : BitVec 16) (s : State) :
    exec (.dieTemperatureUpdate t t0 t1 t2 t3) s = execDieTemperatureUpdate t t0 t1 t2 t3 s := rfl

theorem exec_controlCycleBoundary (t : Nat) (s : State) :
    exec (.controlCycleBoundary t) s = execControlCycleBoundary t s := rfl

theorem exec_edgeExpansion (t : Nat) (s : State) :
    exec (.edgeExpansion t) s = execEdgeExpansion t s := rfl

theorem exec_stepWaitExpiry (t : Nat) (s : State) :
    exec (.stepWaitExpiry t) s = execStepWaitExpiry t s := rfl

theorem exec_prechargeTimeout (t : Nat) (s : State) :
    exec (.prechargeTimeout t) s = execPrechargeTimeout t s := rfl

theorem exec_rideThroughExceeded (t : Nat) (s : State) :
    exec (.rideThroughExceeded t) s = execRideThroughExceeded t s := rfl

theorem exec_rideThroughRecovered (t : Nat) (s : State) :
    exec (.rideThroughRecovered t) s = execRideThroughRecovered t s := rfl

theorem exec_cellSamplesLost (t : Nat) (slot : Fin 96) (s : State) :
    exec (.cellSamplesLost t slot) s = execCellSamplesLost t slot s := rfl

theorem exec_bypassUnconfirmed (t : Nat) (slot : Fin 96) (s : State) :
    exec (.bypassUnconfirmed t slot) s = execBypassUnconfirmed t slot s := rfl

theorem exec_reinsertRampEnd (t : Nat) (slot : Fin 96) (s : State) :
    exec (.reinsertRampEnd t slot) s = execReinsertRampEnd t slot s := rfl

theorem exec_fastPathTrigger (t : Nat) (slot : Fin 256) (s : State) :
    exec (.fastPathTrigger t slot) s = execFastPathTrigger t slot s := rfl

theorem exec_faultClassify (t : Nat) (extra : List ExtraRaise) (s : State) :
    exec (.faultClassify t extra) s = execFaultClassify t extra s := rfl

theorem exec_writePacket (t : Nat) (bytes : List Byte) (s : State) :
    exec (.writePacket t bytes) s = execWritePacket t bytes s := rfl

theorem exec_readReply (t : Nat) (complete : Bool) (s : State) :
    exec (.readReply t complete) s = execReadReply t complete s := rfl

theorem exec_readStatus (t : Nat) (s : State) :
    exec (.readStatus t) s = execReadStatus t s := rfl

theorem exec_badInstruction (t : Nat) (code : Byte) (s : State) :
    exec (.badInstruction t code) s = execBadInstruction t code s := rfl

theorem exec_commandDatagram (t : Nat) (dst src : NetEnd) (dstPort srcPort : BitVec 16) (fragment : Bool) (tag : Option (BitVec 16)) (bytes : List Byte) (s : State) :
    exec (.commandDatagram t dst src dstPort srcPort fragment tag bytes) s = execCommandDatagram t dst src dstPort srcPort fragment tag bytes s := rfl

theorem exec_ping (t : Nat) (src : Src) (h : Hdr) (s : State) :
    exec (.ping t src h) s = execPing t src h s := rfl

theorem exec_getCaps (t : Nat) (src : Src) (h : Hdr) (s : State) :
    exec (.getCaps t src h) s = execGetCaps t src h s := rfl

theorem exec_getIdentity (t : Nat) (src : Src) (h : Hdr) (s : State) :
    exec (.getIdentity t src h) s = execGetIdentity t src h s := rfl

theorem exec_openSession (t : Nat) (src : Src) (h : Hdr) (authority : Byte) (s : State) :
    exec (.openSession t src h authority) s = execOpenSession t src h authority s := rfl

theorem exec_closeSession (t : Nat) (src : Src) (h : Hdr) (s : State) :
    exec (.closeSession t src h) s = execCloseSession t src h s := rfl

theorem exec_listSessions (t : Nat) (src : Src) (h : Hdr) (s : State) :
    exec (.listSessions t src h) s = execListSessions t src h s := rfl

theorem exec_stageWords (t : Nat) (src : Src) (h : Hdr) (so first : BitVec 16) (values : List Word) (s : State) :
    exec (.stageWords t src h so first values) s = execStageWords t src h so first values s := rfl

theorem exec_stageFields (t : Nat) (src : Src) (h : Hdr) (entries : List (BitVec 16 × BitVec 16 × Word × Word)) (s : State) :
    exec (.stageFields t src h entries) s = execStageFields t src h entries s := rfl

theorem exec_stageModeReq (t : Nat) (src : Src) (h : Hdr) (mode : Byte) (s : State) :
    exec (.stageModeReq t src h mode) s = execStageModeReq t src h mode s := rfl

theorem exec_unstage (t : Nat) (src : Src) (h : Hdr) (so first count : BitVec 16) (s : State) :
    exec (.unstage t src h so first count) s = execUnstage t src h so first count s := rfl

theorem exec_check (t : Nat) (src : Src) (h : Hdr) (s : State) :
    exec (.check t src h) s = execCheck t src h s := rfl

theorem exec_commitNow (t : Nat) (src : Src) (h : Hdr) (s : State) :
    exec (.commitNow t src h) s = execCommitNow t src h s := rfl

theorem exec_commitAt (t : Nat) (src : Src) (h : Hdr) (kind : Byte) (instant : BitVec 80) (s : State) :
    exec (.commitAt t src h kind instant) s = execCommitAt t src h kind instant s := rfl

theorem exec_disarm (t : Nat) (src : Src) (h : Hdr) (s : State) :
    exec (.disarm t src h) s = execDisarm t src h s := rfl

theorem exec_discard (t : Nat) (src : Src) (h : Hdr) (s : State) :
    exec (.discard t src h) s = execDiscard t src h s := rfl

theorem exec_readWords (t : Nat) (src : Src) (h : Hdr) (so first count : BitVec 16) (s : State) :
    exec (.readWords t src h so first count) s = execReadWords t src h so first count s := rfl

theorem exec_readStaged (t : Nat) (src : Src) (h : Hdr) (so first count : BitVec 16) (s : State) :
    exec (.readStaged t src h so first count) s = execReadStaged t src h so first count s := rfl

theorem exec_readBasketIndex (t : Nat) (src : Src) (h : Hdr) (first : BitVec 16) (s : State) :
    exec (.readBasketIndex t src h first) s = execReadBasketIndex t src h first s := rfl

theorem exec_readDirectory (t : Nat) (src : Src) (h : Hdr) (first : BitVec 16) (s : State) :
    exec (.readDirectory t src h first) s = execReadDirectory t src h first s := rfl

theorem exec_writeLive (t : Nat) (src : Src) (h : Hdr) (so first : BitVec 16) (values : List Word) (s : State) :
    exec (.writeLive t src h so first values) s = execWriteLive t src h so first values s := rfl

theorem exec_reqMode (t : Nat) (src : Src) (h : Hdr) (mode : Byte) (s : State) :
    exec (.reqMode t src h mode) s = execReqMode t src h mode s := rfl

theorem exec_getMode (t : Nat) (src : Src) (h : Hdr) (s : State) :
    exec (.getMode t src h) s = execGetMode t src h s := rfl

theorem exec_stepRun (t : Nat) (src : Src) (h : Hdr) (first : Byte) (s : State) :
    exec (.stepRun t src h first) s = execStepRun t src h first s := rfl

theorem exec_stepContinue (t : Nat) (src : Src) (h : Hdr) (s : State) :
    exec (.stepContinue t src h) s = execStepContinue t src h s := rfl

theorem exec_stepAbort (t : Nat) (src : Src) (h : Hdr) (s : State) :
    exec (.stepAbort t src h) s = execStepAbort t src h s := rfl

theorem exec_tuneWord (t : Nat) (src : Src) (h : Hdr) (slot word : BitVec 16) (value : Word) (s : State) :
    exec (.tuneWord t src h slot word value) s = execTuneWord t src h slot word value s := rfl

theorem exec_tuneWords (t : Nat) (src : Src) (h : Hdr) (entries : List (BitVec 16 × BitVec 16 × Word)) (s : State) :
    exec (.tuneWords t src h entries) s = execTuneWords t src h entries s := rfl

theorem exec_tuneRead (t : Nat) (src : Src) (h : Hdr) (slot : BitVec 16) (s : State) :
    exec (.tuneRead t src h slot) s = execTuneRead t src h slot s := rfl

theorem exec_calRead (t : Nat) (src : Src) (h : Hdr) (offset length : BitVec 16) (s : State) :
    exec (.calRead t src h offset length) s = execCalRead t src h offset length s := rfl

theorem exec_calWrite (t : Nat) (src : Src) (h : Hdr) (page : BitVec 16) (bytes : List Byte) (s : State) :
    exec (.calWrite t src h page bytes) s = execCalWrite t src h page bytes s := rfl

theorem exec_calWriteDone (t : Nat) (verified : Bool) (s : State) :
    exec (.calWriteDone t verified) s = execCalWriteDone t verified s := rfl

theorem exec_calWear (t : Nat) (src : Src) (h : Hdr) (s : State) :
    exec (.calWear t src h) s = execCalWear t src h s := rfl

theorem exec_getTime (t : Nat) (src : Src) (h : Hdr) (s : State) :
    exec (.getTime t src h) s = execGetTime t src h s := rfl

theorem exec_setTpo (t : Nat) (src : Src) (h : Hdr) (index mode : Byte) (start period : BitVec 64) (s : State) :
    exec (.setTpo t src h index mode start period) s = execSetTpo t src h index mode start period s := rfl

theorem exec_readTci (t : Nat) (src : Src) (h : Hdr) (index : Byte) (s : State) :
    exec (.readTci t src h index) s = execReadTci t src h index s := rfl

theorem exec_ptpStatus (t : Nat) (src : Src) (h : Hdr) (s : State) :
    exec (.ptpStatus t src h) s = execPtpStatus t src h s := rfl

theorem exec_readFaults (t : Nat) (src : Src) (h : Hdr) (s : State) :
    exec (.readFaults t src h) s = execReadFaults t src h s := rfl

theorem exec_readHistory (t : Nat) (src : Src) (h : Hdr) (first count : Byte) (s : State) :
    exec (.readHistory t src h first count) s = execReadHistory t src h first count s := rfl

theorem exec_ackFault (t : Nat) (src : Src) (h : Hdr) (mask : Word) (s : State) :
    exec (.ackFault t src h mask) s = execAckFault t src h mask s := rfl

theorem exec_clearFault (t : Nat) (src : Src) (h : Hdr) (mask : Word) (s : State) :
    exec (.clearFault t src h mask) s = execClearFault t src h mask s := rfl

theorem exec_readEventRoute (t : Nat) (src : Src) (h : Hdr) (first count : Byte) (s : State) :
    exec (.readEventRoute t src h first count) s = execReadEventRoute t src h first count s := rfl

theorem exec_eventSubscribe (t : Nat) (src : Src) (h : Hdr) (mask : BitVec 256) (s : State) :
    exec (.eventSubscribe t src h mask) s = execEventSubscribe t src h mask s := rfl

theorem exec_twinStatus (t : Nat) (src : Src) (h : Hdr) (s : State) :
    exec (.twinStatus t src h) s = execTwinStatus t src h s := rfl

theorem exec_twinSelftest (t : Nat) (src : Src) (h : Hdr) (s : State) :
    exec (.twinSelftest t src h) s = execTwinSelftest t src h s := rfl

theorem exec_pilotReport (t : Nat) (src : Src) (h : Hdr) (s : State) :
    exec (.pilotReport t src h) s = execPilotReport t src h s := rfl

theorem exec_markUnfit (t : Nat) (src : Src) (h : Hdr) (s : State) :
    exec (.markUnfit t src h) s = execMarkUnfit t src h s := rfl

theorem exec_laneStatus (t : Nat) (src : Src) (h : Hdr) (first count : Byte) (s : State) :
    exec (.laneStatus t src h first count) s = execLaneStatus t src h first count s := rfl

theorem exec_laneLoopback (t : Nat) (src : Src) (h : Hdr) (lane kind : Byte) (s : State) :
    exec (.laneLoopback t src h lane kind) s = execLaneLoopback t src h lane kind s := rfl

theorem exec_unitStatus (t : Nat) (src : Src) (h : Hdr) (first count : Byte) (s : State) :
    exec (.unitStatus t src h first count) s = execUnitStatus t src h first count s := rfl

theorem exec_unitBypass (t : Nat) (src : Src) (h : Hdr) (slot : Byte) (s : State) :
    exec (.unitBypass t src h slot) s = execUnitBypass t src h slot s := rfl

theorem exec_unitReinsert (t : Nat) (src : Src) (h : Hdr) (slot : Byte) (s : State) :
    exec (.unitReinsert t src h slot) s = execUnitReinsert t src h slot s := rfl

theorem exec_manageForward (t : Nat) (src : Src) (h : Hdr) (node : BitVec 16) (slot : Byte) (inner : List Byte) (s : State) :
    exec (.manageForward t src h node slot inner) s = execManageForward t src h node slot inner s := rfl

theorem exec_manageForwardTimeout (t : Nat) (msgId : BitVec 16) (s : State) :
    exec (.manageForwardTimeout t msgId) s = execManageForwardTimeout t msgId s := rfl

theorem exec_laneRetrain (t : Nat) (src : Src) (h : Hdr) (lane : Byte) (s : State) :
    exec (.laneRetrain t src h lane) s = execLaneRetrain t src h lane s := rfl

theorem exec_memStatus (t : Nat) (src : Src) (h : Hdr) (s : State) :
    exec (.memStatus t src h) s = execMemStatus t src h s := rfl

theorem exec_memRead (t : Nat) (src : Src) (h : Hdr) (address : BitVec 64) (length : BitVec 16) (s : State) :
    exec (.memRead t src h address length) s = execMemRead t src h address length s := rfl

theorem exec_memWrite (t : Nat) (src : Src) (h : Hdr) (address : BitVec 64) (bytes : List Byte) (s : State) :
    exec (.memWrite t src h address bytes) s = execMemWrite t src h address bytes s := rfl

theorem exec_eccTestWrite (t : Nat) (src : Src) (h : Hdr) (address checkBits : BitVec 64) (bytes : List Byte) (s : State) :
    exec (.eccTestWrite t src h address checkBits bytes) s = execEccTestWrite t src h address checkBits bytes s := rfl

theorem exec_acqArm (t : Nat) (src : Src) (h : Hdr) (s : State) :
    exec (.acqArm t src h) s = execAcqArm t src h s := rfl

theorem exec_acqStop (t : Nat) (src : Src) (h : Hdr) (s : State) :
    exec (.acqStop t src h) s = execAcqStop t src h s := rfl

theorem exec_acqStatus (t : Nat) (src : Src) (h : Hdr) (s : State) :
    exec (.acqStatus t src h) s = execAcqStatus t src h s := rfl

theorem exec_acqRead (t : Nat) (src : Src) (h : Hdr) (segment offset : Word) (length : BitVec 16) (s : State) :
    exec (.acqRead t src h segment offset length) s = execAcqRead t src h segment offset length s := rfl

theorem exec_histRead (t : Nat) (src : Src) (h : Hdr) (unit : Byte) (first count : BitVec 16) (s : State) :
    exec (.histRead t src h unit first count) s = execHistRead t src h unit first count s := rfl

theorem exec_afterglowRead (t : Nat) (src : Src) (h : Hdr) (map : Byte) (first rows : BitVec 16) (s : State) :
    exec (.afterglowRead t src h map first rows) s = execAfterglowRead t src h map first rows s := rfl

theorem exec_queueStatus (t : Nat) (src : Src) (h : Hdr) (first count : Byte) (s : State) :
    exec (.queueStatus t src h first count) s = execQueueStatus t src h first count s := rfl

theorem exec_queueRead (t : Nat) (src : Src) (h : Hdr) (queue : Byte) (maximum : BitVec 16) (s : State) :
    exec (.queueRead t src h queue maximum) s = execQueueRead t src h queue maximum s := rfl

theorem exec_safeStatus (t : Nat) (src : Src) (h : Hdr) (s : State) :
    exec (.safeStatus t src h) s = execSafeStatus t src h s := rfl

theorem exec_safeTest (t : Nat) (src : Src) (h : Hdr) (switch : Byte) (s : State) :
    exec (.safeTest t src h switch) s = execSafeTest t src h switch s := rfl

theorem exec_safeAck (t : Nat) (src : Src) (h : Hdr) (s : State) :
    exec (.safeAck t src h) s = execSafeAck t src h s := rfl

theorem exec_breakerClose (t : Nat) (src : Src) (h : Hdr) (s : State) :
    exec (.breakerClose t src h) s = execBreakerClose t src h s := rfl

theorem exec_breakerTrip (t : Nat) (src : Src) (h : Hdr) (s : State) :
    exec (.breakerTrip t src h) s = execBreakerTrip t src h s := rfl

theorem exec_reset (t : Nat) (src : Src) (h : Hdr) (kind : Byte) (s : State) :
    exec (.reset t src h kind) s = execReset t src h kind s := rfl

theorem exec_resetDelayExpiry (t : Nat) (s : State) :
    exec (.resetDelayExpiry t) s = execResetDelayExpiry t s := rfl

theorem exec_imageBegin (t : Nat) (src : Src) (h : Hdr) (length : BitVec 16) (s : State) :
    exec (.imageBegin t src h length) s = execImageBegin t src h length s := rfl

theorem exec_imageEraseDone (t : Nat) (ok : Bool) (s : State) :
    exec (.imageEraseDone t ok) s = execImageEraseDone t ok s := rfl

theorem exec_imageWrite (t : Nat) (src : Src) (h : Hdr) (first : BitVec 16) (blocks : List Byte) (s : State) :
    exec (.imageWrite t src h first blocks) s = execImageWrite t src h first blocks s := rfl

theorem exec_imageFinish (t : Nat) (src : Src) (h : Hdr) (block0 : List Byte) (s : State) :
    exec (.imageFinish t src h block0) s = execImageFinish t src h block0 s := rfl

theorem exec_imageStatus (t : Nat) (src : Src) (h : Hdr) (s : State) :
    exec (.imageStatus t src h) s = execImageStatus t src h s := rfl

theorem exec_fuseKeyHash (t : Nat) (src : Src) (h : Hdr) (hash : List Byte) (s : State) :
    exec (.fuseKeyHash t src h hash) s = execFuseKeyHash t src h hash s := rfl

theorem exec_fuseSignedBoot (t : Nat) (src : Src) (h : Hdr) (s : State) :
    exec (.fuseSignedBoot t src h) s = execFuseSignedBoot t src h s := rfl

theorem exec_netSessionTimeout (t : Nat) (session : Fin 16) (s : State) :
    exec (.netSessionTimeout t session) s = execNetSessionTimeout t session s := rfl

theorem exec_arpRefresh (t : Nat) (entry : Fin 8) (s : State) :
    exec (.arpRefresh t entry) s = execArpRefresh t entry s := rfl

theorem exec_arpFrame (t : Nat) (request : Bool) (src dst : NetEnd) (tag : Option (BitVec 16)) (s : State) :
    exec (.arpFrame t request src dst tag) s = execArpFrame t request src dst tag s := rfl

theorem exec_icmpEcho (t : Nat) (src dst : NetEnd) (tag : Option (BitVec 16)) (bytes : List Byte) (s : State) :
    exec (.icmpEcho t src dst tag bytes) s = execIcmpEcho t src dst tag bytes s := rfl

theorem exec_ptpMessage (t : Nat) (m : PtpMsg) (s : State) :
    exec (.ptpMessage t m) s = execPtpMessage t m s := rfl

theorem exec_ptpMessageInterval (t : Nat) (kind : PtpKind) (s : State) :
    exec (.ptpMessageInterval t kind) s = execPtpMessageInterval t kind s := rfl

theorem exec_ptpAnnounceTimeout (t : Nat) (s : State) :
    exec (.ptpAnnounceTimeout t) s = execPtpAnnounceTimeout t s := rfl

theorem exec_timeSyncInterval (t : Nat) (s : State) :
    exec (.timeSyncInterval t) s = execTimeSyncInterval t s := rfl

theorem exec_timeSourceLost (t : Nat) (s : State) :
    exec (.timeSourceLost t) s = execTimeSourceLost t s := rfl

theorem exec_tpoFiring (t : Nat) (output : Fin 8) (s : State) :
    exec (.tpoFiring t output) s = execTpoFiring t output s := rfl

theorem exec_tpoPulseEnd (t : Nat) (output : Fin 8) (s : State) :
    exec (.tpoPulseEnd t output) s = execTpoPulseEnd t output s := rfl

theorem exec_tciEdge (t : Nat) (input : Fin 4) (rising : Bool) (s : State) :
    exec (.tciEdge t input rising) s = execTciEdge t input rising s := rfl

theorem exec_setNet (t : Nat) (src : Src) (h : Hdr) (lo hi : Word) (s : State) :
    exec (.setNet t src h lo hi) s = execSetNet t src h lo hi s := rfl

theorem exec_acceptNext (t : Nat) (src : Src) (h : Hdr) (value : Word) (s : State) :
    exec (.acceptNext t src h value) s = execAcceptNext t src h value s := rfl

theorem exec_laneSignalDetect (t : Nat) (lane : Fin 55) (s : State) :
    exec (.laneSignalDetect t lane) s = execLaneSignalDetect t lane s := rfl

theorem exec_laneBlockLock (t : Nat) (lane : Fin 55) (s : State) :
    exec (.laneBlockLock t lane) s = execLaneBlockLock t lane s := rfl

theorem exec_laneLockLost (t : Nat) (lane : Fin 55) (s : State) :
    exec (.laneLockLost t lane) s = execLaneLockLost t lane s := rfl

theorem exec_rehuntTimeout (t : Nat) (lane : Fin 55) (s : State) :
    exec (.rehuntTimeout t lane) s = execRehuntTimeout t lane s := rfl

theorem exec_train (t : Nat) (lane : Fin 55) (phase caps rate role port count : Byte) (s : State) :
    exec (.train t lane phase caps rate role port count) s = execTrain t lane phase caps rate role port count s := rfl

theorem exec_laneQuietEnd (t : Nat) (lane : Fin 55) (s : State) :
    exec (.laneQuietEnd t lane) s = execLaneQuietEnd t lane s := rfl

theorem exec_laneVerifyPassed (t : Nat) (lane : Fin 55) (s : State) :
    exec (.laneVerifyPassed t lane) s = execLaneVerifyPassed t lane s := rfl

theorem exec_laneAttemptTimeout (t : Nat) (lane : Fin 55) (s : State) :
    exec (.laneAttemptTimeout t lane) s = execLaneAttemptTimeout t lane s := rfl

theorem exec_laneFailedHoldEnd (t : Nat) (lane : Fin 55) (s : State) :
    exec (.laneFailedHoldEnd t lane) s = execLaneFailedHoldEnd t lane s := rfl

theorem exec_laneIdleTimeout (t : Nat) (lane : Fin 55) (s : State) :
    exec (.laneIdleTimeout t lane) s = execLaneIdleTimeout t lane s := rfl

theorem exec_wake (t : Nat) (lane : Fin 55) (s : State) :
    exec (.wake t lane) s = execWake t lane s := rfl

theorem exec_laneWakeTimeout (t : Nat) (lane : Fin 55) (s : State) :
    exec (.laneWakeTimeout t lane) s = execLaneWakeTimeout t lane s := rfl

theorem exec_laneFrameTransmit (t : Nat) (lane : Fin 55) (s : State) :
    exec (.laneFrameTransmit t lane) s = execLaneFrameTransmit t lane s := rfl

theorem exec_ack (t : Nat) (lane : Fin 55) (seq : Byte) (s : State) :
    exec (.ack t lane seq) s = execAck t lane seq s := rfl

theorem exec_nak (t : Nat) (lane : Fin 55) (seq : Byte) (s : State) :
    exec (.nak t lane seq) s = execNak t lane seq s := rfl

theorem exec_replayTimeout (t : Nat) (lane : Fin 55) (s : State) :
    exec (.replayTimeout t lane) s = execReplayTimeout t lane s := rfl

theorem exec_douse (t : Nat) (lane : Fin 55) (index level epoch : Byte) (node : BitVec 16) (s : State) :
    exec (.douse t lane index level epoch node) s = execDouse t lane index level epoch node s := rfl

theorem exec_unitCommand (t : Nat) (lane : Fin 55) (f : RxFrame) (s : State) :
    exec (.unitCommand t lane f) s = execUnitCommand t lane f s := rfl

theorem exec_sample (t : Nat) (lane : Fin 55) (f : RxFrame) (s : State) :
    exec (.sample t lane f) s = execSample t lane f s := rfl

theorem exec_unitState (t : Nat) (lane : Fin 55) (f : RxFrame) (s : State) :
    exec (.unitState t lane f) s = execUnitState t lane f s := rfl

theorem exec_wick (t : Nat) (lane : Fin 55) (f : RxFrame) (s : State) :
    exec (.wick t lane f) s = execWick t lane f s := rfl

theorem exec_timeSync (t : Nat) (lane : Fin 55) (f : RxFrame) (s : State) :
    exec (.timeSync t lane f) s = execTimeSync t lane f s := rfl

theorem exec_timeResp (t : Nat) (lane : Fin 55) (f : RxFrame) (s : State) :
    exec (.timeResp t lane f) s = execTimeResp t lane f s := rfl

theorem exec_manageReq (t : Nat) (lane : Fin 55) (f : RxFrame) (s : State) :
    exec (.manageReq t lane f) s = execManageReq t lane f s := rfl

theorem exec_manageResp (t : Nat) (lane : Fin 55) (f : RxFrame) (s : State) :
    exec (.manageResp t lane f) s = execManageResp t lane f s := rfl

theorem exec_manageReassemblyTimeout (t : Nat) (srcNode msgId : BitVec 16) (s : State) :
    exec (.manageReassemblyTimeout t srcNode msgId) s = execManageReassemblyTimeout t srcNode msgId s := rfl

theorem exec_health (t : Nat) (lane : Fin 55) (f : RxFrame) (s : State) :
    exec (.health t lane f) s = execHealth t lane f s := rfl

theorem exec_stateCopy (t : Nat) (lane : Fin 55) (f : RxFrame) (s : State) :
    exec (.stateCopy t lane f) s = execStateCopy t lane f s := rfl

theorem exec_digest (t : Nat) (lane : Fin 55) (f : RxFrame) (s : State) :
    exec (.digest t lane f) s = execDigest t lane f s := rfl

theorem exec_telemetry (t : Nat) (lane : Fin 55) (f : RxFrame) (s : State) :
    exec (.telemetry t lane f) s = execTelemetry t lane f s := rfl

theorem exec_event (t : Nat) (lane : Fin 55) (f : RxFrame) (s : State) :
    exec (.event t lane f) s = execEvent t lane f s := rfl

theorem exec_pilotReplay (t : Nat) (s : State) :
    exec (.pilotReplay t) s = execPilotReplay t s := rfl

theorem exec_selftestDone (t : Nat) (passed : Bool) (s : State) :
    exec (.selftestDone t passed) s = execSelftestDone t passed s := rfl

theorem exec_flameSelftestTimeout (t : Nat) (s : State) :
    exec (.flameSelftestTimeout t) s = execFlameSelftestTimeout t s := rfl

theorem exec_testSlice (t : Nat) (passed : Bool) (s : State) :
    exec (.testSlice t passed) s = execTestSlice t passed s := rfl

theorem exec_pilotReportSend (t : Nat) (s : State) :
    exec (.pilotReportSend t) s = execPilotReportSend t s := rfl

theorem exec_standbyLoopbackTest (t : Nat) (failed : BitVec 55) (s : State) :
    exec (.standbyLoopbackTest t failed) s = execStandbyLoopbackTest t failed s := rfl

theorem exec_twinLinkLost (t : Nat) (s : State) :
    exec (.twinLinkLost t) s = execTwinLinkLost t s := rfl

theorem exec_leaseExpiry (t : Nat) (s : State) :
    exec (.leaseExpiry t) s = execLeaseExpiry t s := rfl

theorem exec_mailboxWrite (t : Nat) (src : Src) (h : Hdr) (words : List Word) (s : State) :
    exec (.mailboxWrite t src h words) s = execMailboxWrite t src h words s := rfl

theorem exec_childReportTimeout (t : Nat) (port : Fin 4) (s : State) :
    exec (.childReportTimeout t port) s = execChildReportTimeout t port s := rfl

theorem exec_childReturnRampEnd (t : Nat) (port : Fin 4) (s : State) :
    exec (.childReturnRampEnd t port) s = execChildReturnRampEnd t port s := rfl

theorem exec_parentLost (t : Nat) (s : State) :
    exec (.parentLost t) s = execParentLost t s := rfl

theorem exec_uHoldExpiry (t : Nat) (s : State) :
    exec (.uHoldExpiry t) s = execUHoldExpiry t s := rfl

theorem exec_legZeroEvent (t : Nat) (leg : Fin 12) (s : State) :
    exec (.legZeroEvent t leg) s = execLegZeroEvent t leg s := rfl

theorem exec_legCompareAction (t : Nat) (leg : Fin 12) (b : Bool) (s : State) :
    exec (.legCompareAction t leg b) s = execLegCompareAction t leg b s := rfl

theorem exec_legDeadTimeEnd (t : Nat) (leg : Fin 12) (s : State) :
    exec (.legDeadTimeEnd t leg) s = execLegDeadTimeEnd t leg s := rfl

theorem exec_legPrimeEnd (t : Nat) (leg : Fin 12) (s : State) :
    exec (.legPrimeEnd t leg) s = execLegPrimeEnd t leg s := rfl

theorem exec_legBlankEnd (t : Nat) (leg : Fin 12) (s : State) :
    exec (.legBlankEnd t leg) s = execLegBlankEnd t leg s := rfl

theorem exec_legCurrentCut (t : Nat) (leg : Fin 12) (active : Bool) (s : State) :
    exec (.legCurrentCut t leg active) s = execLegCurrentCut t leg active s := rfl

theorem exec_legShortCircuit (t : Nat) (leg : Fin 12) (dsat : Bool) (active : Bool) (s : State) :
    exec (.legShortCircuit t leg dsat active) s = execLegShortCircuit t leg dsat active s := rfl

theorem exec_legTrippedClear (t : Nat) (src : Src) (h : Hdr) (leg : Fin 12) (s : State) :
    exec (.legTrippedClear t src h leg) s = execLegTrippedClear t src h leg s := rfl

theorem exec_legCompareWrite (t : Nat) (src : Src) (h : Hdr) (leg : Fin 12) (cmpA cmpB : BitVec 16) (s : State) :
    exec (.legCompareWrite t src h leg cmpA cmpB) s = execLegCompareWrite t src h leg cmpA cmpB s := rfl

theorem exec_legForce (t : Nat) (src : Src) (h : Hdr) (leg : Fin 12) (en gh gl : Bool) (s : State) :
    exec (.legForce t src h leg en gh gl) s = execLegForce t src h leg en gh gl s := rfl

theorem exec_pumpDelayExpiry (t : Nat) (leg : Fin 12) (s : State) :
    exec (.pumpDelayExpiry t leg) s = execPumpDelayExpiry t leg s := rfl

theorem exec_dcovBrakeCrossing (t : Nat) (input : Fin 2) (above : Bool) (s : State) :
    exec (.dcovBrakeCrossing t input above) s = execDcovBrakeCrossing t input above s := rfl

theorem exec_brkMinOnExpiry (t : Nat) (s : State) :
    exec (.brkMinOnExpiry t) s = execBrkMinOnExpiry t s := rfl

theorem exec_dcLinkOverVoltage (t : Nat) (input : Fin 2) (active : Bool) (s : State) :
    exec (.dcLinkOverVoltage t input active) s = execDcLinkOverVoltage t input active s := rfl

theorem exec_brakeHeatTick (t : Nat) (on : Unit) (s : State) :
    exec (.brakeHeatTick t on) s = execBrakeHeatTick t on s := rfl

theorem exec_channelOutput (t : Nat) (chan : Fin 32) (bits : List Bool) (s : State) :
    exec (.channelOutput t chan bits) s = execChannelOutput t chan bits s := rfl

theorem exec_channelOverCurrent (t : Nat) (chan : Fin 32) (bits : List Bool) (s : State) :
    exec (.channelOverCurrent t chan bits) s = execChannelOverCurrent t chan bits s := rfl

theorem exec_modulatorStreamLost (t : Nat) (chan : Fin 32) (s : State) :
    exec (.modulatorStreamLost t chan) s = execModulatorStreamLost t chan s := rfl

theorem exec_modulatorStreamResumed (t : Nat) (chan : Fin 32) (s : State) :
    exec (.modulatorStreamResumed t chan) s = execModulatorStreamResumed t chan s := rfl

theorem exec_tallowCheckpointDue (t : Nat) (s : State) :
    exec (.tallowCheckpointDue t) s = execTallowCheckpointDue t s := rfl

theorem exec_ckptNow (t : Nat) (src : Src) (h : Hdr) (value : Word) (s : State) :
    exec (.ckptNow t src h value) s = execCkptNow t src h value s := rfl

theorem exec_tallowCheckpointDone (t : Nat) (ok : Bool) (s : State) :
    exec (.tallowCheckpointDone t ok) s = execTallowCheckpointDone t ok s := rfl

theorem exec_tallowCheckpointRetry (t : Nat) (s : State) :
    exec (.tallowCheckpointRetry t) s = execTallowCheckpointRetry t s := rfl

theorem exec_ledgerRestoreDone (t : Nat) (sector : Option (Fin 16)) (bytes : List Byte) (s : State) :
    exec (.ledgerRestoreDone t sector bytes) s = execLedgerRestoreDone t sector bytes s := rfl

theorem exec_ledgerClr (t : Nat) (src : Src) (h : Hdr) (value : Word) (s : State) :
    exec (.ledgerClr t src h value) s = execLedgerClr t src h value s := rfl

theorem exec_guardChange (t : Nat) (a b : Bool) (s : State) :
    exec (.guardChange t a b) s = execGuardChange t a b s := rfl

theorem exec_guardDiscrepancy (t : Nat) (s : State) :
    exec (.guardDiscrepancy t) s = execGuardDiscrepancy t s := rfl

theorem exec_guardHoldExpiry (t : Nat) (s : State) :
    exec (.guardHoldExpiry t) s = execGuardHoldExpiry t s := rfl

theorem exec_safeRstRelease (t : Nat) (pressTicks : Nat) (s : State) :
    exec (.safeRstRelease t pressTicks) s = execSafeRstRelease t pressTicks s := rfl

theorem exec_resetInputStuck (t : Nat) (s : State) :
    exec (.resetInputStuck t) s = execResetInputStuck t s := rfl

theorem exec_watchdogExpiry (t : Nat) (s : State) :
    exec (.watchdogExpiry t) s = execWatchdogExpiry t s := rfl

theorem exec_watchdogReset (t : Nat) (s : State) :
    exec (.watchdogReset t) s = execWatchdogReset t s := rfl

theorem exec_bkrAuxChange (t : Nat) (closed : Bool) (s : State) :
    exec (.bkrAuxChange t closed) s = execBkrAuxChange t closed s := rfl

theorem exec_tripRelease (t : Nat) (atMax : Bool) (s : State) :
    exec (.tripRelease t atMax) s = execTripRelease t atMax s := rfl

theorem exec_tripRepeat (t : Nat) (s : State) :
    exec (.tripRepeat t) s = execTripRepeat t s := rfl

theorem exec_closePulseEnd (t : Nat) (s : State) :
    exec (.closePulseEnd t) s = execClosePulseEnd t s := rfl

theorem exec_switchFeedbackMismatch (t : Nat) (switch : Fin 4) (s : State) :
    exec (.switchFeedbackMismatch t switch) s = execSwitchFeedbackMismatch t switch s := rfl

theorem exec_switchTestStep (t : Nat) (senseOn senseOffInTime : Bool) (s : State) :
    exec (.switchTestStep t senseOn senseOffInTime) s = execSwitchTestStep t senseOn senseOffInTime s := rfl

theorem exec_periodicSwitchTest (t : Nat) (s : State) :
    exec (.periodicSwitchTest t) s = execPeriodicSwitchTest t s := rfl

theorem exec_lvcClose (t : Nat) (src : Src) (h : Hdr) (value : Word) (s : State) :
    exec (.lvcClose t src h value) s = execLvcClose t src h value s := rfl

theorem exec_contactorMismatch (t : Nat) (contactor : Fin 4) (s : State) :
    exec (.contactorMismatch t contactor) s = execContactorMismatch t contactor s := rfl

theorem exec_evcArm (t : Nat) (src : Src) (h : Hdr) (value : Word) (s : State) :
    exec (.evcArm t src h value) s = execEvcArm t src h value s := rfl

theorem exec_clkEn (t : Nat) (src : Src) (h : Hdr) (output : Fin 12) (value : Word) (s : State) :
    exec (.clkEn t src h output value) s = execClkEn t src h output value s := rfl

theorem exec_sramScrubStep (t : Nat) (bank : Fin 96) (word : Fin 16384) (outcome : EccOutcome) (overwritten passDone : Bool) (s : State) :
    exec (.sramScrubStep t bank word outcome overwritten passDone) s = execSramScrubStep t bank word outcome overwritten passDone s := rfl

theorem exec_dramScrubStep (t : Nat) (page : Fin 8388608) (outcome : EccOutcome) (overwritten passDone : Bool) (s : State) :
    exec (.dramScrubStep t page outcome overwritten passDone) s = execDramScrubStep t page outcome overwritten passDone s := rfl

theorem exec_dramScrubWake (t : Nat) (s : State) :
    exec (.dramScrubWake t) s = execDramScrubWake t s := rfl

theorem exec_dramSelfRefresh (t : Nat) (s : State) :
    exec (.dramSelfRefresh t) s = execDramSelfRefresh t s := rfl

theorem exec_queueHeadRefill (t : Nat) (queue : Fin 64) (outcome : EccOutcome) (s : State) :
    exec (.queueHeadRefill t queue outcome) s = execQueueHeadRefill t queue outcome s := rfl

theorem exec_telemetryDatagramTimeout (t : Nat) (s : State) :
    exec (.telemetryDatagramTimeout t) s = execTelemetryDatagramTimeout t s := rfl

theorem exec_acqSample (t : Nat) (s : State) :
    exec (.acqSample t) s = execAcqSample t s := rfl

theorem exec_acqRearmDone (t : Nat) (s : State) :
    exec (.acqRearmDone t) s = execAcqRearmDone t s := rfl

theorem exec_acqSegmentDrained (t : Nat) (s : State) :
    exec (.acqSegmentDrained t) s = execAcqSegmentDrained t s := rfl

theorem exec_acqClear (t : Nat) (src : Src) (h : Hdr) (value : Word) (s : State) :
    exec (.acqClear t src h value) s = execAcqClear t src h value s := rfl

theorem exec_acqClearDone (t : Nat) (s : State) :
    exec (.acqClearDone t) s = execAcqClearDone t s := rfl

theorem exec_frameDiscarded (t : Nat) (lane : Fin 55) (why : Discard) (s : State) :
    exec (.frameDiscarded t lane why) s = execFrameDiscarded t lane why s := rfl

theorem exec_invalidBlock (t : Nat) (lane : Fin 55) (why : BadBlock) (s : State) :
    exec (.invalidBlock t lane why) s = execInvalidBlock t lane why s := rfl

theorem exec_imageProgramDone (t : Nat) (ok : Bool) (s : State) :
    exec (.imageProgramDone t ok) s = execImageProgramDone t ok s := rfl

theorem exec_lvcFbChange (t : Nat) (contactor : Fin 4) (level : Bool) (s : State) :
    exec (.lvcFbChange t contactor level) s = execLvcFbChange t contactor level s := rfl

theorem exec_acTestInstruction (t : Nat) (instruction : AcTest) (s : State) :
    exec (.acTestInstruction t instruction) s = execAcTestInstruction t instruction s := rfl

theorem exec_netLinkChange (t : Nat) (speedMbps : Nat) (fullDuplex : Bool) (s : State) :
    exec (.netLinkChange t speedMbps fullDuplex) s = execNetLinkChange t speedMbps fullDuplex s := rfl

end Sys2Proof.Machine
end

