-- ==== Sys2Proof/Laws/Tbl.lean ====
section
/-!
SUPPORT. Laws/Tbl.lean: what reading and writing a sparse table and a bit field do, once for every table and field.
-/
namespace Sys2Proof.Machine

theorem tget_tins {α : Type} (d : Nat → α) (t : List (Nat × α)) (k : Nat) (v : α) (j : Nat) :
    tget d (tins t k v) j = if j = k then v else tget d t j := by
  induction t with
  | nil => by_cases h : j = k <;> simp [tins, tget, h]; omega
  | cons p t ih =>
    obtain ⟨k', v'⟩ := p
    simp only [tins]
    split
    · by_cases h : j = k
      · simp [tget, h]
      · simp [tget, h]; intro h'; omega
    · split
      · subst k'; by_cases h : j = k
        · simp [tget, h]
        · have : ¬ k = j := fun e => h e.symm
          simp [tget, h, this]
      · by_cases h : j = k
        · subst h; simp_all [tget]
        · simp [tget, ih, h]

theorem tget_tdel {α : Type} (d : Nat → α) (t : List (Nat × α)) (k j : Nat) :
    tget d (tdel t k) j = if j = k then d k else tget d t j := by
  induction t with
  | nil => by_cases h : j = k <;> simp [tdel, tget, h]
  | cons p t ih =>
    obtain ⟨k', v'⟩ := p
    simp only [tdel]
    split
    · subst k'; rw [ih]; by_cases h : j = k
      · simp [h]
      · have : ¬ k = j := fun e => h e.symm
        simp [tget, h, this]
    · by_cases h : j = k
      · subst h; simp_all [tget]
      · simp [tget, ih, h]

/-- Reading a table after a write: the value at the key written, every other key as before. -/
theorem tget_tset {α : Type} [DecidableEq α] (d : Nat → α) (t : List (Nat × α)) (k : Nat) (v : α) (j : Nat) :
    tget d (tset d t k v) j = if j = k then v else tget d t j := by
  unfold tset; split
  · rename_i h; rw [tget_tdel, h]
  · exact tget_tins d t k v j

theorem twfFrom_mono {α : Type} [DecidableEq α] (d : Nat → α) (t : List (Nat × α)) {a b : Nat} (h : a ≤ b)
    (w : twfFrom d b t = true) : twfFrom d a t = true := by
  cases t with
  | nil => rfl
  | cons p t => simp only [twfFrom, Bool.and_eq_true, decide_eq_true_eq] at *; exact ⟨⟨by omega, w.1.2⟩, w.2⟩

theorem twfFrom_tdel {α : Type} [DecidableEq α] (d : Nat → α) (t : List (Nat × α)) (k a : Nat)
    (w : twfFrom d a t = true) : twfFrom d a (tdel t k) = true := by
  induction t generalizing a with
  | nil => rfl
  | cons p t ih =>
    obtain ⟨k', v'⟩ := p
    simp only [twfFrom, Bool.and_eq_true, decide_eq_true_eq] at w
    simp only [tdel]; split
    · exact twfFrom_mono d _ (by omega) (ih _ w.2)
    · simp only [twfFrom, Bool.and_eq_true, decide_eq_true_eq]; exact ⟨w.1, ih _ w.2⟩

theorem twfFrom_tins {α : Type} [DecidableEq α] (d : Nat → α) (t : List (Nat × α)) (k a : Nat) (v : α)
    (hv : v ≠ d k) (ha : a ≤ k) (w : twfFrom d a t = true) : twfFrom d a (tins t k v) = true := by
  induction t generalizing a with
  | nil => simp [tins, twfFrom, hv, ha]
  | cons p t ih =>
    obtain ⟨k', v'⟩ := p
    simp only [twfFrom, Bool.and_eq_true, decide_eq_true_eq] at w
    simp only [tins]; split
    · simp only [twfFrom, Bool.and_eq_true, decide_eq_true_eq]; exact ⟨⟨ha, hv⟩, ⟨by omega, w.1.2⟩, w.2⟩
    · split
      · subst k'; simp only [twfFrom, Bool.and_eq_true, decide_eq_true_eq]; exact ⟨⟨ha, hv⟩, w.2⟩
      · simp only [twfFrom, Bool.and_eq_true, decide_eq_true_eq]; exact ⟨w.1, ih _ (by omega) w.2⟩

/-- Every write keeps the canonical form of a table. -/
theorem twf_tset {α : Type} [DecidableEq α] (d : Nat → α) (t : List (Nat × α)) (k : Nat) (v : α)
    (w : twf d t = true) : twf d (tset d t k v) = true := by
  unfold tset; split
  · exact twfFrom_tdel d t k 0 w
  · exact twfFrom_tins d t k 0 v ‹_› (Nat.zero_le _) w

/-- A bit of a field mask: exactly the bits lo..hi. -/
theorem maskBits_bit (hi lo i : Nat) (hh : hi < 32) (hi' : i < 32) :
    (maskBits hi lo).getLsbD i = (decide (lo ≤ i) && decide (i ≤ hi)) := by
  simp only [maskBits, BitVec.getLsbD_and, BitVec.getLsbD_shiftLeft, BitVec.getLsbD_ushiftRight,
    BitVec.getLsbD_allOnes]
  by_cases h1 : lo ≤ i <;> by_cases h2 : i ≤ hi <;> simp [h1, h2, hi'] <;> omega

/-- A bit of a field read. -/
theorem getBits_bit (w : Word) (hi lo i : Nat) :
    (getBits w hi lo).testBit i = (decide (i < hi - lo + 1) && w.getLsbD (lo + i)) := by
  simp [getBits, Nat.testBit_mod_two_pow, Nat.testBit_shiftRight, BitVec.getLsbD]

theorem putBits_bit (w : Word) (hi lo v i : Nat) (hh : hi < 32) (h : i < 32) :
    (putBits w hi lo v).getLsbD i =
      if lo ≤ i ∧ i ≤ hi then v.testBit (i - lo) else w.getLsbD i := by
  simp only [putBits, BitVec.getLsbD_or, BitVec.getLsbD_and, BitVec.getLsbD_not, BitVec.getLsbD_shiftLeft,
    maskBits_bit hi lo i hh h, BitVec.getLsbD_ofNat]
  have h3 : i - lo < 32 := by omega
  have h4 : lo ≤ i → ¬ i < lo := by omega
  by_cases h1 : lo ≤ i <;> by_cases h2 : i ≤ hi <;> simp [h1, h2, h, h3, h4]

/-- Reading a field just written gives the value, cut to the field. -/
theorem getBits_putBits_same (w : Word) (hi lo v : Nat) (hh : hi < 32) (hl : lo ≤ hi) :
    getBits (putBits w hi lo v) hi lo = v % 2 ^ (hi - lo + 1) := by
  apply Nat.eq_of_testBit_eq; intro i
  rw [getBits_bit, Nat.testBit_mod_two_pow]
  by_cases h : i < hi - lo + 1
  · have h1 : lo + i < 32 := by omega
    have h2 : lo ≤ lo + i ∧ lo + i ≤ hi := by omega
    rw [putBits_bit w hi lo v _ hh h1, if_pos h2]; simp [h]
  · simp [h]

/-- Writing a field leaves every field of other bits alone. -/
theorem getBits_putBits_ne (w : Word) (hi lo v hi' lo' : Nat) (hh : hi < 32) (hh' : hi' < 32) (hl' : lo' ≤ hi')
    (hd : hi < lo' ∨ hi' < lo) : getBits (putBits w hi lo v) hi' lo' = getBits w hi' lo' := by
  apply Nat.eq_of_testBit_eq; intro i
  rw [getBits_bit, getBits_bit]
  by_cases h : i < hi' - lo' + 1
  · have h1 : lo' + i < 32 := by omega
    rw [putBits_bit w hi lo v _ hh h1, if_neg (by omega)]
  · simp [h]

/-- A field read never exceeds the field. -/
theorem getBits_lt (w : Word) (hi lo : Nat) : getBits w hi lo < 2 ^ (hi - lo + 1) :=
  Nat.mod_lt _ (Nat.two_pow_pos _)

/-- A field whose bits lie in a word. -/
def Fld.ok (f : Fld) : Bool := decide (f.hi < 32) && decide (f.lo ≤ f.hi)

/-- Reading a register field just written. -/
theorem regGet_regSet_same (t : RegFile) (f : Fld) (i v : Nat) (h : f.ok = true) :
    regGet (regSet t f i v) f i = v % f.size := by
  simp only [Fld.ok, Bool.and_eq_true, decide_eq_true_eq] at h
  simp only [regGet, regSet, tget_tset, if_true, Fld.size]
  exact getBits_putBits_same _ _ _ _ h.1 h.2

/-- Two field instances that share no bit. -/
def Fld.apart (f : Fld) (i : Nat) (g : Fld) (j : Nat) : Bool :=
  decide (f.key i ≠ g.key j) || decide (f.hi < g.lo) || decide (g.hi < f.lo)

/-- Writing one register field leaves every field that shares no bit with it alone. -/
theorem regGet_regSet_apart (t : RegFile) (f g : Fld) (i j v : Nat) (hf : f.ok = true) (hg : g.ok = true)
    (ha : f.apart i g j = true) : regGet (regSet t f i v) g j = regGet t g j := by
  simp only [Fld.ok, Bool.and_eq_true, decide_eq_true_eq] at hf hg
  simp only [Fld.apart, Bool.or_eq_true, decide_eq_true_eq] at ha
  simp only [regGet, regSet, tget_tset]
  split
  · rename_i hk
    rw [getBits_putBits_ne _ _ _ _ _ _ hf.1 hg.1 hg.2, hk]
    rcases ha with (h | h) | h
    · exact absurd hk.symm h
    · exact Or.inl h
    · exact Or.inr h
  · rfl

end Sys2Proof.Machine
end

