-- ==== Sys2Proof/Laws/State.lean ====
section
/-!
SUPPORT. Laws/State.lean: what the plain updates of the block change, one lemma per update (its conjuncts, one per field, are the
rewrite rules), and reading back what was written.
-/
namespace Sys2Proof.Machine

@[simp] theorem Dev.wr_frame (d : Dev) (f : Fld) (v i : Nat) :
    (d.wr f v i).boot = d.boot ∧ (d.wr f v i).upd = d.upd ∧ (d.wr f v i).clk = d.clk ∧ (d.wr f v i).clock = d.clock ∧
    (d.wr f v i).tpos = d.tpos ∧ (d.wr f v i).tcis = d.tcis ∧ (d.wr f v i).laneTimes = d.laneTimes ∧
    (d.wr f v i).ptp = d.ptp ∧ (d.wr f v i).ports = d.ports ∧ (d.wr f v i).sessions = d.sessions ∧
    (d.wr f v i).parked = d.parked ∧ (d.wr f v i).queues = d.queues ∧ (d.wr f v i).lanes = d.lanes ∧
    (d.wr f v i).reasm = d.reasm ∧ (d.wr f v i).relays = d.relays ∧ (d.wr f v i).nextMsg = d.nextMsg ∧
    (d.wr f v i).basket = d.basket ∧ (d.wr f v i).modes = d.modes ∧ (d.wr f v i).steps = d.steps ∧
    (d.wr f v i).coll = d.coll ∧ (d.wr f v i).island = d.island ∧ (d.wr f v i).mem = d.mem ∧ (d.wr f v i).cal = d.cal ∧
    (d.wr f v i).resetAt = d.resetAt ∧ (d.wr f v i).fresh = d.fresh ∧ (d.wr f v i).tap = d.tap ∧
    (d.wr f v i).cells = d.cells ∧ (d.wr f v i).sched = d.sched ∧ (d.wr f v i).loops = d.loops ∧
    (d.wr f v i).engines = d.engines ∧ (d.wr f v i).hamper = d.hamper ∧ (d.wr f v i).wear = d.wear ∧
    (d.wr f v i).ledger = d.ledger ∧ (d.wr f v i).legs = d.legs ∧ (d.wr f v i).brake = d.brake ∧
    (d.wr f v i).chans = d.chans ∧ (d.wr f v i).group = d.group ∧ (d.wr f v i).twin = d.twin ∧ (d.wr f v i).acq = d.acq ∧
    (d.wr f v i).derate = d.derate := by
  refine ⟨rfl, rfl, rfl, rfl, rfl, rfl, rfl, rfl, rfl, rfl, rfl, rfl, rfl, rfl, rfl, rfl, rfl, rfl, rfl, rfl, rfl, rfl, rfl, rfl, rfl, rfl, rfl, rfl, rfl, rfl, rfl, rfl, rfl, rfl, rfl, rfl, rfl, rfl, rfl, rfl⟩

@[simp] theorem Dev.bump_frame (d : Dev) (f : Fld) (i : Nat) :
    (d.bump f i).boot = d.boot ∧ (d.bump f i).upd = d.upd ∧ (d.bump f i).clk = d.clk ∧ (d.bump f i).clock = d.clock ∧
    (d.bump f i).tpos = d.tpos ∧ (d.bump f i).tcis = d.tcis ∧ (d.bump f i).laneTimes = d.laneTimes ∧
    (d.bump f i).ptp = d.ptp ∧ (d.bump f i).ports = d.ports ∧ (d.bump f i).sessions = d.sessions ∧
    (d.bump f i).parked = d.parked ∧ (d.bump f i).queues = d.queues ∧ (d.bump f i).lanes = d.lanes ∧
    (d.bump f i).reasm = d.reasm ∧ (d.bump f i).relays = d.relays ∧ (d.bump f i).nextMsg = d.nextMsg ∧
    (d.bump f i).basket = d.basket ∧ (d.bump f i).modes = d.modes ∧ (d.bump f i).steps = d.steps ∧
    (d.bump f i).coll = d.coll ∧ (d.bump f i).island = d.island ∧ (d.bump f i).mem = d.mem ∧ (d.bump f i).cal = d.cal ∧
    (d.bump f i).resetAt = d.resetAt ∧ (d.bump f i).fresh = d.fresh ∧ (d.bump f i).tap = d.tap ∧
    (d.bump f i).cells = d.cells ∧ (d.bump f i).sched = d.sched ∧ (d.bump f i).loops = d.loops ∧
    (d.bump f i).engines = d.engines ∧ (d.bump f i).hamper = d.hamper ∧ (d.bump f i).wear = d.wear ∧
    (d.bump f i).ledger = d.ledger ∧ (d.bump f i).legs = d.legs ∧ (d.bump f i).brake = d.brake ∧
    (d.bump f i).chans = d.chans ∧ (d.bump f i).group = d.group ∧ (d.bump f i).twin = d.twin ∧ (d.bump f i).acq = d.acq ∧
    (d.bump f i).derate = d.derate := by
  unfold Dev.bump; split <;> simp

@[simp] theorem Dev.setWord_frame (d : Dev) (so w v : Nat) :
    (d.setWord so w v).boot = d.boot ∧ (d.setWord so w v).upd = d.upd ∧ (d.setWord so w v).clk = d.clk ∧
    (d.setWord so w v).clock = d.clock ∧ (d.setWord so w v).tpos = d.tpos ∧ (d.setWord so w v).tcis = d.tcis ∧
    (d.setWord so w v).laneTimes = d.laneTimes ∧ (d.setWord so w v).ptp = d.ptp ∧ (d.setWord so w v).ports = d.ports ∧
    (d.setWord so w v).sessions = d.sessions ∧ (d.setWord so w v).parked = d.parked ∧
    (d.setWord so w v).queues = d.queues ∧ (d.setWord so w v).lanes = d.lanes ∧ (d.setWord so w v).reasm = d.reasm ∧
    (d.setWord so w v).relays = d.relays ∧ (d.setWord so w v).nextMsg = d.nextMsg ∧ (d.setWord so w v).basket = d.basket ∧
    (d.setWord so w v).modes = d.modes ∧ (d.setWord so w v).steps = d.steps ∧ (d.setWord so w v).coll = d.coll ∧
    (d.setWord so w v).island = d.island ∧ (d.setWord so w v).mem = d.mem ∧ (d.setWord so w v).cal = d.cal ∧
    (d.setWord so w v).resetAt = d.resetAt ∧ (d.setWord so w v).fresh = d.fresh ∧ (d.setWord so w v).tap = d.tap ∧
    (d.setWord so w v).cells = d.cells ∧ (d.setWord so w v).sched = d.sched ∧ (d.setWord so w v).loops = d.loops ∧
    (d.setWord so w v).engines = d.engines ∧ (d.setWord so w v).hamper = d.hamper ∧ (d.setWord so w v).wear = d.wear ∧
    (d.setWord so w v).ledger = d.ledger ∧ (d.setWord so w v).legs = d.legs ∧ (d.setWord so w v).brake = d.brake ∧
    (d.setWord so w v).chans = d.chans ∧ (d.setWord so w v).group = d.group ∧ (d.setWord so w v).twin = d.twin ∧
    (d.setWord so w v).acq = d.acq ∧ (d.setWord so w v).derate = d.derate := by
  refine ⟨rfl, rfl, rfl, rfl, rfl, rfl, rfl, rfl, rfl, rfl, rfl, rfl, rfl, rfl, rfl, rfl, rfl, rfl, rfl, rfl, rfl, rfl, rfl, rfl, rfl, rfl, rfl, rfl, rfl, rfl, rfl, rfl, rfl, rfl, rfl, rfl, rfl, rfl, rfl, rfl⟩

@[simp] theorem Dev.setLane_frame (d : Dev) (l : Nat) (x : Lane) :
    (d.setLane l x).regs = d.regs ∧ (d.setLane l x).boot = d.boot ∧ (d.setLane l x).upd = d.upd ∧
    (d.setLane l x).clk = d.clk ∧ (d.setLane l x).clock = d.clock ∧ (d.setLane l x).tpos = d.tpos ∧
    (d.setLane l x).tcis = d.tcis ∧ (d.setLane l x).laneTimes = d.laneTimes ∧ (d.setLane l x).ptp = d.ptp ∧
    (d.setLane l x).ports = d.ports ∧ (d.setLane l x).sessions = d.sessions ∧ (d.setLane l x).parked = d.parked ∧
    (d.setLane l x).queues = d.queues ∧ (d.setLane l x).reasm = d.reasm ∧ (d.setLane l x).relays = d.relays ∧
    (d.setLane l x).nextMsg = d.nextMsg ∧ (d.setLane l x).basket = d.basket ∧ (d.setLane l x).modes = d.modes ∧
    (d.setLane l x).steps = d.steps ∧ (d.setLane l x).coll = d.coll ∧ (d.setLane l x).island = d.island ∧
    (d.setLane l x).mem = d.mem ∧ (d.setLane l x).cal = d.cal ∧ (d.setLane l x).resetAt = d.resetAt ∧
    (d.setLane l x).fresh = d.fresh ∧ (d.setLane l x).tap = d.tap ∧ (d.setLane l x).cells = d.cells ∧
    (d.setLane l x).sched = d.sched ∧ (d.setLane l x).loops = d.loops ∧ (d.setLane l x).engines = d.engines ∧
    (d.setLane l x).hamper = d.hamper ∧ (d.setLane l x).wear = d.wear ∧ (d.setLane l x).ledger = d.ledger ∧
    (d.setLane l x).legs = d.legs ∧ (d.setLane l x).brake = d.brake ∧ (d.setLane l x).chans = d.chans ∧
    (d.setLane l x).group = d.group ∧ (d.setLane l x).twin = d.twin ∧ (d.setLane l x).acq = d.acq ∧
    (d.setLane l x).derate = d.derate := by
  refine ⟨rfl, rfl, rfl, rfl, rfl, rfl, rfl, rfl, rfl, rfl, rfl, rfl, rfl, rfl, rfl, rfl, rfl, rfl, rfl, rfl, rfl, rfl, rfl, rfl, rfl, rfl, rfl, rfl, rfl, rfl, rfl, rfl, rfl, rfl, rfl, rfl, rfl, rfl, rfl, rfl⟩

@[simp] theorem Dev.setQueue_frame (d : Dev) (q : Nat) (x : Queue) :
    (d.setQueue q x).regs = d.regs ∧ (d.setQueue q x).boot = d.boot ∧ (d.setQueue q x).upd = d.upd ∧
    (d.setQueue q x).clk = d.clk ∧ (d.setQueue q x).clock = d.clock ∧ (d.setQueue q x).tpos = d.tpos ∧
    (d.setQueue q x).tcis = d.tcis ∧ (d.setQueue q x).laneTimes = d.laneTimes ∧ (d.setQueue q x).ptp = d.ptp ∧
    (d.setQueue q x).ports = d.ports ∧ (d.setQueue q x).sessions = d.sessions ∧ (d.setQueue q x).parked = d.parked ∧
    (d.setQueue q x).lanes = d.lanes ∧ (d.setQueue q x).reasm = d.reasm ∧ (d.setQueue q x).relays = d.relays ∧
    (d.setQueue q x).nextMsg = d.nextMsg ∧ (d.setQueue q x).basket = d.basket ∧ (d.setQueue q x).modes = d.modes ∧
    (d.setQueue q x).steps = d.steps ∧ (d.setQueue q x).coll = d.coll ∧ (d.setQueue q x).island = d.island ∧
    (d.setQueue q x).mem = d.mem ∧ (d.setQueue q x).cal = d.cal ∧ (d.setQueue q x).resetAt = d.resetAt ∧
    (d.setQueue q x).fresh = d.fresh ∧ (d.setQueue q x).tap = d.tap ∧ (d.setQueue q x).cells = d.cells ∧
    (d.setQueue q x).sched = d.sched ∧ (d.setQueue q x).loops = d.loops ∧ (d.setQueue q x).engines = d.engines ∧
    (d.setQueue q x).hamper = d.hamper ∧ (d.setQueue q x).wear = d.wear ∧ (d.setQueue q x).ledger = d.ledger ∧
    (d.setQueue q x).legs = d.legs ∧ (d.setQueue q x).brake = d.brake ∧ (d.setQueue q x).chans = d.chans ∧
    (d.setQueue q x).group = d.group ∧ (d.setQueue q x).twin = d.twin ∧ (d.setQueue q x).acq = d.acq ∧
    (d.setQueue q x).derate = d.derate := by
  refine ⟨rfl, rfl, rfl, rfl, rfl, rfl, rfl, rfl, rfl, rfl, rfl, rfl, rfl, rfl, rfl, rfl, rfl, rfl, rfl, rfl, rfl, rfl, rfl, rfl, rfl, rfl, rfl, rfl, rfl, rfl, rfl, rfl, rfl, rfl, rfl, rfl, rfl, rfl, rfl, rfl⟩

@[simp] theorem Dev.setSession_frame (d : Dev) (n : Nat) (x : Session) :
    (d.setSession n x).regs = d.regs ∧ (d.setSession n x).boot = d.boot ∧ (d.setSession n x).upd = d.upd ∧
    (d.setSession n x).clk = d.clk ∧ (d.setSession n x).clock = d.clock ∧ (d.setSession n x).tpos = d.tpos ∧
    (d.setSession n x).tcis = d.tcis ∧ (d.setSession n x).laneTimes = d.laneTimes ∧ (d.setSession n x).ptp = d.ptp ∧
    (d.setSession n x).ports = d.ports ∧ (d.setSession n x).parked = d.parked ∧ (d.setSession n x).queues = d.queues ∧
    (d.setSession n x).lanes = d.lanes ∧ (d.setSession n x).reasm = d.reasm ∧ (d.setSession n x).relays = d.relays ∧
    (d.setSession n x).nextMsg = d.nextMsg ∧ (d.setSession n x).basket = d.basket ∧ (d.setSession n x).modes = d.modes ∧
    (d.setSession n x).steps = d.steps ∧ (d.setSession n x).coll = d.coll ∧ (d.setSession n x).island = d.island ∧
    (d.setSession n x).mem = d.mem ∧ (d.setSession n x).cal = d.cal ∧ (d.setSession n x).resetAt = d.resetAt ∧
    (d.setSession n x).fresh = d.fresh ∧ (d.setSession n x).tap = d.tap ∧ (d.setSession n x).cells = d.cells ∧
    (d.setSession n x).sched = d.sched ∧ (d.setSession n x).loops = d.loops ∧ (d.setSession n x).engines = d.engines ∧
    (d.setSession n x).hamper = d.hamper ∧ (d.setSession n x).wear = d.wear ∧ (d.setSession n x).ledger = d.ledger ∧
    (d.setSession n x).legs = d.legs ∧ (d.setSession n x).brake = d.brake ∧ (d.setSession n x).chans = d.chans ∧
    (d.setSession n x).group = d.group ∧ (d.setSession n x).twin = d.twin ∧ (d.setSession n x).acq = d.acq ∧
    (d.setSession n x).derate = d.derate := by
  refine ⟨rfl, rfl, rfl, rfl, rfl, rfl, rfl, rfl, rfl, rfl, rfl, rfl, rfl, rfl, rfl, rfl, rfl, rfl, rfl, rfl, rfl, rfl, rfl, rfl, rfl, rfl, rfl, rfl, rfl, rfl, rfl, rfl, rfl, rfl, rfl, rfl, rfl, rfl, rfl, rfl⟩

@[simp] theorem Dev.setWindow_frame (d : Dev) (w : Nat) (x : Window) :
    (d.setWindow w x).regs = d.regs ∧ (d.setWindow w x).boot = d.boot ∧ (d.setWindow w x).upd = d.upd ∧
    (d.setWindow w x).clk = d.clk ∧ (d.setWindow w x).clock = d.clock ∧ (d.setWindow w x).tpos = d.tpos ∧
    (d.setWindow w x).tcis = d.tcis ∧ (d.setWindow w x).laneTimes = d.laneTimes ∧ (d.setWindow w x).ptp = d.ptp ∧
    (d.setWindow w x).sessions = d.sessions ∧ (d.setWindow w x).parked = d.parked ∧ (d.setWindow w x).queues = d.queues ∧
    (d.setWindow w x).lanes = d.lanes ∧ (d.setWindow w x).reasm = d.reasm ∧ (d.setWindow w x).relays = d.relays ∧
    (d.setWindow w x).nextMsg = d.nextMsg ∧ (d.setWindow w x).basket = d.basket ∧ (d.setWindow w x).modes = d.modes ∧
    (d.setWindow w x).steps = d.steps ∧ (d.setWindow w x).coll = d.coll ∧ (d.setWindow w x).island = d.island ∧
    (d.setWindow w x).mem = d.mem ∧ (d.setWindow w x).cal = d.cal ∧ (d.setWindow w x).resetAt = d.resetAt ∧
    (d.setWindow w x).fresh = d.fresh ∧ (d.setWindow w x).tap = d.tap ∧ (d.setWindow w x).cells = d.cells ∧
    (d.setWindow w x).sched = d.sched ∧ (d.setWindow w x).loops = d.loops ∧ (d.setWindow w x).engines = d.engines ∧
    (d.setWindow w x).hamper = d.hamper ∧ (d.setWindow w x).wear = d.wear ∧ (d.setWindow w x).ledger = d.ledger ∧
    (d.setWindow w x).legs = d.legs ∧ (d.setWindow w x).brake = d.brake ∧ (d.setWindow w x).chans = d.chans ∧
    (d.setWindow w x).group = d.group ∧ (d.setWindow w x).twin = d.twin ∧ (d.setWindow w x).acq = d.acq ∧
    (d.setWindow w x).derate = d.derate := by
  refine ⟨rfl, rfl, rfl, rfl, rfl, rfl, rfl, rfl, rfl, rfl, rfl, rfl, rfl, rfl, rfl, rfl, rfl, rfl, rfl, rfl, rfl, rfl, rfl, rfl, rfl, rfl, rfl, rfl, rfl, rfl, rfl, rfl, rfl, rfl, rfl, rfl, rfl, rfl, rfl, rfl⟩

@[simp] theorem Dev.fault_frame (d : Dev) (c k x : Nat) :
    (d.fault c k x).regs = d.regs ∧ (d.fault c k x).boot = d.boot ∧ (d.fault c k x).upd = d.upd ∧
    (d.fault c k x).clk = d.clk ∧ (d.fault c k x).clock = d.clock ∧ (d.fault c k x).tpos = d.tpos ∧
    (d.fault c k x).tcis = d.tcis ∧ (d.fault c k x).laneTimes = d.laneTimes ∧ (d.fault c k x).ptp = d.ptp ∧
    (d.fault c k x).ports = d.ports ∧ (d.fault c k x).sessions = d.sessions ∧ (d.fault c k x).parked = d.parked ∧
    (d.fault c k x).queues = d.queues ∧ (d.fault c k x).lanes = d.lanes ∧ (d.fault c k x).reasm = d.reasm ∧
    (d.fault c k x).relays = d.relays ∧ (d.fault c k x).nextMsg = d.nextMsg ∧ (d.fault c k x).basket = d.basket ∧
    (d.fault c k x).modes = d.modes ∧ (d.fault c k x).steps = d.steps ∧ (d.fault c k x).island = d.island ∧
    (d.fault c k x).mem = d.mem ∧ (d.fault c k x).cal = d.cal ∧ (d.fault c k x).resetAt = d.resetAt ∧
    (d.fault c k x).fresh = d.fresh ∧ (d.fault c k x).tap = d.tap ∧ (d.fault c k x).cells = d.cells ∧
    (d.fault c k x).sched = d.sched ∧ (d.fault c k x).loops = d.loops ∧ (d.fault c k x).engines = d.engines ∧
    (d.fault c k x).hamper = d.hamper ∧ (d.fault c k x).wear = d.wear ∧ (d.fault c k x).ledger = d.ledger ∧
    (d.fault c k x).legs = d.legs ∧ (d.fault c k x).brake = d.brake ∧ (d.fault c k x).chans = d.chans ∧
    (d.fault c k x).group = d.group ∧ (d.fault c k x).twin = d.twin ∧ (d.fault c k x).acq = d.acq ∧
    (d.fault c k x).derate = d.derate := by
  refine ⟨rfl, rfl, rfl, rfl, rfl, rfl, rfl, rfl, rfl, rfl, rfl, rfl, rfl, rfl, rfl, rfl, rfl, rfl, rfl, rfl, rfl, rfl, rfl, rfl, rfl, rfl, rfl, rfl, rfl, rfl, rfl, rfl, rfl, rfl, rfl, rfl, rfl, rfl, rfl, rfl⟩

/-! ## Reading back -/

/-- A field just written reads as the value, cut to the field. -/
theorem Dev.rd_wr_same (d : Dev) (f : Fld) (v i : Nat) (h : f.ok = true) : (d.wr f v i).rd f i = v % f.size :=
  regGet_regSet_same d.regs f i v h

/-- A field write leaves every field that shares no bit with it alone. -/
theorem Dev.rd_wr_apart (d : Dev) (f g : Fld) (v i j : Nat) (hf : f.ok = true) (hg : g.ok = true)
    (ha : f.apart i g j = true) : (d.wr f v i).rd g j = d.rd g j :=
  regGet_regSet_apart d.regs f g i j v hf hg ha

/-- Two states with the same register words read alike. -/
theorem Dev.rd_congr {d e : Dev} (h : d.regs = e.regs) (f : Fld) (i : Nat) : d.rd f i = e.rd f i := by
  simp only [Dev.rd, h]

/-- A counter either stands at its top or is one more. -/
theorem Dev.bump_cases (d : Dev) (f : Fld) (i : Nat) : d.bump f i = d ∨ d.bump f i = d.wr f (d.rd f i + 1) i := by
  unfold Dev.bump; split
  · exact .inr rfl
  · exact .inl rfl

/-- A counter below its top is one more. -/
theorem Dev.rd_bump_same (d : Dev) (f : Fld) (i : Nat) (h : f.ok = true) (k : d.rd f i < f.top) :
    (d.bump f i).rd f i = d.rd f i + 1 := by
  have hs : d.rd f i + 1 < f.size := by unfold Fld.top at k; omega
  unfold Dev.bump
  rw [if_pos k, Dev.rd_wr_same _ _ _ _ h, Nat.mod_eq_of_lt hs]

theorem Dev.rd_bump_apart (d : Dev) (f g : Fld) (i j : Nat) (hf : f.ok = true) (hg : g.ok = true)
    (ha : f.apart i g j = true) : (d.bump f i).rd g j = d.rd g j := by
  rcases d.bump_cases f i with e | e <;> rw [e]
  exact Dev.rd_wr_apart _ _ _ _ _ _ hf hg ha

@[simp] theorem Dev.rd_setLane (d : Dev) (l : Nat) (x : Lane) (f : Fld) (i : Nat) : (d.setLane l x).rd f i = d.rd f i := rfl
@[simp] theorem Dev.rd_setQueue (d : Dev) (q : Nat) (x : Queue) (f : Fld) (i : Nat) :
    (d.setQueue q x).rd f i = d.rd f i := rfl
@[simp] theorem Dev.rd_setSession (d : Dev) (n : Nat) (x : Session) (f : Fld) (i : Nat) :
    (d.setSession n x).rd f i = d.rd f i := rfl
@[simp] theorem Dev.rd_setWindow (d : Dev) (w : Nat) (x : Window) (f : Fld) (i : Nat) :
    (d.setWindow w x).rd f i = d.rd f i := rfl
@[simp] theorem Dev.rd_fault (d : Dev) (c k x : Nat) (f : Fld) (i : Nat) : (d.fault c k x).rd f i = d.rd f i := rfl

@[simp] theorem Dev.lane_setLane (d : Dev) (l m : Nat) (x : Lane) :
    (d.setLane l x).lane m = if m = l then x else d.lane m := tget_tset _ d.lanes l x m
@[simp] theorem Dev.queue_setQueue (d : Dev) (q m : Nat) (x : Queue) :
    (d.setQueue q x).queue m = if m = q then x else d.queue m := tget_tset _ d.queues q x m
@[simp] theorem Dev.session_setSession (d : Dev) (n m : Nat) (x : Session) :
    (d.setSession n x).session m = if m = n then x else d.session m := tget_tset _ d.sessions n x m
@[simp] theorem Dev.window_setWindow (d : Dev) (w m : Nat) (x : Window) :
    (d.setWindow w x).window m = if m = w then x else d.window m := tget_tset _ d.ports.windows w x m

/-! ## The instant of a command -/

/-- Moving the counter to an instant moves it never back, and takes away the frames the network port sent before. -/
theorem Dev.reach_cases (d : Dev) (t : Nat) : d.reach t = { d with
    clock := { d.clock with now := max d.clock.now t }
    ports := { d.ports with netOut := if d.clock.now < t then [] else d.ports.netOut } } := rfl

@[simp] theorem Dev.reach_frame (d : Dev) (t : Nat) :
    (d.reach t).boot = d.boot ∧ (d.reach t).upd = d.upd ∧ (d.reach t).clk = d.clk ∧ (d.reach t).tpos = d.tpos ∧
    (d.reach t).tcis = d.tcis ∧ (d.reach t).laneTimes = d.laneTimes ∧ (d.reach t).ptp = d.ptp ∧
    (d.reach t).sessions = d.sessions ∧ (d.reach t).parked = d.parked ∧
    (d.reach t).queues = d.queues ∧ (d.reach t).lanes = d.lanes ∧ (d.reach t).reasm = d.reasm ∧
    (d.reach t).relays = d.relays ∧ (d.reach t).nextMsg = d.nextMsg ∧ (d.reach t).basket = d.basket ∧
    (d.reach t).modes = d.modes ∧ (d.reach t).steps = d.steps ∧ (d.reach t).coll = d.coll ∧
    (d.reach t).island = d.island ∧ (d.reach t).mem = d.mem ∧ (d.reach t).cal = d.cal ∧
    (d.reach t).resetAt = d.resetAt ∧ (d.reach t).fresh = d.fresh ∧ (d.reach t).tap = d.tap ∧
    (d.reach t).cells = d.cells ∧ (d.reach t).sched = d.sched ∧ (d.reach t).loops = d.loops ∧
    (d.reach t).engines = d.engines ∧ (d.reach t).hamper = d.hamper ∧ (d.reach t).wear = d.wear ∧
    (d.reach t).ledger = d.ledger ∧ (d.reach t).legs = d.legs ∧ (d.reach t).brake = d.brake ∧
    (d.reach t).chans = d.chans ∧ (d.reach t).group = d.group ∧ (d.reach t).twin = d.twin ∧
    (d.reach t).acq = d.acq ∧ (d.reach t).derate = d.derate ∧ (d.reach t).regs = d.regs := by
  rw [Dev.reach_cases]; simp

@[simp] theorem Dev.rd_reach (d : Dev) (t : Nat) (f : Fld) (i : Nat) : (d.reach t).rd f i = d.rd f i := rfl

theorem Dev.now_le_reach (d : Dev) (t : Nat) : d.now ≤ (d.reach t).now := Nat.le_max_left ..

theorem Dev.le_now_reach (d : Dev) (t : Nat) : t ≤ (d.reach t).now := Nat.le_max_right ..

/-- While time does not run, a command finds the block as it stands. -/
theorem Dev.advance_stopped (d : Dev) (t : Nat) (h : d.timeRuns = false) : d.advance t = d := by
  unfold Dev.advance; rw [h]; rfl

/-- With nothing due in the control engine only the counter moves. -/
theorem Dev.engineTo_quiet (d : Dev) (t : Nat) (h : earliest d.engines.steps = none) : d.engineTo t = d := by
  unfold Dev.engineTo Dev.engineSteps; rw [h]

theorem Dev.advance_quiet (d : Dev) (t : Nat) (h : earliest d.engines.steps = none) :
    d.advance t = if d.timeRuns then d.reach t else d := by
  unfold Dev.advance; rw [Dev.engineTo_quiet d _ h]

/-! ## Ranges, folds and chains of writes -/

/-- A field that is not set reads 0. -/
theorem Dev.rd_off {d : Dev} {f : Fld} {i : Nat} (h : d.on f i = false) : d.rd f i = 0 := by simpa [Dev.on] using h

/-- A field reads within its range. -/
theorem Dev.rd_lt (d : Dev) (f : Fld) (i : Nat) : d.rd f i < f.size := getBits_lt _ _ _

/-- A field of an object with one instance stands in that object. -/
theorem Fld.key_so (f : Fld) (i : Nat) (h1 : f.soN = 1) (h2 : f.word + f.stride * i < 65536) : f.key i / 65536 = f.so := by
  simp only [Fld.key, Fld.soAt, Fld.wordAt, wordKey, h1, if_true]; omega

/-- A chain of updates leaves a field alone that none of them changes. -/
theorem Dev.rd_foldl {α : Type} (g : Dev → α → Dev) (l : List α) (f : Fld) (i : Nat) (d : Dev)
    (h : ∀ (d : Dev) x, x ∈ l → (g d x).rd f i = d.rd f i) : (l.foldl g d).rd f i = d.rd f i := by
  induction l generalizing d with
  | nil => rfl
  | cons x t ih =>
    rw [List.foldl_cons, ih (g d x) (fun d y hy => h d y (List.mem_cons_of_mem _ hy)), h d x (List.mem_cons_self ..)]

/-- The place of an element numbered along its list. -/
theorem zipIdx_lt {α : Type} {l : List α} {x : α × Nat} (h : x ∈ l.zipIdx) : x.2 < l.length := by
  have := (List.mem_zipIdx h).2.1; omega

theorem Dev.OnlyRegs.refl (b : Dev) : b.OnlyRegs b := ⟨b.regs, rfl⟩
theorem Dev.OnlyRegs.wr {b e : Dev} (h : b.OnlyRegs e) (f : Fld) (v i : Nat) : b.OnlyRegs (e.wr f v i) := by
  obtain ⟨r, rfl⟩ := h; exact ⟨_, rfl⟩
theorem Dev.OnlyRegs.bump {b e : Dev} (h : b.OnlyRegs e) (f : Fld) (i : Nat) : b.OnlyRegs (e.bump f i) := by
  unfold Dev.bump; split
  · exact h.wr _ _ _
  · exact h
theorem Dev.OnlyRegs.ite {c : Prop} [Decidable c] {a b b' : Dev} (h : a.OnlyRegs b) (k : a.OnlyRegs b') :
    a.OnlyRegs (if c then b else b') := by
  split <;> assumption
theorem Dev.OnlyRegs.foldl {α : Type} (g : Dev → α → Dev) (l : List α) {b d : Dev} (h : b.OnlyRegs d)
    (k : ∀ (d : Dev) x, b.OnlyRegs d → b.OnlyRegs (g d x)) : b.OnlyRegs (l.foldl g d) := by
  induction l generalizing d with
  | nil => exact h
  | cons x t ih => exact ih (k d x h)

/-- Register writes do not show once the registers are named. -/
theorem Dev.OnlyRegs.with {b e : Dev} (h : b.OnlyRegs e) (r : RegFile) : ({ e with regs := r } : Dev) = { b with regs := r } := by
  obtain ⟨r', rfl⟩ := h; rfl

end Sys2Proof.Machine
end

