-- ==== Sys2Proof/Laws/Ops.lean ====
section
/-!
SUPPORT. Laws/Ops.lean: what the shared operations may change, each said once: a raise of an event source, a notice, a packet put
into a queue. They touch the words of five state objects, the frames that wait on lanes, queues, the Basket's arming, the
memory behind queues, Lantern's latches, what leaves the network port and the note of the sources raised in this SAFE cycle; nothing
else.
-/
namespace Sys2Proof.Machine

/-- The state objects whose words a raise, a notice or a queued packet may write: STG, HMP queue peaks, FLT totals, event
pending bits, memory status. -/
def loudObjects : List Nat := [0x0100, 0x0907, 0x0F04, 0x0F20, 0x1102]

/-- An instance of a field in an object that a raise does not write. -/
def Fld.quiet (f : Fld) (i : Nat) : Bool := !loudObjects.contains (f.key i / 65536)

/-- The block without what a raise may change. -/
def Dev.core (d : Dev) : Dev :=
  { d with
    regs := [], lanes := [], queues := [], basket := {}, mem := {}, acq := {}, ports := {}
    coll := { d.coll with raised := [], raisedIn := 0 } }

/-- Two states that differ at most by raises, notices and queued packets. -/
structure Dev.Near (d e : Dev) : Prop where
  rd : ∀ f i, f.quiet i = true → e.rd f i = d.rd f i
  core : e.core = d.core

theorem Dev.Near.refl (d : Dev) : d.Near d := ⟨fun _ _ _ => rfl, rfl⟩

theorem Dev.Near.trans {a b c : Dev} (h : a.Near b) (k : b.Near c) : a.Near c :=
  ⟨fun f i q => (k.rd f i q).trans (h.rd f i q), k.core.trans h.core⟩

/-- What near states share besides quiet fields. -/
theorem Dev.Near.keeps {d e : Dev} (h : d.Near e) :
    e.boot = d.boot ∧ e.upd = d.upd ∧ e.clk = d.clk ∧ e.clock = d.clock ∧ e.tpos = d.tpos ∧
    e.tcis = d.tcis ∧ e.laneTimes = d.laneTimes ∧ e.ptp = d.ptp ∧ e.sessions = d.sessions ∧
    e.parked = d.parked ∧ e.reasm = d.reasm ∧ e.relays = d.relays ∧ e.nextMsg = d.nextMsg ∧ e.modes = d.modes ∧
    e.steps = d.steps ∧ e.island = d.island ∧ e.cal = d.cal ∧ e.resetAt = d.resetAt ∧
    e.fresh = d.fresh ∧ e.tap = d.tap ∧ e.cells = d.cells ∧ e.sched = d.sched ∧ e.loops = d.loops ∧
    e.engines = d.engines ∧ e.hamper = d.hamper ∧ e.wear = d.wear ∧ e.ledger = d.ledger ∧ e.legs = d.legs ∧
    e.brake = d.brake ∧ e.chans = d.chans ∧ e.group = d.group ∧ e.twin = d.twin ∧ e.derate = d.derate := by
  have c := h.core
  simp only [Dev.core, Dev.mk.injEq] at c
  simp only [c, and_self]

/-- Near states have the same raises that wait, and the same fault history. -/
theorem Dev.Near.coll {d e : Dev} (h : d.Near e) :
    e.coll = { d.coll with raised := e.coll.raised, raisedIn := e.coll.raisedIn } := by
  have c := congrArg (fun x : Dev => ({ x.coll with raised := e.coll.raised, raisedIn := e.coll.raisedIn } : Collector)) h.core
  exact c

theorem Dev.Near.ite {c : Prop} [Decidable c] {a b b' : Dev} (h : a.Near b) (k : a.Near b') :
    a.Near (if c then b else b') := by
  split <;> assumption

/-- A chain of operations of which each keeps near. -/
theorem Dev.Near.foldl {α : Type} (f : Dev → α → Dev) (l : List α) (d : Dev) (h : ∀ (d : Dev) x, d.Near (f d x)) :
    d.Near (l.foldl f d) := by
  induction l generalizing d with
  | nil => exact .refl d
  | cons x t ih => exact (h d x).trans (ih (f d x))

/-- A field write leaves every field of another word alone. -/
theorem Dev.rd_wr_key (d : Dev) (f g : Fld) (v i j : Nat) (h : f.key i ≠ g.key j) : (d.wr f v i).rd g j = d.rd g j := by
  simp only [Dev.rd, Dev.wr, regGet, regSet, tget_tset]
  rw [if_neg (fun e => h e.symm)]

theorem Dev.near_wr (d : Dev) (f : Fld) (v i : Nat) (h : f.quiet i = false) : d.Near (d.wr f v i) := by
  refine ⟨fun g j q => Dev.rd_wr_key d f g v i j ?_, rfl⟩
  intro e
  simp [Fld.quiet, e] at h q
  exact q h

theorem Dev.near_setLane (d : Dev) (l : Nat) (x : Lane) : d.Near (d.setLane l x) := ⟨fun _ _ _ => rfl, rfl⟩
theorem Dev.near_setQueue (d : Dev) (q : Nat) (x : Queue) : d.Near (d.setQueue q x) := ⟨fun _ _ _ => rfl, rfl⟩
theorem Dev.near_queueFrame (d : Dev) (l : Nat) (x : TxItem) : d.Near (d.queueFrame l x) := Dev.near_setLane d l _

theorem Dev.near_noteRaise (d : Dev) (s : Nat) : d.Near (d.noteRaise s) := ⟨fun _ _ _ => rfl, rfl⟩
theorem Dev.near_ports (d : Dev) (x : Ports) : d.Near { d with ports := x } := ⟨fun _ _ _ => rfl, rfl⟩

theorem Dev.near_netSend (d : Dev) (mac : Nat) (b : NetBody) : d.Near (d.netSend mac b) := by
  unfold Dev.netSend Dev.netSendTag
  exact Dev.Near.ite (Dev.near_ports d _) (.refl d)

theorem Dev.near_arpAsk (d : Dev) (ip : Nat) : d.Near (d.arpAsk ip) := by
  unfold Dev.arpAsk
  exact Dev.Near.ite (.refl d) ((Dev.near_ports d _).trans (Dev.near_netSend _ _ _))

theorem Dev.near_acqLatch (d : Dev) (a : Nat) (hit : Nat → Option Nat) : d.Near (d.acqLatch a hit) := by
  unfold Dev.acqLatch; split
  · exact ⟨fun _ _ _ => rfl, rfl⟩
  · exact .refl d

theorem Dev.near_arm (d : Dev) (n : Nat) (k : ArmKind) (s : Nat) : d.Near (d.arm n k s) := by
  unfold Dev.arm
  refine Dev.Near.trans (b := { d with basket := { d.basket with armed := some { instant := n, kind := k, session := s } } })
    ⟨fun _ _ _ => rfl, rfl⟩ ?_
  exact (Dev.near_wr _ F.stgArmed _ 0 (by decide)).trans
    ((Dev.near_wr _ F.stgArmAtLo _ 0 (by decide)).trans (Dev.near_wr _ F.stgArmAtHi _ 0 (by decide)))

theorem Dev.near_commitInput (d : Dev) : d.Near d.commitInput := by
  unfold Dev.commitInput; split
  · exact (Dev.near_arm _ _ _ _).trans (Dev.near_wr _ F.fltEvcArm _ 0 (by decide))
  · exact .refl d

theorem Dev.near_writePage (d : Dev) (p t : Nat) (b : Bytes) : d.Near (d.writePage p t b) := by
  unfold Dev.writePage
  refine Dev.Near.trans ?_ (Dev.near_wr _ F.memSelfRef _ 0 (by decide))
  exact ⟨fun _ _ _ => rfl, rfl⟩

theorem Dev.near_dramUsed (d : Dev) : d.Near d.dramUsed := by
  unfold Dev.dramUsed
  exact Dev.Near.trans (b := { d with mem := { d.mem with lastAccess := d.up } }) ⟨fun _ _ _ => rfl, rfl⟩
    (Dev.near_wr _ F.memSelfRef _ 0 (by decide))

theorem quiet_qPeak (q : Nat) (h : q < 65536) : F.hmpQPeak.quiet q = false := by
  have : F.hmpQPeak.key q / 65536 = 0x0907 := by
    simp [Fld.key, Fld.soAt, Fld.wordAt, wordKey, F.hmpQPeak]; omega
  simp [Fld.quiet, this, loudObjects]

theorem Dev.near_spill (d : Dev) (q : Nat) (h : q < 65536) : d.Near (d.spill q) := by
  unfold Dev.spill
  dsimp only
  split
  · exact Dev.near_setQueue _ _ _
  · split
    · exact ((Dev.near_setQueue _ _ _).trans (Dev.near_dramUsed _)).trans (Dev.near_writePage _ _ _ _)
    · split
      · exact (((Dev.near_setQueue _ _ _).trans (Dev.near_dramUsed _)).trans (Dev.near_writePage _ _ _ _)).trans
          (Dev.near_wr _ F.hmpQPeak _ q (quiet_qPeak q h))
      · exact .refl d

theorem Dev.near_putEntry (d : Dev) (q : Nat) (e : QEnt) (h : q < 65536) : d.Near (d.putEntry q e) := by
  unfold Dev.putEntry
  dsimp only
  split
  · exact Dev.near_setQueue _ _ _
  · split
    · exact (Dev.near_setQueue _ _ _).trans (Dev.near_spill _ q h)
    · exact Dev.near_setQueue _ _ _

/-- What a packet put into a queue may change. -/
theorem Dev.near_putPacket (d : Dev) (q : Nat) (p : Bytes) (h : q < 65536) : d.Near (d.putPacket q p) :=
  Dev.Near.foldl _ _ d fun d e => Dev.near_putEntry d q e h

theorem quiet_evPend (k : Nat) (h : k < 65536) : F.fltEvPend.quiet k = false := by
  have : F.fltEvPend.key k / 65536 = 0x0F20 := by
    simp [Fld.key, Fld.soAt, Fld.wordAt, wordKey, F.fltEvPend]; omega
  simp [Fld.quiet, this, loudObjects]

theorem Dev.near_raiseBase (d : Dev) (e : EvRec) (h : e.source < 256) : d.Near (d.raiseBase e) := by
  unfold Dev.raiseBase
  extract_lets s d0 d1 d2 d3 x d4
  have h0 : d.Near d0 := Dev.near_noteRaise d s
  have h1 : d0.Near d1 := Dev.near_wr d0 F.fltEvPend _ (e.source / 32) (quiet_evPend _ (by omega))
  have h2 : d1.Near d2 := Dev.near_acqLatch d1 _ _
  have h3 : d2.Near d3 := Dev.Near.ite (Dev.near_queueFrame d2 _ _) (.refl d2)
  have h4 : d3.Near d4 := Dev.Near.ite (Dev.near_queueFrame d3 _ _) (.refl d3)
  exact h0.trans (h1.trans (h2.trans (h3.trans (h4.trans (Dev.Near.ite (Dev.near_commitInput d4) (.refl d4))))))

/-- What taking a packet out of a queue may change. -/
theorem Dev.near_takePacket {d d' : Dev} {q : Nat} {p : Bytes} (h : d.takePacket q = some (p, d')) : d.Near d' := by
  unfold Dev.takePacket at h
  dsimp only at h
  split at h
  · cases h
  · simp only [Option.some.injEq, Prod.mk.injEq] at h
    rw [← h.2]
    exact Dev.near_setQueue _ _ _

theorem Dev.near_drainSession (fuel n : Nat) (d : Dev) : d.Near (Dev.drainSession fuel n d) := by
  induction fuel generalizing d with
  | zero => exact .refl d
  | succ fuel ih =>
    unfold Dev.drainSession
    dsimp only
    split
    · exact .refl d
    · split
      · rename_i h
        exact (Dev.near_takePacket h).trans ((Dev.near_netSend _ _ _).trans (ih _))
      · exact Dev.near_arpAsk _ _
      · exact .refl d

theorem sessionQueue_lt (n : Nat) : sessionQueue n < 65536 := by
  unfold sessionQueue; split
  · decide
  · split <;> omega

theorem Dev.near_bump (d : Dev) (f : Fld) (i : Nat) (h : f.quiet i = false) : d.Near (d.bump f i) := by
  unfold Dev.bump
  exact Dev.Near.ite (Dev.near_wr d f _ i h) (.refl d)

theorem Dev.near_notice (d : Dev) (s : Nat) (e : EvRec) : d.Near (d.notice s e) := by
  unfold Dev.notice
  extract_lets host q limit p d1
  have h1 : d.Near d1 := Dev.near_putPacket _ _ _ (sessionQueue_lt _)
  refine Dev.Near.ite (h1.trans ?_) (Dev.near_bump d F.fltNoticeLost 0 (by decide))
  exact Dev.Near.ite (Dev.near_raiseBase _ _ (by show (1 : Nat) < 256; decide))
    (Dev.Near.ite (Dev.near_drainSession _ _ _) (.refl _))

theorem Dev.near_raiseRec (d : Dev) (e : EvRec) (h : e.source < 256) : d.Near (d.raiseRec e) := by
  unfold Dev.raiseRec
  exact (Dev.near_raiseBase d e h).trans (Dev.Near.foldl _ _ _ fun d s => Dev.near_notice d s e)

/-- What a raise of an event source may change (R416 to R419). -/
theorem Dev.near_raise (d : Dev) (s x : Nat) (h : s < 256) : d.Near (d.raise s x) := Dev.near_raiseRec d _ h

theorem Dev.rd_raise (d : Dev) (s x : Nat) (f : Fld) (i : Nat) (h : s < 256) (q : f.quiet i = true) :
    (d.raise s x).rd f i = d.rd f i := (Dev.near_raise d s x h).rd f i q

end Sys2Proof.Machine
end

