-- ==== Sys2Proof/Laws/Interp.lean ====
section
/-!
SUPPORT. Laws/Interp.lean: what an opcode row does, once for every opcode: the packet admitted, its handler's answer becomes the
reply; and the three ways in which a command acts on the whole state.
-/
namespace Sys2Proof.Machine

/-! ## Lifting -/

@[simp] theorem lift_eq (s : State) (f : Dev → Dev) : lift s f = .next { s with dev := f s.dev } := rfl

@[simp] theorem event_eq (t : Nat) (s : State) (f : Dev → Dev) :
    event t s f = .next { s with dev := f (s.dev.advance t) } := rfl

theorem opcode_eq (op t : Nat) (src : Src) (hd : Hdr) (pl : Bytes) (need : OpNeed) (h : Handler) (s : State) :
    opcode op t src hd pl need h s = .next { s with dev := s.dev.serve op t src hd pl need h } := rfl

theorem opcodeLen_eq (op t : Nat) (src : Src) (hd : Hdr) (pl : Bytes) (need : OpNeed) (h : Handler) (s : State) :
    opcodeLen true op t src hd pl need h s = opcode op t src hd pl need h s := rfl

/-- A packet whose length is not the one R114 gives, on a port that takes packets, is refused (R100 step 1). -/
theorem Dev.serveLen_refused (d : Dev) (op t : Nat) (src : Src) (hd : Hdr) (pl : Bytes) (need : OpNeed) (h : Handler)
    (a : (d.advance t).portActive src = true) : d.serveLen false op t src hd pl need h =
      (d.advance t).refusePacket ((d.advance t).ctx op src hd pl) stBadLength := by
  simp [Dev.serveLen, a]

theorem liftFuse_eq (s : State) (f : Dev → Dev) :
    liftFuse s f = .next { s with fuse := s.fuse.burn (f s.dev), dev := f s.dev } := rfl

/-! ## Checks in order -/

/-- Where no check refuses, the answer stands. -/
theorem orRefuse_passes (checks : List (Option HRes)) (ok : HRes) (h : passes checks) : orRefuse checks ok = ok := by
  unfold orRefuse
  have : checks.findSome? id = none := List.findSome?_eq_none_iff.mpr fun x hx => h x hx
  rw [this]; rfl

/-- The first check that refuses gives the answer. -/
theorem orRefuse_cons (x : Option HRes) (t : List (Option HRes)) (ok : HRes) :
    orRefuse (x :: t) ok = x.getD (orRefuse t ok) := by
  unfold orRefuse; cases x <;> simp [List.findSome?]

@[simp] theorem orRefuse_nil (ok : HRes) : orRefuse [] ok = ok := rfl

@[simp] theorem refuseIf_false (st r : Nat) (d : Dev) : refuseIf false st r d = none := rfl

/-! ## Lengths -/

@[simp] theorem le_length (n v : Nat) : (le n v).length = n := by
  induction n generalizing v with
  | zero => rfl
  | succ n ih => simp [le, ih]

@[simp] theorem wordBytes_length (w : Word) : (wordBytes w).length = 4 := by simp [wordBytes]

@[simp] theorem zeros_length (n : Nat) : (zeros n).length = n := by simp [zeros]

@[simp] theorem wordsBytes_length (ws : List Word) : (wordsBytes ws).length = 4 * ws.length := by
  induction ws with
  | nil => rfl
  | cons w t ih => simp [wordsBytes] at *; omega

@[simp] theorem refusalData_length (so word bit reason : Nat) : (refusalData so word bit reason).length = 8 := by
  simp [refusalData]

theorem replyLimit_ge (src : Src) : 1456 ≤ replyLimit src := by cases src <;> simp [replyLimit]

/-! ## An admitted packet -/

/-- A packet that no check refuses has a clean header. -/
theorem Dev.clean_of_precheck {d : Dev} {c : Ctx} {need : OpNeed} (h : d.precheck c need = none) : c.clean = true := by
  unfold Dev.precheck at h
  dsimp only at h
  split at h
  · cases h
  · rename_i k; simpa using k

/-- A packet that no check refuses and no firmware fault strikes is answered as its handler says. -/
theorem Dev.execute_passes (d : Dev) (c : Ctx) (need : OpNeed) (h : Handler) (k : d.precheck c need = none)
    (i : d.ports.internalDue = false) : d.execute c need h =
      match h c d.serviced with
      | .reply st data d' =>
        if replyLimit c.ticket.src < data.length then d.serviced.sendReply c.ticket stBadLength (refusalData 0xFFFF 0 0xFF 0)
        else d'.sendReply c.ticket st data
      | .park why d' => { d' with parked := d'.parked ++ [{ ticket := c.ticket, why := why }] } := by
  unfold Dev.execute
  rw [k]
  simp only [i, Bool.false_eq_true, if_false] <;> rfl

theorem Pkt.serve_admitted (p : Pkt) (s : State) (h : Handler) (a : p.Admitted s) :
    s.dev.serve p.op p.t p.src p.hd p.payload p.need h =
      match h (p.ctx s) (p.taken s) with
      | .reply st data d' =>
        if replyLimit p.src < data.length then (p.taken s).sendReply (p.ticket s) stBadLength (refusalData 0xFFFF 0 0xFF 0)
        else d'.sendReply (p.ticket s) st data
      | .park why d' => { d' with parked := d'.parked ++ [{ ticket := p.ticket s, why := why }] } := by
  obtain ⟨h1, hl, h2, h3, h4, h5, h6⟩ := a
  have e1 : (p.ctx s).ticket.src = p.src := rfl
  have e2 : (p.ctx s).ticket.session = p.hd.session.toNat := rfl
  have e3 : (p.ctx s).clean = true := Dev.clean_of_precheck h5
  have hr : (decide (p.src = Src.host) && !(p.entered s).replyRoom p.op) = false := by
    by_cases hs : p.src = .host
    · simp [h4 hs]
    · simp [hs]
  have hs : s.dev.serve p.op p.t p.src p.hd p.payload p.need h = (p.arrived s).take (p.ctx s) p.payload p.need h := by
    show (if (true && lengthsFit p.src p.payload p.need) = true then (p.arrived s).take (p.ctx s) p.payload p.need h
      else _) = _
    rw [hl]; rfl
  rw [hs]
  unfold Dev.take
  simp only [e1, e2, e3, h1, h3, Bool.not_true, Bool.false_eq_true, if_false, if_true]
  rw [show (p.arrived s).duplicate (p.ctx s).ticket = none from h2]
  show (if (decide (p.src = Src.host) && !(p.entered s).replyRoom p.op) = true then _
    else (p.entered s).execute (p.ctx s) p.need h) = _
  rw [hr]
  simp only [Bool.false_eq_true, if_false]
  exact Dev.execute_passes _ _ _ _ h5 h6

/-- An opcode row that answers: the packet admitted, the handler's reply within the port's limit. -/
theorem Pkt.opcode_answers (p : Pkt) (s : State) (h : Handler) (st : Nat) (data : Bytes) (d' : Dev) (a : p.Admitted s)
    (hh : h (p.ctx s) (p.taken s) = .reply st data d') (hl : data.length ≤ replyLimit p.src) :
    opcode p.op p.t p.src p.hd p.payload p.need h s = .next (p.answered s d' st data) := by
  rw [opcode_eq, p.serve_admitted s h a, hh]
  simp only [if_neg (Nat.not_lt.mpr hl)]
  rfl

/-- An opcode row that parks its packet (R111). -/
theorem Pkt.opcode_parks (p : Pkt) (s : State) (h : Handler) (why : Park) (d' : Dev) (a : p.Admitted s)
    (hh : h (p.ctx s) (p.taken s) = .park why d') :
    opcode p.op p.t p.src p.hd p.payload p.need h s = .next (p.parkedIn s d' why) := by
  rw [opcode_eq, p.serve_admitted s h a, hh]
  rfl

/-- An opcode row that answers and may program fuses. -/
theorem Pkt.liftFuse_answers (p : Pkt) (s : State) (h : Handler) (st : Nat) (data : Bytes) (d' : Dev) (a : p.Admitted s)
    (hh : h (p.ctx s) (p.taken s) = .reply st data d') (hl : data.length ≤ replyLimit p.src) :
    liftFuse s (fun d => d.serve p.op p.t p.src p.hd p.payload p.need h) =
      .next { p.answered s d' st data with fuse := s.fuse.burn (d'.sendReply (p.ticket s) st data) } := by
  rw [liftFuse_eq, p.serve_admitted s h a, hh]
  simp only [if_neg (Nat.not_lt.mpr hl)]
  rfl

/-! ## What taking and answering a packet leave alone -/

/-- The block without what taking or answering a packet may change besides raises. -/
def Dev.quietCore (d : Dev) : Dev := { d.core with sessions := [], parked := [], island := {}, clock := {} }

/-- Two states that differ at most by raises, queued packets, and the bookkeeping of ports and sessions. -/
structure Dev.Served (d e : Dev) : Prop where
  rd : ∀ f i, f.quiet i = true → e.rd f i = d.rd f i
  core : e.quietCore = d.quietCore

/-- What served states share besides quiet fields. -/
theorem Dev.Served.keeps {d e : Dev} (h : d.Served e) :
    e.boot = d.boot ∧ e.upd = d.upd ∧ e.clk = d.clk ∧ e.tpos = d.tpos ∧ e.tcis = d.tcis ∧
    e.laneTimes = d.laneTimes ∧ e.ptp = d.ptp ∧ e.reasm = d.reasm ∧ e.relays = d.relays ∧ e.nextMsg = d.nextMsg ∧
    e.modes = d.modes ∧ e.steps = d.steps ∧ e.cal = d.cal ∧ e.resetAt = d.resetAt ∧
    e.fresh = d.fresh ∧ e.tap = d.tap ∧ e.cells = d.cells ∧ e.sched = d.sched ∧ e.loops = d.loops ∧
    e.engines = d.engines ∧ e.hamper = d.hamper ∧ e.wear = d.wear ∧ e.ledger = d.ledger ∧ e.legs = d.legs ∧
    e.brake = d.brake ∧ e.chans = d.chans ∧ e.group = d.group ∧ e.twin = d.twin ∧ e.derate = d.derate := by
  have c := h.core
  simp only [Dev.quietCore, Dev.core, Dev.mk.injEq] at c
  simp only [c, and_self]

theorem Dev.Near.served {d e : Dev} (h : d.Near e) : d.Served e :=
  ⟨h.rd, by
    have := congrArg (fun x : Dev => ({ x with sessions := [], parked := [], island := {}, clock := {} } : Dev)) h.core
    exact this⟩

theorem Dev.Served.refl (d : Dev) : d.Served d := ⟨fun _ _ _ => rfl, rfl⟩

theorem Dev.Served.trans {a b c : Dev} (h : a.Served b) (k : b.Served c) : a.Served c :=
  ⟨fun f i q => (k.rd f i q).trans (h.rd f i q), k.core.trans h.core⟩

theorem Dev.served_heard (d : Dev) (k : Ticket) : d.Served (d.heard k) := by
  unfold Dev.heard; split
  · exact ⟨fun _ _ _ => rfl, rfl⟩
  · exact .refl d

theorem Dev.served_spend (d : Dev) (k : Ticket) : d.Served (d.spend k) := ⟨fun _ _ _ => rfl, rfl⟩

theorem Dev.served_enter (d : Dev) (c : Ctx) : d.Served (d.enter c) :=
  ((Dev.served_spend d c.ticket).trans (Dev.served_heard _ c.ticket)).trans (Dev.near_acqLatch _ _ _).served

/-- The block as the handler finds it differs from the block at the packet's instant by the bookkeeping of the packet. -/
theorem Pkt.served_taken (p : Pkt) (s : State) : (p.arrived s).Served (p.taken s) :=
  (Dev.served_enter (p.arrived s) (p.ctx s)).trans ⟨fun _ _ _ => rfl, rfl⟩

theorem Dev.regs_acqLatch (d : Dev) (a : Nat) (hit : Nat → Option Nat) : (d.acqLatch a hit).regs = d.regs := by
  unfold Dev.acqLatch; split <;> rfl

theorem Dev.regs_enter (d : Dev) (c : Ctx) : (d.enter c).regs = d.regs := by
  unfold Dev.enter
  rw [Dev.regs_acqLatch]
  unfold Dev.heard
  split <;> rfl

theorem Pkt.regs_taken (p : Pkt) (s : State) : (p.taken s).regs = (p.arrived s).regs := Dev.regs_enter _ _

/-- The block as the handler finds it has the registers of the block at the packet's instant. -/
theorem Pkt.rd_taken (p : Pkt) (s : State) (f : Fld) (i : Nat) : (p.taken s).rd f i = (p.arrived s).rd f i :=
  Dev.rd_congr (p.regs_taken s) f i

theorem Dev.served_netSendTag (d : Dev) (mac : Nat) (tag : Option Nat) (b : NetBody) : d.Served (d.netSendTag mac tag b) := by
  unfold Dev.netSendTag; split
  · exact ⟨fun _ _ _ => rfl, rfl⟩
  · exact .refl d

theorem Dev.served_deliver (d : Dev) (k : Ticket) (b : Bytes) : d.Served (d.deliver k b) := by
  unfold Dev.deliver
  split
  · exact ((Dev.near_putPacket d 0 b (by decide)).trans (Dev.near_raise _ 1 0 (by decide))).served
  · exact Dev.served_netSendTag ..
  · exact (Dev.Near.foldl _ _ d fun d x => Dev.near_queueFrame d _ x).served
  · exact (Dev.near_putPacket d 1 b (by decide)).served

/-- What a reply may change (R97): the sender's window and kept replies, its queue or frames, event source 0x01. -/
theorem Dev.served_sendReply (d : Dev) (k : Ticket) (st : Nat) (data : Bytes) : d.Served (d.sendReply k st data) := by
  unfold Dev.sendReply
  extract_lets w w1 d1 p x1 d2
  have h1 : d.Served d1 := ⟨fun _ _ _ => rfl, rfl⟩
  have h2 : d1.Served d2 := by
    show d1.Served (if _ then _ else _)
    split
    · exact ⟨fun _ _ _ => rfl, rfl⟩
    · exact .refl _
  exact h1.trans (h2.trans (Dev.served_deliver d2 k p))

theorem Dev.rd_sendReply (d : Dev) (k : Ticket) (st : Nat) (data : Bytes) (f : Fld) (i : Nat) (q : f.quiet i = true) :
    (d.sendReply k st data).rd f i = d.rd f i := (Dev.served_sendReply d k st data).rd f i q

end Sys2Proof.Machine
end

