-- ==== Sys2Proof/Laws/Mem.lean ====
section
/-!
SUPPORT. Laws/Mem.lean: the canonical form of the memories, which every write of a page or of a window word keeps, and reading a
page or a word after a write.
-/
namespace Sys2Proof.Machine

/-- Inserting a written word and marking it written commute. -/
theorem tins_map_some {α : Type} (t : List (Nat × α)) (k : Nat) (v : α) :
    (tins t k v).map (fun e => (e.1, some e.2)) = tins (t.map fun e => (e.1, some e.2)) k (some v) := by
  induction t with
  | nil => rfl
  | cons p t ih =>
    simp only [tins, List.map_cons]
    split
    · rfl
    · split
      · rfl
      · simp only [List.map_cons, ih]

/-- Rewriting words that are listed keeps the keys, and so the form. -/
theorem twfFrom_map_some {α : Type} [DecidableEq α] (f : Nat × α → Nat × α) (hf : ∀ e, (f e).1 = e.1)
    (t : List (Nat × α)) (a : Nat) (w : twfFrom (fun _ => none) a (t.map fun e => (e.1, some e.2)) = true) :
    twfFrom (fun _ => none) a ((t.map f).map fun e => (e.1, some e.2)) = true := by
  induction t generalizing a with
  | nil => rfl
  | cons p t ih =>
    simp only [List.map_cons, twfFrom, Bool.and_eq_true, decide_eq_true_eq] at *
    rw [hf]
    exact ⟨⟨w.1.1, by simp⟩, ih _ w.2⟩

/-- Deleting keys one after the other keeps the form. -/
theorem twf_foldl_tdel {α : Type} [DecidableEq α] (dflt : Nat → α) (ks : List Nat) (t : List (Nat × α))
    (w : twf dflt t = true) : twf dflt (ks.foldl tdel t) = true := by
  induction ks generalizing t with
  | nil => exact w
  | cons k ks ih => exact ih _ (twfFrom_tdel dflt t k 0 w)

/-- The form at reset: nothing is listed. -/
theorem reset_memory_wf : Memory.wf State.reset.dev.mem = true := rfl

theorem Memory.wf_iff (m : Mem) : Memory.wf m = true ↔
    twf (fun _ => ({} : Page)) m.pages = true ∧ twf (fun _ => none) (m.window.map fun e => (e.1, some e.2)) = true := by
  simp only [Memory.wf, Bool.and_eq_true]

/-- Storing a page keeps the form. -/
theorem Dev.putPage_wf (d : Dev) (p : Nat) (x : Page) (w : Memory.wf d.mem = true) :
    Memory.wf (d.putPage p x).mem = true := by
  rw [Memory.wf_iff] at *
  exact ⟨twf_tset _ _ _ _ w.1, w.2⟩

/-- Writing a page keeps the form. -/
theorem Dev.writePage_wf (d : Dev) (p tag : Nat) (b : Bytes) (w : Memory.wf d.mem = true) :
    Memory.wf (d.writePage p tag b).mem = true := by
  rw [Memory.wf_iff] at *
  exact ⟨twf_tset _ _ _ _ w.1, w.2⟩

/-- Writing a word of the window keeps the form. -/
theorem Dev.setWindow_wf (d : Dev) (n : Nat) (v : BitVec 64) (c : Byte) (w : Memory.wf d.mem = true) :
    Memory.wf (d.setWindow_ n v c).mem = true := by
  rw [Memory.wf_iff] at *
  refine ⟨w.1, ?_⟩
  show twf _ ((tins d.mem.window n (v, c)).map fun e => (e.1, some e.2)) = true
  rw [tins_map_some]
  exact twfFrom_tins _ _ _ _ _ (by simp) (Nat.zero_le _) w.2

/-- The end of the ECC tests keeps the form. -/
theorem Dev.endTests_wf (d : Dev) (w : Memory.wf d.mem = true) : Memory.wf d.endTests.mem = true := by
  rw [Memory.wf_iff] at *
  unfold Dev.endTests
  dsimp only
  split
  · exact w
  · exact ⟨twf_foldl_tdel _ _ _ w.1,
      twfFrom_map_some (fun e => if d.mem.tests.contains (sramTest e.1) then (e.1, 0, Config.secded 0) else e)
        (fun e => by split <;> rfl) d.mem.window 0 w.2⟩

/-- A word of the window reads as written, and every other as before. -/
theorem Dev.windowWord_setWindow (d : Dev) (n k : Nat) (v : BitVec 64) (c : Byte) :
    (d.setWindow_ n v c).windowWord k = if k = n then (v, c) else d.windowWord k := by
  exact tget_tins _ d.mem.window n (v, c) k

end Sys2Proof.Machine
end

