-- ==== Sys2Proof/Laws/PerInstr.lean ====
section
/-!
SUPPORT. Laws/PerInstr.lean: the family Wire, one lemma per command: a command whose operands are not bounded beyond their types is
well formed whatever they are.
-/
namespace Sys2Proof.Laws.Wire
open Sys2Proof

/-- The commands with an operand that its type bounds too little: flash blocks, fuse repairs, datagrams, PTP times. -/
def bounded : Instr → Bool
  | .fuseReadDone .. => true
  | .kindleHeaderRead .. => true
  | .kindleBlockRead .. => true
  | .dramTrainingDone .. => true
  | .badInstruction .. => true
  | .commandDatagram .. => true
  | .icmpEcho .. => true
  | .ptpMessage .. => true
  | _ => false

/-- What the family says of a command. -/
def Statement (i : Instr) : Prop := bounded i = false → i.wf = true

theorem sparkStart (t : Nat) (refSel : Bool) : Statement (.sparkStart t refSel) := fun _ => rfl
theorem deviceReset (t : Nat) (cause : ResetCause) : Statement (.deviceReset t cause) := fun _ => rfl
theorem supplyOutOfRange (t : Nat) (rail : RailCross) : Statement (.supplyOutOfRange t rail) := fun _ => rfl
theorem fuseReadDone (t : Nat) (outcome : Option (FuseRead × Bool)) :
    Statement (.fuseReadDone t outcome) := fun h => Bool.noConfusion h
theorem sparkPllTimeout (t : Nat) : Statement (.sparkPllTimeout t) := fun _ => rfl
theorem pllLocked (t : Nat) (found : LockFound) : Statement (.pllLocked t found) := fun _ => rfl
theorem bandTableLockTimeout (t : Nat) : Statement (.bandTableLockTimeout t) := fun _ => rfl
theorem rampEnd (t : Nat) : Statement (.rampEnd t) := fun _ => rfl
theorem sramInitDone (t : Nat) : Statement (.sramInitDone t) := fun _ => rfl
theorem kindleHeaderRead (t : Nat) (slotB : Bool) (block : List Byte) :
    Statement (.kindleHeaderRead t slotB block) := fun h => Bool.noConfusion h
theorem kindleBlockRead (t : Nat) (block : List Byte) : Statement (.kindleBlockRead t block) := fun h => Bool.noConfusion h
theorem signatureVerified (t : Nat) (key signature : Unit) : Statement (.signatureVerified t key signature) := fun _ => rfl
theorem dramTrainingDone (t : Nat) (passed : Bool) (ranks : Fin 4) (mib : Nat) :
    Statement (.dramTrainingDone t passed ranks mib) := fun h => Bool.noConfusion h
theorem light (t : Nat) (image : Unit) : Statement (.light t image) := fun _ => rfl
theorem refRecoveredClockMissing (t : Nat) : Statement (.refRecoveredClockMissing t) := fun _ => rfl
theorem refFrequencyWindow (t : Nat) (ppmOff : Int) : Statement (.refFrequencyWindow t ppmOff) := fun _ => rfl
theorem refRestore (t : Nat) : Statement (.refRestore t) := fun _ => rfl
theorem localRefLost (ref : LocalRef) : Statement (.localRefLost ref) := fun _ => rfl
theorem pllLockLost (t : Nat) : Statement (.pllLockLost t) := fun _ => rfl
theorem lockNotRegained (t : Nat) : Statement (.lockNotRegained t) := fun _ => rfl
theorem clockMonitorCheck (t : Nat) (bad : BitVec 12) : Statement (.clockMonitorCheck t bad) := fun _ => rfl
theorem dieTemperatureUpdate (t : Nat) (t0 t1 t2 t3 : BitVec 16) : Statement (.dieTemperatureUpdate t t0 t1 t2 t3) := fun _ => rfl
theorem controlCycleBoundary (t : Nat) : Statement (.controlCycleBoundary t) := fun _ => rfl
theorem edgeExpansion (t : Nat) : Statement (.edgeExpansion t) := fun _ => rfl
theorem stepWaitExpiry (t : Nat) : Statement (.stepWaitExpiry t) := fun _ => rfl
theorem prechargeTimeout (t : Nat) : Statement (.prechargeTimeout t) := fun _ => rfl
theorem rideThroughExceeded (t : Nat) : Statement (.rideThroughExceeded t) := fun _ => rfl
theorem rideThroughRecovered (t : Nat) : Statement (.rideThroughRecovered t) := fun _ => rfl
theorem cellSamplesLost (t : Nat) (slot : Fin 96) : Statement (.cellSamplesLost t slot) := fun _ => rfl
theorem bypassUnconfirmed (t : Nat) (slot : Fin 96) : Statement (.bypassUnconfirmed t slot) := fun _ => rfl
theorem reinsertRampEnd (t : Nat) (slot : Fin 96) : Statement (.reinsertRampEnd t slot) := fun _ => rfl
theorem fastPathTrigger (t : Nat) (slot : Fin 256) : Statement (.fastPathTrigger t slot) := fun _ => rfl
theorem faultClassify (t : Nat) (extra : List ExtraRaise) : Statement (.faultClassify t extra) := fun _ => rfl
theorem writePacket (t : Nat) (bytes : List Byte) : Statement (.writePacket t bytes) := fun _ => rfl
theorem readReply (t : Nat) (complete : Bool) : Statement (.readReply t complete) := fun _ => rfl
theorem readStatus (t : Nat) : Statement (.readStatus t) := fun _ => rfl
theorem badInstruction (t : Nat) (code : Byte) : Statement (.badInstruction t code) := fun h => Bool.noConfusion h
theorem commandDatagram (t : Nat) (dst src : NetEnd) (dstPort srcPort : BitVec 16) (fragment : Bool) (tag : Option (BitVec 16)) (bytes : List Byte) :
    Statement (.commandDatagram t dst src dstPort srcPort fragment tag bytes) := fun h => Bool.noConfusion h
theorem ping (t : Nat) (src : Src) (h : Hdr) : Statement (.ping t src h) := fun _ => rfl
theorem getCaps (t : Nat) (src : Src) (h : Hdr) : Statement (.getCaps t src h) := fun _ => rfl
theorem getIdentity (t : Nat) (src : Src) (h : Hdr) : Statement (.getIdentity t src h) := fun _ => rfl
theorem openSession (t : Nat) (src : Src) (h : Hdr) (authority : Byte) :
    Statement (.openSession t src h authority) := fun _ => rfl
theorem closeSession (t : Nat) (src : Src) (h : Hdr) : Statement (.closeSession t src h) := fun _ => rfl
theorem listSessions (t : Nat) (src : Src) (h : Hdr) : Statement (.listSessions t src h) := fun _ => rfl
theorem stageWords (t : Nat) (src : Src) (h : Hdr) (so first : BitVec 16) (values : List Word) :
    Statement (.stageWords t src h so first values) := fun _ => rfl
theorem stageFields (t : Nat) (src : Src) (h : Hdr) (entries : List (BitVec 16 × BitVec 16 × Word × Word)) :
    Statement (.stageFields t src h entries) := fun _ => rfl
theorem stageModeReq (t : Nat) (src : Src) (h : Hdr) (mode : Byte) : Statement (.stageModeReq t src h mode) := fun _ => rfl
theorem unstage (t : Nat) (src : Src) (h : Hdr) (so first count : BitVec 16) :
    Statement (.unstage t src h so first count) := fun _ => rfl
theorem check (t : Nat) (src : Src) (h : Hdr) : Statement (.check t src h) := fun _ => rfl
theorem commitNow (t : Nat) (src : Src) (h : Hdr) : Statement (.commitNow t src h) := fun _ => rfl
theorem commitAt (t : Nat) (src : Src) (h : Hdr) (kind : Byte) (instant : BitVec 80) :
    Statement (.commitAt t src h kind instant) := fun _ => rfl
theorem disarm (t : Nat) (src : Src) (h : Hdr) : Statement (.disarm t src h) := fun _ => rfl
theorem discard (t : Nat) (src : Src) (h : Hdr) : Statement (.discard t src h) := fun _ => rfl
theorem readWords (t : Nat) (src : Src) (h : Hdr) (so first count : BitVec 16) :
    Statement (.readWords t src h so first count) := fun _ => rfl
theorem readStaged (t : Nat) (src : Src) (h : Hdr) (so first count : BitVec 16) :
    Statement (.readStaged t src h so first count) := fun _ => rfl
theorem readBasketIndex (t : Nat) (src : Src) (h : Hdr) (first : BitVec 16) :
    Statement (.readBasketIndex t src h first) := fun _ => rfl
theorem readDirectory (t : Nat) (src : Src) (h : Hdr) (first : BitVec 16) :
    Statement (.readDirectory t src h first) := fun _ => rfl
theorem writeLive (t : Nat) (src : Src) (h : Hdr) (so first : BitVec 16) (values : List Word) :
    Statement (.writeLive t src h so first values) := fun _ => rfl
theorem reqMode (t : Nat) (src : Src) (h : Hdr) (mode : Byte) : Statement (.reqMode t src h mode) := fun _ => rfl
theorem getMode (t : Nat) (src : Src) (h : Hdr) : Statement (.getMode t src h) := fun _ => rfl
theorem stepRun (t : Nat) (src : Src) (h : Hdr) (first : Byte) : Statement (.stepRun t src h first) := fun _ => rfl
theorem stepContinue (t : Nat) (src : Src) (h : Hdr) : Statement (.stepContinue t src h) := fun _ => rfl
theorem stepAbort (t : Nat) (src : Src) (h : Hdr) : Statement (.stepAbort t src h) := fun _ => rfl
theorem tuneWord (t : Nat) (src : Src) (h : Hdr) (slot word : BitVec 16) (value : Word) :
    Statement (.tuneWord t src h slot word value) := fun _ => rfl
theorem tuneWords (t : Nat) (src : Src) (h : Hdr) (entries : List (BitVec 16 × BitVec 16 × Word)) :
    Statement (.tuneWords t src h entries) := fun _ => rfl
theorem tuneRead (t : Nat) (src : Src) (h : Hdr) (slot : BitVec 16) : Statement (.tuneRead t src h slot) := fun _ => rfl
theorem calRead (t : Nat) (src : Src) (h : Hdr) (offset length : BitVec 16) :
    Statement (.calRead t src h offset length) := fun _ => rfl
theorem calWrite (t : Nat) (src : Src) (h : Hdr) (page : BitVec 16) (bytes : List Byte) :
    Statement (.calWrite t src h page bytes) := fun _ => rfl
theorem calWriteDone (t : Nat) (verified : Bool) : Statement (.calWriteDone t verified) := fun _ => rfl
theorem calWear (t : Nat) (src : Src) (h : Hdr) : Statement (.calWear t src h) := fun _ => rfl
theorem getTime (t : Nat) (src : Src) (h : Hdr) : Statement (.getTime t src h) := fun _ => rfl
theorem setTpo (t : Nat) (src : Src) (h : Hdr) (index mode : Byte) (start period : BitVec 64) :
    Statement (.setTpo t src h index mode start period) := fun _ => rfl
theorem readTci (t : Nat) (src : Src) (h : Hdr) (index : Byte) : Statement (.readTci t src h index) := fun _ => rfl
theorem ptpStatus (t : Nat) (src : Src) (h : Hdr) : Statement (.ptpStatus t src h) := fun _ => rfl
theorem readFaults (t : Nat) (src : Src) (h : Hdr) : Statement (.readFaults t src h) := fun _ => rfl
theorem readHistory (t : Nat) (src : Src) (h : Hdr) (first count : Byte) :
    Statement (.readHistory t src h first count) := fun _ => rfl
theorem ackFault (t : Nat) (src : Src) (h : Hdr) (mask : Word) : Statement (.ackFault t src h mask) := fun _ => rfl
theorem clearFault (t : Nat) (src : Src) (h : Hdr) (mask : Word) : Statement (.clearFault t src h mask) := fun _ => rfl
theorem readEventRoute (t : Nat) (src : Src) (h : Hdr) (first count : Byte) :
    Statement (.readEventRoute t src h first count) := fun _ => rfl
theorem eventSubscribe (t : Nat) (src : Src) (h : Hdr) (mask : BitVec 256) :
    Statement (.eventSubscribe t src h mask) := fun _ => rfl
theorem twinStatus (t : Nat) (src : Src) (h : Hdr) : Statement (.twinStatus t src h) := fun _ => rfl
theorem twinSelftest (t : Nat) (src : Src) (h : Hdr) : Statement (.twinSelftest t src h) := fun _ => rfl
theorem pilotReport (t : Nat) (src : Src) (h : Hdr) : Statement (.pilotReport t src h) := fun _ => rfl
theorem markUnfit (t : Nat) (src : Src) (h : Hdr) : Statement (.markUnfit t src h) := fun _ => rfl
theorem laneStatus (t : Nat) (src : Src) (h : Hdr) (first count : Byte) :
    Statement (.laneStatus t src h first count) := fun _ => rfl
theorem laneLoopback (t : Nat) (src : Src) (h : Hdr) (lane kind : Byte) :
    Statement (.laneLoopback t src h lane kind) := fun _ => rfl
theorem unitStatus (t : Nat) (src : Src) (h : Hdr) (first count : Byte) :
    Statement (.unitStatus t src h first count) := fun _ => rfl
theorem unitBypass (t : Nat) (src : Src) (h : Hdr) (slot : Byte) : Statement (.unitBypass t src h slot) := fun _ => rfl
theorem unitReinsert (t : Nat) (src : Src) (h : Hdr) (slot : Byte) : Statement (.unitReinsert t src h slot) := fun _ => rfl
theorem manageForward (t : Nat) (src : Src) (h : Hdr) (node : BitVec 16) (slot : Byte) (inner : List Byte) :
    Statement (.manageForward t src h node slot inner) := fun _ => rfl
theorem manageForwardTimeout (t : Nat) (msgId : BitVec 16) : Statement (.manageForwardTimeout t msgId) := fun _ => rfl
theorem laneRetrain (t : Nat) (src : Src) (h : Hdr) (lane : Byte) : Statement (.laneRetrain t src h lane) := fun _ => rfl
theorem memStatus (t : Nat) (src : Src) (h : Hdr) : Statement (.memStatus t src h) := fun _ => rfl
theorem memRead (t : Nat) (src : Src) (h : Hdr) (address : BitVec 64) (length : BitVec 16) :
    Statement (.memRead t src h address length) := fun _ => rfl
theorem memWrite (t : Nat) (src : Src) (h : Hdr) (address : BitVec 64) (bytes : List Byte) :
    Statement (.memWrite t src h address bytes) := fun _ => rfl
theorem eccTestWrite (t : Nat) (src : Src) (h : Hdr) (address checkBits : BitVec 64) (bytes : List Byte) :
    Statement (.eccTestWrite t src h address checkBits bytes) := fun _ => rfl
theorem acqArm (t : Nat) (src : Src) (h : Hdr) : Statement (.acqArm t src h) := fun _ => rfl
theorem acqStop (t : Nat) (src : Src) (h : Hdr) : Statement (.acqStop t src h) := fun _ => rfl
theorem acqStatus (t : Nat) (src : Src) (h : Hdr) : Statement (.acqStatus t src h) := fun _ => rfl
theorem acqRead (t : Nat) (src : Src) (h : Hdr) (segment offset : Word) (length : BitVec 16) :
    Statement (.acqRead t src h segment offset length) := fun _ => rfl
theorem histRead (t : Nat) (src : Src) (h : Hdr) (unit : Byte) (first count : BitVec 16) :
    Statement (.histRead t src h unit first count) := fun _ => rfl
theorem afterglowRead (t : Nat) (src : Src) (h : Hdr) (map : Byte) (first rows : BitVec 16) :
    Statement (.afterglowRead t src h map first rows) := fun _ => rfl
theorem queueStatus (t : Nat) (src : Src) (h : Hdr) (first count : Byte) :
    Statement (.queueStatus t src h first count) := fun _ => rfl
theorem queueRead (t : Nat) (src : Src) (h : Hdr) (queue : Byte) (maximum : BitVec 16) :
    Statement (.queueRead t src h queue maximum) := fun _ => rfl
theorem safeStatus (t : Nat) (src : Src) (h : Hdr) : Statement (.safeStatus t src h) := fun _ => rfl
theorem safeTest (t : Nat) (src : Src) (h : Hdr) (switch : Byte) : Statement (.safeTest t src h switch) := fun _ => rfl
theorem safeAck (t : Nat) (src : Src) (h : Hdr) : Statement (.safeAck t src h) := fun _ => rfl
theorem breakerClose (t : Nat) (src : Src) (h : Hdr) : Statement (.breakerClose t src h) := fun _ => rfl
theorem breakerTrip (t : Nat) (src : Src) (h : Hdr) : Statement (.breakerTrip t src h) := fun _ => rfl
theorem reset (t : Nat) (src : Src) (h : Hdr) (kind : Byte) : Statement (.reset t src h kind) := fun _ => rfl
theorem resetDelayExpiry (t : Nat) : Statement (.resetDelayExpiry t) := fun _ => rfl
theorem imageBegin (t : Nat) (src : Src) (h : Hdr) (length : BitVec 16) : Statement (.imageBegin t src h length) := fun _ => rfl
theorem imageEraseDone (t : Nat) (ok : Bool) : Statement (.imageEraseDone t ok) := fun _ => rfl
theorem imageWrite (t : Nat) (src : Src) (h : Hdr) (first : BitVec 16) (blocks : List Byte) :
    Statement (.imageWrite t src h first blocks) := fun _ => rfl
theorem imageFinish (t : Nat) (src : Src) (h : Hdr) (block0 : List Byte) : Statement (.imageFinish t src h block0) := fun _ => rfl
theorem imageStatus (t : Nat) (src : Src) (h : Hdr) : Statement (.imageStatus t src h) := fun _ => rfl
theorem fuseKeyHash (t : Nat) (src : Src) (h : Hdr) (hash : List Byte) : Statement (.fuseKeyHash t src h hash) := fun _ => rfl
theorem fuseSignedBoot (t : Nat) (src : Src) (h : Hdr) : Statement (.fuseSignedBoot t src h) := fun _ => rfl
theorem netSessionTimeout (t : Nat) (session : Fin 16) : Statement (.netSessionTimeout t session) := fun _ => rfl
theorem arpRefresh (t : Nat) (entry : Fin 8) : Statement (.arpRefresh t entry) := fun _ => rfl
theorem arpFrame (t : Nat) (request : Bool) (src dst : NetEnd) (tag : Option (BitVec 16)) :
    Statement (.arpFrame t request src dst tag) := fun _ => rfl
theorem icmpEcho (t : Nat) (src dst : NetEnd) (tag : Option (BitVec 16)) (bytes : List Byte) :
    Statement (.icmpEcho t src dst tag bytes) := fun h => Bool.noConfusion h
theorem ptpMessage (t : Nat) (m : PtpMsg) : Statement (.ptpMessage t m) := fun h => Bool.noConfusion h
theorem ptpMessageInterval (t : Nat) (kind : PtpKind) : Statement (.ptpMessageInterval t kind) := fun _ => rfl
theorem ptpAnnounceTimeout (t : Nat) : Statement (.ptpAnnounceTimeout t) := fun _ => rfl
theorem timeSyncInterval (t : Nat) : Statement (.timeSyncInterval t) := fun _ => rfl
theorem timeSourceLost (t : Nat) : Statement (.timeSourceLost t) := fun _ => rfl
theorem tpoFiring (t : Nat) (output : Fin 8) : Statement (.tpoFiring t output) := fun _ => rfl
theorem tpoPulseEnd (t : Nat) (output : Fin 8) : Statement (.tpoPulseEnd t output) := fun _ => rfl
theorem tciEdge (t : Nat) (input : Fin 4) (rising : Bool) : Statement (.tciEdge t input rising) := fun _ => rfl
theorem setNet (t : Nat) (src : Src) (h : Hdr) (lo hi : Word) : Statement (.setNet t src h lo hi) := fun _ => rfl
theorem acceptNext (t : Nat) (src : Src) (h : Hdr) (value : Word) : Statement (.acceptNext t src h value) := fun _ => rfl
theorem laneSignalDetect (t : Nat) (lane : Fin 55) : Statement (.laneSignalDetect t lane) := fun _ => rfl
theorem laneBlockLock (t : Nat) (lane : Fin 55) : Statement (.laneBlockLock t lane) := fun _ => rfl
theorem laneLockLost (t : Nat) (lane : Fin 55) : Statement (.laneLockLost t lane) := fun _ => rfl
theorem rehuntTimeout (t : Nat) (lane : Fin 55) : Statement (.rehuntTimeout t lane) := fun _ => rfl
theorem train (t : Nat) (lane : Fin 55) (phase caps rate role port count : Byte) :
    Statement (.train t lane phase caps rate role port count) := fun _ => rfl
theorem laneQuietEnd (t : Nat) (lane : Fin 55) : Statement (.laneQuietEnd t lane) := fun _ => rfl
theorem laneVerifyPassed (t : Nat) (lane : Fin 55) : Statement (.laneVerifyPassed t lane) := fun _ => rfl
theorem laneAttemptTimeout (t : Nat) (lane : Fin 55) : Statement (.laneAttemptTimeout t lane) := fun _ => rfl
theorem laneFailedHoldEnd (t : Nat) (lane : Fin 55) : Statement (.laneFailedHoldEnd t lane) := fun _ => rfl
theorem laneIdleTimeout (t : Nat) (lane : Fin 55) : Statement (.laneIdleTimeout t lane) := fun _ => rfl
theorem wake (t : Nat) (lane : Fin 55) : Statement (.wake t lane) := fun _ => rfl
theorem laneWakeTimeout (t : Nat) (lane : Fin 55) : Statement (.laneWakeTimeout t lane) := fun _ => rfl
theorem laneFrameTransmit (t : Nat) (lane : Fin 55) : Statement (.laneFrameTransmit t lane) := fun _ => rfl
theorem ack (t : Nat) (lane : Fin 55) (seq : Byte) : Statement (.ack t lane seq) := fun _ => rfl
theorem nak (t : Nat) (lane : Fin 55) (seq : Byte) : Statement (.nak t lane seq) := fun _ => rfl
theorem replayTimeout (t : Nat) (lane : Fin 55) : Statement (.replayTimeout t lane) := fun _ => rfl
theorem douse (t : Nat) (lane : Fin 55) (index level epoch : Byte) (node : BitVec 16) :
    Statement (.douse t lane index level epoch node) := fun _ => rfl
theorem unitCommand (t : Nat) (lane : Fin 55) (f : RxFrame) : Statement (.unitCommand t lane f) := fun _ => rfl
theorem sample (t : Nat) (lane : Fin 55) (f : RxFrame) : Statement (.sample t lane f) := fun _ => rfl
theorem unitState (t : Nat) (lane : Fin 55) (f : RxFrame) : Statement (.unitState t lane f) := fun _ => rfl
theorem wick (t : Nat) (lane : Fin 55) (f : RxFrame) : Statement (.wick t lane f) := fun _ => rfl
theorem timeSync (t : Nat) (lane : Fin 55) (f : RxFrame) : Statement (.timeSync t lane f) := fun _ => rfl
theorem timeResp (t : Nat) (lane : Fin 55) (f : RxFrame) : Statement (.timeResp t lane f) := fun _ => rfl
theorem manageReq (t : Nat) (lane : Fin 55) (f : RxFrame) : Statement (.manageReq t lane f) := fun _ => rfl
theorem manageResp (t : Nat) (lane : Fin 55) (f : RxFrame) : Statement (.manageResp t lane f) := fun _ => rfl
theorem manageReassemblyTimeout (t : Nat) (srcNode msgId : BitVec 16) :
    Statement (.manageReassemblyTimeout t srcNode msgId) := fun _ => rfl
theorem health (t : Nat) (lane : Fin 55) (f : RxFrame) : Statement (.health t lane f) := fun _ => rfl
theorem stateCopy (t : Nat) (lane : Fin 55) (f : RxFrame) : Statement (.stateCopy t lane f) := fun _ => rfl
theorem digest (t : Nat) (lane : Fin 55) (f : RxFrame) : Statement (.digest t lane f) := fun _ => rfl
theorem telemetry (t : Nat) (lane : Fin 55) (f : RxFrame) : Statement (.telemetry t lane f) := fun _ => rfl
theorem event (t : Nat) (lane : Fin 55) (f : RxFrame) : Statement (.event t lane f) := fun _ => rfl
theorem pilotReplay (t : Nat) : Statement (.pilotReplay t) := fun _ => rfl
theorem selftestDone (t : Nat) (passed : Bool) : Statement (.selftestDone t passed) := fun _ => rfl
theorem flameSelftestTimeout (t : Nat) : Statement (.flameSelftestTimeout t) := fun _ => rfl
theorem testSlice (t : Nat) (passed : Bool) : Statement (.testSlice t passed) := fun _ => rfl
theorem pilotReportSend (t : Nat) : Statement (.pilotReportSend t) := fun _ => rfl
theorem standbyLoopbackTest (t : Nat) (failed : BitVec 55) : Statement (.standbyLoopbackTest t failed) := fun _ => rfl
theorem twinLinkLost (t : Nat) : Statement (.twinLinkLost t) := fun _ => rfl
theorem leaseExpiry (t : Nat) : Statement (.leaseExpiry t) := fun _ => rfl
theorem mailboxWrite (t : Nat) (src : Src) (h : Hdr) (words : List Word) : Statement (.mailboxWrite t src h words) := fun _ => rfl
theorem childReportTimeout (t : Nat) (port : Fin 4) : Statement (.childReportTimeout t port) := fun _ => rfl
theorem childReturnRampEnd (t : Nat) (port : Fin 4) : Statement (.childReturnRampEnd t port) := fun _ => rfl
theorem parentLost (t : Nat) : Statement (.parentLost t) := fun _ => rfl
theorem uHoldExpiry (t : Nat) : Statement (.uHoldExpiry t) := fun _ => rfl
theorem legZeroEvent (t : Nat) (leg : Fin 12) : Statement (.legZeroEvent t leg) := fun _ => rfl
theorem legCompareAction (t : Nat) (leg : Fin 12) (b : Bool) : Statement (.legCompareAction t leg b) := fun _ => rfl
theorem legDeadTimeEnd (t : Nat) (leg : Fin 12) : Statement (.legDeadTimeEnd t leg) := fun _ => rfl
theorem legPrimeEnd (t : Nat) (leg : Fin 12) : Statement (.legPrimeEnd t leg) := fun _ => rfl
theorem legBlankEnd (t : Nat) (leg : Fin 12) : Statement (.legBlankEnd t leg) := fun _ => rfl
theorem legCurrentCut (t : Nat) (leg : Fin 12) (active : Bool) : Statement (.legCurrentCut t leg active) := fun _ => rfl
theorem legShortCircuit (t : Nat) (leg : Fin 12) (dsat : Bool) (active : Bool) :
    Statement (.legShortCircuit t leg dsat active) := fun _ => rfl
theorem legTrippedClear (t : Nat) (src : Src) (h : Hdr) (leg : Fin 12) : Statement (.legTrippedClear t src h leg) := fun _ => rfl
theorem legCompareWrite (t : Nat) (src : Src) (h : Hdr) (leg : Fin 12) (cmpA cmpB : BitVec 16) :
    Statement (.legCompareWrite t src h leg cmpA cmpB) := fun _ => rfl
theorem legForce (t : Nat) (src : Src) (h : Hdr) (leg : Fin 12) (en gh gl : Bool) :
    Statement (.legForce t src h leg en gh gl) := fun _ => rfl
theorem pumpDelayExpiry (t : Nat) (leg : Fin 12) : Statement (.pumpDelayExpiry t leg) := fun _ => rfl
theorem dcovBrakeCrossing (t : Nat) (input : Fin 2) (above : Bool) : Statement (.dcovBrakeCrossing t input above) := fun _ => rfl
theorem brkMinOnExpiry (t : Nat) : Statement (.brkMinOnExpiry t) := fun _ => rfl
theorem dcLinkOverVoltage (t : Nat) (input : Fin 2) (active : Bool) :
    Statement (.dcLinkOverVoltage t input active) := fun _ => rfl
theorem brakeHeatTick (t : Nat) (on : Unit) : Statement (.brakeHeatTick t on) := fun _ => rfl
theorem channelOutput (t : Nat) (chan : Fin 32) (bits : List Bool) : Statement (.channelOutput t chan bits) := fun _ => rfl
theorem channelOverCurrent (t : Nat) (chan : Fin 32) (bits : List Bool) :
    Statement (.channelOverCurrent t chan bits) := fun _ => rfl
theorem modulatorStreamLost (t : Nat) (chan : Fin 32) : Statement (.modulatorStreamLost t chan) := fun _ => rfl
theorem modulatorStreamResumed (t : Nat) (chan : Fin 32) : Statement (.modulatorStreamResumed t chan) := fun _ => rfl
theorem tallowCheckpointDue (t : Nat) : Statement (.tallowCheckpointDue t) := fun _ => rfl
theorem ckptNow (t : Nat) (src : Src) (h : Hdr) (value : Word) : Statement (.ckptNow t src h value) := fun _ => rfl
theorem tallowCheckpointDone (t : Nat) (ok : Bool) : Statement (.tallowCheckpointDone t ok) := fun _ => rfl
theorem tallowCheckpointRetry (t : Nat) : Statement (.tallowCheckpointRetry t) := fun _ => rfl
theorem ledgerRestoreDone (t : Nat) (sector : Option (Fin 16)) (bytes : List Byte) :
    Statement (.ledgerRestoreDone t sector bytes) := fun _ => rfl
theorem ledgerClr (t : Nat) (src : Src) (h : Hdr) (value : Word) : Statement (.ledgerClr t src h value) := fun _ => rfl
theorem guardChange (t : Nat) (a b : Bool) : Statement (.guardChange t a b) := fun _ => rfl
theorem guardDiscrepancy (t : Nat) : Statement (.guardDiscrepancy t) := fun _ => rfl
theorem guardHoldExpiry (t : Nat) : Statement (.guardHoldExpiry t) := fun _ => rfl
theorem safeRstRelease (t : Nat) (pressTicks : Nat) : Statement (.safeRstRelease t pressTicks) := fun _ => rfl
theorem resetInputStuck (t : Nat) : Statement (.resetInputStuck t) := fun _ => rfl
theorem watchdogExpiry (t : Nat) : Statement (.watchdogExpiry t) := fun _ => rfl
theorem watchdogReset (t : Nat) : Statement (.watchdogReset t) := fun _ => rfl
theorem bkrAuxChange (t : Nat) (closed : Bool) : Statement (.bkrAuxChange t closed) := fun _ => rfl
theorem tripRelease (t : Nat) (atMax : Bool) : Statement (.tripRelease t atMax) := fun _ => rfl
theorem tripRepeat (t : Nat) : Statement (.tripRepeat t) := fun _ => rfl
theorem closePulseEnd (t : Nat) : Statement (.closePulseEnd t) := fun _ => rfl
theorem switchFeedbackMismatch (t : Nat) (switch : Fin 4) : Statement (.switchFeedbackMismatch t switch) := fun _ => rfl
theorem switchTestStep (t : Nat) (senseOn senseOffInTime : Bool) :
    Statement (.switchTestStep t senseOn senseOffInTime) := fun _ => rfl
theorem periodicSwitchTest (t : Nat) : Statement (.periodicSwitchTest t) := fun _ => rfl
theorem lvcClose (t : Nat) (src : Src) (h : Hdr) (value : Word) : Statement (.lvcClose t src h value) := fun _ => rfl
theorem contactorMismatch (t : Nat) (contactor : Fin 4) : Statement (.contactorMismatch t contactor) := fun _ => rfl
theorem evcArm (t : Nat) (src : Src) (h : Hdr) (value : Word) : Statement (.evcArm t src h value) := fun _ => rfl
theorem clkEn (t : Nat) (src : Src) (h : Hdr) (output : Fin 12) (value : Word) :
    Statement (.clkEn t src h output value) := fun _ => rfl
theorem sramScrubStep (t : Nat) (bank : Fin 96) (word : Fin 16384) (outcome : EccOutcome) (overwritten passDone : Bool) :
    Statement (.sramScrubStep t bank word outcome overwritten passDone) := fun _ => rfl
theorem dramScrubStep (t : Nat) (page : Fin 8388608) (outcome : EccOutcome) (overwritten passDone : Bool) :
    Statement (.dramScrubStep t page outcome overwritten passDone) := fun _ => rfl
theorem dramScrubWake (t : Nat) : Statement (.dramScrubWake t) := fun _ => rfl
theorem dramSelfRefresh (t : Nat) : Statement (.dramSelfRefresh t) := fun _ => rfl
theorem queueHeadRefill (t : Nat) (queue : Fin 64) (outcome : EccOutcome) :
    Statement (.queueHeadRefill t queue outcome) := fun _ => rfl
theorem telemetryDatagramTimeout (t : Nat) : Statement (.telemetryDatagramTimeout t) := fun _ => rfl
theorem acqSample (t : Nat) : Statement (.acqSample t) := fun _ => rfl
theorem acqRearmDone (t : Nat) : Statement (.acqRearmDone t) := fun _ => rfl
theorem acqSegmentDrained (t : Nat) : Statement (.acqSegmentDrained t) := fun _ => rfl
theorem acqClear (t : Nat) (src : Src) (h : Hdr) (value : Word) : Statement (.acqClear t src h value) := fun _ => rfl
theorem acqClearDone (t : Nat) : Statement (.acqClearDone t) := fun _ => rfl
theorem frameDiscarded (t : Nat) (lane : Fin 55) (why : Discard) : Statement (.frameDiscarded t lane why) := fun _ => rfl
theorem invalidBlock (t : Nat) (lane : Fin 55) (why : BadBlock) : Statement (.invalidBlock t lane why) := fun _ => rfl
theorem imageProgramDone (t : Nat) (ok : Bool) : Statement (.imageProgramDone t ok) := fun _ => rfl
theorem lvcFbChange (t : Nat) (contactor : Fin 4) (level : Bool) : Statement (.lvcFbChange t contactor level) := fun _ => rfl
theorem acTestInstruction (t : Nat) (instruction : AcTest) : Statement (.acTestInstruction t instruction) := fun _ => rfl
theorem netLinkChange (t : Nat) (speedMbps : Nat) (fullDuplex : Bool) :
    Statement (.netLinkChange t speedMbps fullDuplex) := fun _ => rfl

end Sys2Proof.Laws.Wire
end

