-- ==== Sys2Proof/Tests/Slice0.lean ====
section
/-!
SUPPORT. Tests/Slice0.lean: the model's own tests. For every statement with hypotheses a witness: concrete states and operands,
at the ends of their ranges, that meet the hypotheses of each of its clauses. Then the spec's worked examples, and one ill-formed
term for each check of Instr.wf.
-/
namespace Sys2Proof.Tests
open Sys2Proof Sys2Proof.Machine
set_option Elab.async false

/-! ## Helpers -/

/-- Write fields, each with a value and an index. -/
def setAll (d : Dev) (ws : List (Fld × Nat × Nat)) : Dev := ws.foldl (fun d x => d.wr x.1 x.2.1 x.2.2) d

def upDev : Dev :=
  setAll { boot := { stage := .light }, sessions := [(1, { isOpen := true, auth := 3 })], ports := { linkUp := true } }
    [(F.clkLocked, 1, 0), (F.sysMode, 3, 0), (F.stgGen, 1, 0), (F.sysCellLanes, 48, 0), (F.sysCellSlots, 96, 0),
     (F.sysDownPorts, 4, 0), (F.sysTwinPresent, 1, 0), (F.sysAcqLevel, 2, 0), (F.sysLoopSlots, 256, 0), (F.memDramOk, 1, 0),
     (F.memDramMib, 64, 0), (F.memDataPages, 61680, 0)]

/-- A state at Light in HELD, with every unit present, changed at some fields and in what stands behind them. -/
def st (ws : List (Fld × Nat × Nat) := []) (f : Dev → Dev := id) : State := { dev := f (setAll upDev ws) }

def hd1 : Hdr := { flags := 4, tag := 7, auth := 3, session := 1, time := 0 }

def pk (op : Nat) (pl : Bytes := []) (need : OpNeed := {}) : Pkt := { op := op, t := 0, src := .host, hd := hd1, payload := pl, need := need }

/-- The block after a command that answers a next state. -/
def outDev (o : Host.Outcome State Fault Refusal) : Dev := match o with | .next s => s.dev | _ => {}

/-- Whether a command answers a next state. -/
def outNext (o : Host.Outcome State Fault Refusal) : Bool := match o with | .next _ => true | _ => false

/-- The device of `st` at the instant of an event. -/
def dv (ws : List (Fld × Nat × Nat) := []) (f : Dev → Dev := id) : Dev := (st ws f).dev.advance 0

/-- The device at an instant. -/
def at_ (now : Nat) (d : Dev) : Dev := { d with clock := { d.clock with now := now } }

/-- The state of `st` in a mode. -/
def inMode (m : Mode) (ws : List (Fld × Nat × Nat) := []) (f : Dev → Dev := id) : State := st ((F.sysMode, modeCode m, 0) :: ws) f

/-! ## Witnesses of the statements' hypotheses -/

theorem wit_FixedReadsAnswer : ∀ op ∈ [0x00, 0x01, 0x02, 0x05, 0x41, 0x62, 0x80, 0xB0, 0xE0], (pk op).Admitted (st) := by
  unfold Pkt.Admitted; decide +kernel

theorem wit_SessionsOpenCloseSubscribe :
    (pk 3 [3, 0, 0, 0]).Admitted (st) ∧ hd1.session.toNat ≠ 0 ∧ (3 : Byte).toNat ≤ 3
      ∧ ((pk 3 [3, 0, 0, 0]).taken (st)).boundElsewhere .host 1 = false ∧ (pk 4).Admitted (st) ∧ (pk 0x85 (le 32 5)).Admitted (st) := by
  unfold Pkt.Admitted; decide +kernel

theorem wit_StagingReachesTheBasket :
    let free (p : Pkt) (bits : List (Nat × (Word × Word))) : Prop := p.Admitted st
      ∧ passes ((p.taken st).stageRefusals (p.ctx st) (bits.map fun x => (x.1 / 65536, x.1 % 65536)))
      ∧ (bits.foldl stageOne (p.taken st).basket.words).length ≤ 131072
    let words : Pkt := pk 0x10 (rangeParams 0x0400 0 1 ++ wordsBytes [1]) (stageNeed (stageWordsBits 0x0400 0 [1]))
    let fields : Pkt := pk 0x11 (le 2 0x0400 ++ le 2 0 ++ wordBytes 1 ++ wordBytes 1) (stageNeed (stageFieldsBits [(0x0400, 0, 1, 1)]))
    let mode : Pkt := pk 0x12 [15, 0, 0, 0] { auth := authP }
    let un : Pkt := pk 0x14 (rangeParams 0x0400 0 1) (unstageNeed 0x0400 0 1)
    free words (stageWordsBits 0x0400 0 [1]) ∧ passes ((words.taken st).stageWordsRefusals 0x0400 0 [1])
      ∧ free fields (stageFieldsBits [(0x0400, 0, 1, 1)]) ∧ passes ((fields.taken st).stageFieldsRefusals [(0x0400, 0, 1, 1)])
      ∧ free mode [(wordKey 0x0101 0, (15, 15))]
      ∧ un.Admitted st ∧ rangeExists 0x0400 0 1 (un.taken st) = none
      ∧ passes ((un.taken st).stageRefusals (un.ctx st) [(0x0400, 0)]) := by
  unfold Pkt.Admitted passes; decide +kernel

/-- A state whose Basket holds one word that passes CHECK. -/
def oneWord : State :=
  { dev := { setAll { boot := { stage := .light }, sessions := [(1, { isOpen := true, auth := 3 })] }
      [(F.clkLocked, 1, 0), (F.sysMode, 3, 0), (F.stgGen, 1, 0), (F.stgOwner, 1, 0)] with
      basket := { words := [(F.stgPrechargeMax.key 0, (1, 1))] } } }

/-- What a CHECK that passes leaves. -/
theorem runCheck_passes (d : Dev) (a : Nat) (h : d.ckReport a = []) :
    (d.runCheck a).rd F.stgCkPass = 1 ∧ (d.runCheck a).now = d.now ∧ (d.runCheck a).cycle = d.cycle
      ∧ (d.runCheck a).origin = d.origin ∧ (d.runCheck a).preloadEnd ≤ d.now + 1000000 + 124 * d.stagedCount := by
  unfold Dev.runCheck
  simp only [h, List.isEmpty_nil, if_true]
  refine ⟨?_, by simp only [Dev.now, Dev.wr_frame], ?_, ?_, ?_⟩
  · simp (disch := decide) only [Dev.rd_wr_same, Dev.rd_wr_apart]; rfl
  · unfold Dev.cycle; simp (disch := decide) only [Dev.rd_wr_apart]; rfl
  · unfold Dev.origin Dev.rd64; simp (disch := decide) only [Dev.rd_wr_apart]; rfl
  · unfold Dev.preloadEnd Dev.checkTicks Dev.preloadTicks Dev.stagedCount
    simp only [Dev.now, Dev.wr_frame]
    omega

theorem wit_CommitsAreArmedAndCancelled :
    let p (op : Nat) (pl : Bytes := []) : Pkt := pk op pl { auth := authC }
    let x : Dev := (p 0x22).taken oneWord
    let armed : State := { dev := oneWord.dev.wr F.stgArmed 1 }
    let at_ := p 0x24 ([1, 0] ++ le 10 10000000)
    let k := x.runCheck (x.judgeAuth 1)
    (p 0x20).Admitted oneWord ∧ (p 0x22).Admitted oneWord ∧ passes (x.commitRefusals ((p 0x22).ctx oneWord)) ∧ k.rd F.stgCkPass ≠ 0
      ∧ at_.Admitted oneWord ∧ at_.taken oneWord = x ∧ passes ((at_.taken oneWord).commitRefusals (at_.ctx oneWord))
      ∧ k.now ≤ k.commitInstant 1 10000000 ∧ k.boundaryCeil (k.commitInstant 1 10000000) ≤ k.now + 36000000000000
      ∧ k.preloadEnd < k.boundaryCeil (k.commitInstant 1 10000000)
      ∧ (p 0x26).Admitted armed ∧ ((p 0x26).taken armed).rd F.stgOwner = 1 ∧ ((p 0x26).taken armed).on F.stgArmed = true
      ∧ (p 0x27).Admitted armed ∧ ((p 0x27).taken armed).rd F.stgOwner = 1 := by
  intro p x armed at_ k
  have c : x.ckReport (x.judgeAuth 1) = [] := by decide +kernel
  obtain ⟨c1, c2, c3, c4, c5⟩ := runCheck_passes x (x.judgeAuth 1) c
  have i : k.commitInstant 1 10000000 = 10000000 := rfl
  have n : x.now = 0 ∧ x.cycle = 10000000 ∧ x.origin = 0 ∧ x.stagedCount = 1 := by decide +kernel
  have b : k.boundaryCeil 10000000 = 10000000 := by
    unfold Dev.boundaryCeil; show (if _ ≤ k.origin then _ else if k.cycle = 0 then _ else _) = _
    rw [show k.origin = 0 from c4.trans n.2.2.1, show k.cycle = 10000000 from c3.trans n.2.1]; rfl
  have h : (p 0x20).Admitted oneWord ∧ (p 0x22).Admitted oneWord ∧ passes (x.commitRefusals ((p 0x22).ctx oneWord))
      ∧ at_.Admitted oneWord ∧ at_.taken oneWord = x ∧ passes ((at_.taken oneWord).commitRefusals (at_.ctx oneWord))
      ∧ (p 0x26).Admitted armed ∧ ((p 0x26).taken armed).rd F.stgOwner = 1 ∧ ((p 0x26).taken armed).on F.stgArmed = true
      ∧ (p 0x27).Admitted armed ∧ ((p 0x27).taken armed).rd F.stgOwner = 1 := by
    unfold Pkt.Admitted passes; decide +kernel
  rw [i, b]
  refine ⟨h.1, h.2.1, h.2.2.1, by rw [show k.rd F.stgCkPass = 1 from c1]; decide, h.2.2.2.1, h.2.2.2.2.1, h.2.2.2.2.2.1, ?_, ?_, ?_,
    h.2.2.2.2.2.2⟩
  · rw [show k.now = 0 from c2.trans n.1]; decide
  · rw [show k.now = 0 from c2.trans n.1]; decide
  · have : k.preloadEnd ≤ 0 + 1000000 + 124 * 1 := by have := c5; rw [n.1, n.2.2.2] at this; exact this
    omega

theorem wit_RangeReadsAnswer :
    let r (so first count : BitVec 16) : Pkt := pk 0x30 (rangeParams so first count) (readNeed so count)
    let ps : List Pkt := [r 0x0600 39 1, r 0x0700 0 26, pk 0x32 (rangeParams 0x0002 0 1) (readStagedNeed 1), pk 0x33 [255, 255, 0, 0],
      pk 0x34 (zeros 4), pk 0x52 [255, 0, 0, 0], pk 0x60 (le 2 0 ++ le 2 4080) (calReadNeed 4080),
      pk 0x60 (le 2 16383 ++ le 2 1) (calReadNeed 1), pk 0x81 [31, 1, 0, 0], pk 0x84 [255, 1, 0, 0], pk 0xA0 [54, 1, 0, 0]]
    (∀ p ∈ ps, p.Admitted st)
      ∧ (∀ x ∈ [(0x0600, 39, 1), (0x0700, 0, 26), (0x0002, 0, 1)], st.dev.allAbsent x.1 x.2.1 x.2.2 = none
        ∧ rangeExists x.1 x.2.1 x.2.2 st.dev = none)
      ∧ 255 < ((pk 0x52 [255, 0, 0, 0]).taken st).loopSlots ∧ ((pk 0xA0 [54, 1, 0, 0]).taken st).lanePresent 54 = true := by
  unfold Pkt.Admitted; decide +kernel

theorem wit_UnitReadsAnswer :
    let glow : Pkt := pk 0xC5 ([1, 0] ++ le 2 255 ++ le 2 1 ++ zeros 2) (glowNeed 1)
    let hist : Pkt := pk 0xC4 ([3, 0] ++ le 2 4095 ++ le 2 1 ++ zeros 2) (histNeed 1)
    let tw := (pk 0x92).taken st
    (∀ op ∈ [0x70, 0x90, 0x92, 0xC2, 0x73, 0xF4], (pk op).Admitted st)
      ∧ (pk 0x72 [3, 0, 0, 0]).Admitted st ∧ 8 * (((pk 0x72 [3, 0, 0, 0]).taken st).tci 3).length ≤ replyLimit .host
      ∧ ((pk 0x90).taken st).hasTwin = true ∧ tw.hasTwin = true
      ∧ (if tw.rd F.twinRole = 1 then tw.twin.report else tw.twin.ownReport).length ≤ replyLimit .host
      ∧ ((pk 0xC2).taken st).acqLevel ≠ 0 ∧ hist.Admitted st ∧ (hist.taken st).acqLevel ≠ 0
      ∧ glow.Admitted st ∧ 2 ≤ (glow.taken st).acqLevel ∧ (pk 0xD0 [63, 1, 0, 0]).Admitted st
      ∧ (pk 0xA2 [127, 1, 0, 0]).Admitted st ∧ ((pk 0xA2 [127, 1, 0, 0]).taken st).slotPresent 127 = true := by
  unfold Pkt.Admitted; decide +kernel

/-- A live write in session 1. -/
def livePk (so first : BitVec 16) (ws : List Word) : Pkt :=
  pk 0x38 (rangeParams so first (BitVec.ofNat 16 ws.length) ++ wordsBytes ws) (liveNeed so first ws)

theorem wit_LiveWritesActAndReadBack :
    (∀ w ∈ ([(0x0302, 4, [0xFFFFFFFF, 1]), (0x0303, 2, [1]), (0x0D10, 0, [1, 0, 0, 0]), (0x0802, 11, [0x02000000]), (0x0910, 1, [1]),
        (0x0910, 2, [0x8000005F]), (0x1002, 0, [15]), (0x1305, 0, [0xCF0])] : List (BitVec 16 × BitVec 16 × List Word)),
      (livePk w.1 w.2.1 w.2.2).Admitted st
        ∧ passes (((livePk w.1 w.2.1 w.2.2).taken st).liveRefusals ((livePk w.1 w.2.1 w.2.2).ctx st) w.1 w.2.1 w.2.2))
    ∧ (∀ x ∈ ([(st [(F.legSrc, 1, 11)], 0x0801, 34, 0xFFFFFFFF), (inMode .service, 0x0802, 11, 7),
        (st [(F.stgOwner, 1, 0)], 0x0F04, 0, 0x02000000), (inMode .service, 0x0084, 9, 0)]
        : List (State × BitVec 16 × BitVec 16 × Word)),
      (livePk x.2.1 x.2.2.1 [x.2.2.2]).Admitted x.1
        ∧ passes (((livePk x.2.1 x.2.2.1 [x.2.2.2]).taken x.1).liveRefusals ((livePk x.2.1 x.2.2.1 [x.2.2.2]).ctx x.1) x.2.1 x.2.2.1
          [x.2.2.2])) := by
  unfold Pkt.Admitted passes; decide +kernel

theorem wit_TuningChangesTheSlot :
    let p (op : Nat) : Pkt := pk op (le 2 255 ++ le 2 38 ++ wordBytes 1) { auth := authC }
    (p 0x50).Admitted st ∧ passes (((p 0x50).taken st).tuneRefusals [(255, 38, 1)])
      ∧ (p 0x51).Admitted st ∧ passes (((p 0x51).taken st).tuneRefusals [(255, 38, 1)]) := by
  unfold Pkt.Admitted passes; decide +kernel

theorem wit_ModeRequestsAndSteps :
    let p (op need : Nat) (pl : Bytes := []) : Pkt := pk op pl { auth := need }
    let r : Pkt := pk 0x40 [3, 0, 0, 0] (reqModeNeed 3)
    let f := p 0x42 authM [127, 0, 0, 0]
    r.Admitted st ∧ modeOf 3 = some .held ∧ (r.taken st).mode = .held
      ∧ r.Admitted (inMode .service) ∧ .held ≠ (r.taken (inMode .service)).mode
      ∧ (r.taken (inMode .service)).judgeRequest .held = .inl .held
      ∧ f.Admitted (inMode .calibrate) ∧ (f.taken (inMode .calibrate)).mode = .calibrate
      ∧ (f.taken (inMode .calibrate)).stepsActive = false
      ∧ (p 0x43 authM).Admitted (st [(F.stgStepState, 2, 0)]) ∧ ((p 0x43 authM).taken (st [(F.stgStepState, 2, 0)])).rd F.stgStepState = 2
      ∧ (p 0x44 authM).Admitted st := by
  unfold Pkt.Admitted; decide +kernel

theorem wit_FaultsAreAcknowledgedAndCleared :
    let p (op : Nat) : Pkt := pk op (le 4 0xFFFFFFFF) { auth := authP }
    let left (s : State) : Nat := ((classesOf 0xFFFFFFFF).foldl (fun d c => d.clearClass c)
      ((((p 0x83).taken s).classify []).clearTrips 0xFFFFFFFF)).setClasses &&& 0xFFFFFFFF
    let bad := st [(F.fltSet, 1, 0)] fun d => { d with clk := { d.clk with railsLow := 1 }, coll := { d.coll with raises := [{ cls := 0 }] } }
    (p 0x82).Admitted st ∧ (p 0x83).Admitted st ∧ left st = 0 ∧ (p 0x83).Admitted bad ∧ left bad ≠ 0 := by
  unfold Pkt.Admitted; decide +kernel

theorem wit_SafetyOpcodesAct :
    let p (op need : Nat) (host : Bool) : Pkt := pk op [] { auth := need, hostOnly := host }
    let closed : List (Fld × Nat × Nat) := [(F.safeGuardA, 1, 0), (F.safeLvcUsed, 15, 0), (F.safeLvcFb, 15, 0)]
    let snuffed := inMode .snuffed ((F.safeEdgeValid, 1, 0) :: closed)
    let ok := st [(F.safeSwOk, 15, 0)]
    let e3 := (p 0xE3 authP true).taken ok
    (p 0xE1 authM true).Admitted st ∧ ((p 0xE1 authM true).taken st).mode = .held
      ∧ (p 0xE2 authP true).Admitted snuffed ∧ ((p 0xE2 authP true).taken snuffed).mode = .snuffed
      ∧ ((p 0xE2 authP true).taken snuffed).edgeValid = true ∧ ((p 0xE2 authP true).taken snuffed).snuffHolds = 0
      ∧ (p 0xE3 authP true).Admitted ok ∧ e3.mode = .held ∧ e3.rd F.twinRole ≤ 1 ∧ e3.on F.sysGuardPend = false
      ∧ e3.on F.safeTripActive = false ∧ e3.on F.safeTestRun = false ∧ e3.on F.fltSet 28 = false ∧ e3.on F.fltSet 29 = false
      ∧ e3.rd F.safeSwOk = 15 ∧ e3.on F.safeBkrClosed = false ∧ e3.on F.safeCloseActive = false
      ∧ (p 0xE4 authP false).Admitted (inMode .discharge) ∧ ((p 0xE4 authP false).taken (inMode .discharge)).mode.switching = true
      ∧ (p 0xE4 authP false).Admitted st ∧ ((p 0xE4 authP false).taken st).mode.switching = false
      ∧ ((p 0xE4 authP false).taken st).on F.safeTripActive = false := by
  unfold Pkt.Admitted; decide +kernel

theorem wit_ResetFollowsItsReply :
    let p := pk 0xF0 (0 :: zeros 3) { auth := authM, hostOnly := true, confirm := true }
    let at1 (t : Nat) : Dev := (st [] fun d => { at_ t d with resetAt := some 10000000 }).dev.advance 0
    let e : Dev := ({ State.reset.dev with resetAt := some 10000000 }).advance 0
    p.Admitted st ∧ (at1 9999000).resetAt = some 10000000 ∧ (at1 9999000).spent (10000000 - 10000000) 10000000 = true
      ∧ (at1 9998999).timeRuns = true ∧ (at1 9998999).spent (10000000 - 10000000) 10000000 = false
      ∧ e.resetAt = some 10000000 ∧ e.timeRuns = false := by
  unfold Pkt.Admitted; decide +kernel

theorem wit_TwinOpcodesAct :
    let p (op : Nat) : Pkt := pk op [] { auth := authM }
    let flame := st [(F.twinRole, 1, 0)]
    st.dev.hasTwin = true ∧ (p 0x91).Admitted st ∧ (p 0x93).Admitted flame ∧ flame.dev.hasTwin = true ∧ flame.dev.rd F.twinRole = 1
      ∧ (p 0x93).Admitted st ∧ st.dev.rd F.twinRole ≠ 1 ∧ st.dev.rd F.twinRole ≠ 6
      ∧ (p 0x93).Admitted (st [(F.twinRole, 6, 0)]) ∧ (st [(F.twinRole, 6, 0)]).dev.rd F.twinRole = 6 := by
  unfold Pkt.Admitted; decide +kernel

theorem wit_LaneAndUnitOpcodesAct :
    let p (op need : Nat) (pl : Bytes) : Pkt := pk op pl { auth := need }
    let a1 := p 0xA1 authM [54, 3, 0, 0]
    let a6 := p 0xA6 authM [54, 0, 0, 0]
    let a3 := p 0xA3 authP [95, 0, 0, 0]
    let a4 := p 0xA4 authP [95, 0, 0, 0]
    let svc := inMode .service [(F.laneState, 7, 54), (F.laneEn, 1, 54)]
    let cell := st [(F.hmpUPop, 1, 95)]
    let byp := st [(F.hmpUPop, 1, 95), (F.laneState, 7, 47)] fun d =>
      d.setCell 95 { stage := 3, reported := true, health := 2, sampled := true, values := [(0, 0xE66666)] }
    a1.Admitted svc ∧ (a1.taken svc).lanePresent 54 = true ∧ (a1.taken svc).mode = .service ∧ (a1.taken svc).laneUp 54 = true
      ∧ a6.Admitted svc ∧ (a6.taken svc).lanePresent 54 = true ∧ (a6.taken svc).mode = .service ∧ (a6.taken svc).on F.laneEn 54 = true
      ∧ a6.Admitted st ∧ (a6.taken st).mode = .held ∧ (a6.taken st).on F.laneEn 54 = false
      ∧ a3.Admitted cell ∧ (a3.taken cell).populated 95 = true
      ∧ ((a3.taken cell).cell 95).stage = 1 ∧ (a3.taken cell).bypassLeavesFew 95 = false
      ∧ a4.Admitted byp ∧ (a4.taken byp).populated 95 = true
      ∧ (a4.taken byp).reinsertable 95 = true ∧ (a4.taken byp).bypassCaused 95 = false := by
  unfold Pkt.Admitted; decide +kernel

theorem wit_ForwardingSendsAndExpires :
    let p (node : Nat) (slot : Byte) : Pkt := pk 0xA5 (le 2 node ++ [slot, 0] ++ zeros 16) (forwardNeed (zeros 16))
    let s := st [(F.hmpUPop, 1, 95), (F.laneEn, 1, 48), (F.grpNodeAddr, 1, 0)]
    let x : Parked := { ticket := { stamp := 0 }, why := .forward 65535 }
    let due := st [] fun d => { at_ 500000000 d with parked := [x] }
    let e := due.dev.advance 0
    (p 1 95).Admitted s ∧ ((p 1 95).taken s).nodeAddr = 1 ∧ ((p 1 95).taken s).forwardWay 1 95 = some (47, 95, 0xFFFF, 95)
      ∧ (p 2 127).Admitted s ∧ ((p 2 127).taken s).nodeAddr ≠ 2 ∧ ((p 2 127).taken s).forwardWay 2 127 ≠ none
      ∧ (p 2 127).Admitted st ∧ ((p 2 127).taken st).forwardWay 2 127 = none
      ∧ (p 1 96).Admitted s ∧ ((p 1 96).taken s).forwardWay 1 96 = none
      ∧ e.parked.find? (fun y => decide (y.why = .forward 65535)) = some x
      ∧ 500000000 ≤ (e.now % 2 ^ 32 + 2 ^ 32 - x.ticket.stamp) % 2 ^ 32 := by
  unfold Pkt.Admitted; decide +kernel

theorem wit_MemoryOpcodesAct :
    let rd (a n : Nat) : Pkt := pk 0xB1 (le 8 a ++ le 2 n ++ zeros 2) { auth := authM }
    let wr (a : Nat) (bs : Bytes) : Pkt := pk 0xB2 (le 8 a ++ le 2 bs.length ++ zeros 2 ++ bs) { auth := authM }
    let ecc (a : Nat) (bs : Bytes) : Pkt := pk 0xB3 (le 8 a ++ le 8 0 ++ bs) { auth := authM }
    let full := st [] fun d => d.writePage 1 0 (zeros 1024)
    let bad := st [] fun d => (d.writePage 1 0 (zeros 1024)).dramPoison 1 0
    let svc := inMode .service
    let last := 61680 * 1024 - 1
    let d := (rd last 1).taken full
    let w := (wr (61679 * 1024) (zeros 1024)).taken svc
    (rd last 1).Admitted full ∧ passes (d.memRefusals last 1) ∧ (rd (2 ^ 63) 1024).Admitted full
      ∧ passes (((rd (2 ^ 63) 1024).taken full).memRefusals (2 ^ 63) 1024) ∧ sramAddr last = false
      ∧ (∃ data, (d.readPage 1).1 = .clean data) ∧ (d.readPage 0).1 = .unwritten ∧ (bad.dev.readPage 1).1 = .bad 0
      ∧ sramAddr (2 ^ 63) = true
      ∧ (wr (61679 * 1024) (zeros 1024)).Admitted svc ∧ passes (w.memRefusals (61679 * 1024) 1024) ∧ w.mode = .service
      ∧ w.chunksHeld.contains (61679 / 1024) = false ∧ w.inLantern 61679 = false
      ∧ (wr (2 ^ 63 + 4092) (zeros 4)).Admitted svc ∧ passes (((wr (2 ^ 63 + 4092) (zeros 4)).taken svc).memRefusals (2 ^ 63 + 4092) 4)
      ∧ (ecc (2 ^ 63 + 4032) (zeros 64)).Admitted svc ∧ (ecc (61679 * 1024) (zeros 1024)).Admitted svc
      ∧ (ecc (2 ^ 62 + 61679 * 1024) (zeros 64)).Admitted svc ∧ w.hasDram = true ∧ 61679 * 1024 + 1024 ≤ w.rd F.memDataPages * 1024
      ∧ w.mem.tests = [] := by
  refine ⟨?_, ?_, ?_, ?_, ?_, ⟨zeros 1024, ?_⟩, ?_⟩ <;> (try unfold Pkt.Admitted) <;> (try unfold passes) <;> decide +kernel

theorem wit_LanternAndQueueOpcodesAct :
    let arm := st [(F.acqCEn, 1, 0)]
    let seg := st [(F.acqCEn, 1, 0), (F.acqLen, 16, 0), (F.acqStore, 1, 0)] fun d =>
      let d := { d with acq := { d.acq with written := [0] } }
      d.writePage (d.segPage 0 + 1) 0 (zeros 1024)
    let q : State := st [] fun d => d.putPacket 63 [1]
    let rd (offset : Word) : Pkt := pk 0xC3 (wordBytes 0 ++ wordBytes offset ++ le 2 4 ++ zeros 2)
    let qr : Pkt := pk 0xD1 ([63, 0] ++ le 2 1)
    let a := (pk 0xC0 [] { auth := authP }).taken arm
    let r := (rd 0).taken seg
    (pk 0xC0 [] { auth := authP }).Admitted arm ∧ a.acqLevel ≠ 0 ∧ a.acqChannels ≠ [] ∧ a.acq.armed = false
      ∧ (pk 0xC1 [] { auth := authP }).Admitted arm ∧ ((pk 0xC1 [] { auth := authP }).taken arm).acqLevel ≠ 0
      ∧ (rd 0).Admitted seg ∧ (rd 0x80000000).Admitted seg ∧ r.acqLevel ≠ 0 ∧ r.hasDram = true ∧ r.on F.acqStore = true
      ∧ r.acq.written.contains 0 = true ∧ r.acq.drain = [] ∧ r.acq.seg = none ∧ 0 + 4 ≤ 4 * r.acqChannels.length * r.acqLen
      ∧ (∃ data, (r.readPage (r.segPage 0 + 1 + 0 / 1024)).1 = .clean data)
      ∧ qr.Admitted q ∧ (qr.taken q).hostQueue 63 = true
      ∧ ((qr.taken q).takeEntries ((qr.taken q).queue 63).fill 63 (min 1 (replyLimit .host / 64))).1.length ≤ replyLimit .host := by
  refine ⟨?_, ?_, ?_, ?_, ?_, ?_, ?_, ?_, ?_, ?_, ?_, ?_, ?_, ?_, ?_, ⟨zeros 1024, ?_⟩, ?_⟩ <;> (try unfold Pkt.Admitted) <;> decide +kernel

theorem wit_ImageUpdateProceeds :
    let b0 : Bytes := zeros 8 ++ le 4 1 ++ zeros 244
    let f1 : Pkt := pk 0xF1 (le 2 16384 ++ zeros 2) imageNeed
    let f2 : Pkt := pk 0xF2 (le 2 16383 ++ le 2 1 ++ zeros 256) imageNeed
    let f3 : Pkt := pk 0xF3 b0 imageNeed
    let upd (u : ImgUpdate) : State := st [] fun d => { d with upd := u }
    let er := (upd { active := true, length := 2 }).dev.advance 0
    let wr := upd { active := true, length := 16384, erased := 64 }
    let pr (b : Nat) (done : List Nat) : Dev := (upd { active := true, length := 2, written := done, programming := [(b, zeros 256)] }).dev.advance 0
    let fi := upd { active := true, length := 2, erased := 1, written := [1] }
    f1.Admitted st ∧ er.upd.active = true ∧ er.upd.failed = false ∧ er.upd.erased < eraseBlocks er.upd.length
      ∧ f2.Admitted wr ∧ (f2.taken wr).upd.active = true ∧ (f2.taken wr).upd.failed = false
      ∧ (f2.taken wr).upd.finishing = false ∧ 16383 + 1 ≤ (f2.taken wr).upd.length
      ∧ (16383 + 1 - 1) / 256 < (f2.taken wr).upd.erased
      ∧ (pr 1 []).upd.programming = (1, zeros 256) :: [] ∧ (pr 1 []).upd.written.contains 1 = false
      ∧ (pr 1 [1]).upd.programming = (1, zeros 256) :: [] ∧ (pr 1 [1]).upd.written.contains 1 = true
      ∧ (pr 0 []).upd.programming = (0, zeros 256) :: []
      ∧ f3.Admitted fi ∧ (f3.taken fi).upd.active = true ∧ (f3.taken fi).upd.failed = false ∧ (f3.taken fi).upd.complete = true
      ∧ (f3.taken fi).upd.finishing = false ∧ leAt b0 8 4 = ((f3.taken fi).rd F.sysImageSeq + 1) % 2 ^ 32 := by
  unfold Pkt.Admitted; decide +kernel

theorem wit_FusesAreProgrammed :
    let f5 : Pkt := pk 0xF5 (zeros 32) fuseNeed
    let f6 : Pkt := pk 0xF6 [] fuseNeed
    let locked : State := { st [(F.sysKeyLocked, 1, 0)] with fuse := { keyLocked := true, keyHash := List.replicate 8 0 } }
    f5.Admitted st ∧ (f5.taken st).on F.sysKeyLocked = false ∧ st.fuse.keyLocked = false
      ∧ f6.Admitted locked ∧ (f6.taken locked).on F.sysKeyLocked = true ∧ locked.fuse.keyLocked = true := by
  unfold Pkt.Admitted; decide +kernel

/-- A block that ends in its CRC (R50, R355). -/
def sealed (body : Bytes) : Bytes := body ++ le 4 (crc32c body)

theorem wit_CalibrationPagesAreWritten :
    let page := sealed (zeros 252)
    let p : Pkt := pk 0x61 (le 2 63 ++ zeros 2 ++ page) { auth := authM, hostOnly := true, confirm := true }
    let w := dv [] fun d => { d with cal := { d.cal with writing := some (63, page) } }
    p.Admitted st ∧ page.length = 256 ∧ blockGood page = true ∧ reservedBad 63 page = false ∧ (p.taken st).mode = .held
      ∧ (p.taken st).cal.writing = none ∧ (p.taken st).calCount 63 < 10000 ∧ w.cal.writing = some (63, page) := by
  unfold Pkt.Admitted; decide +kernel

theorem wit_SparkRunsInOrder :
    let at_ (x : BootStage) (ws : List (Fld × Nat × Nat) := []) : Dev := (setAll { boot := { stage := x } } ws).advance 0
    let r : FuseRead := { variant := .aqv9648, uid := 0, key := none, repairUsed := false, spares := [(8, 2)] }
    (at_ .waiting).boot.stage = .waiting ∧ (State.reset.fuse.merge r).part = some r ∧ (at_ .sparkFuses).boot.stage = .sparkFuses
      ∧ (at_ .sparkPll).boot.stage = .sparkPll ∧ (at_ .sparkRamp [(F.clkRamping, 1, 0)]).boot.stage = .sparkRamp
      ∧ (at_ .sparkRamp [(F.clkRamping, 1, 0)]).on F.clkRamping = true ∧ (at_ .sparkSram).boot.stage = .sparkSram := by
  decide +kernel

theorem wit_ResetsKeepWhatOutlivesThem :
    let d := dv [] fun d => { at_ 1000000000 d with island := { d.island with watchdogLate := true } }
    d.island.watchdogLate = true ∧ d.islandSpent d.island.lateAt 100000 = true := by decide +kernel

/-- Block 0 of a slot: a header of R51 with its CRC. -/
def header (seq : Nat) : Bytes :=
  sealed ([0x46, 0x49, 0x4C, 0x55] ++ le 2 1 ++ le 2 0 ++ le 4 seq ++ le 2 3 ++ [0, 0, 0, 1] ++ le 2 0
    ++ [2, 0] ++ le 2 1 ++ le 2 1 ++ le 2 252 ++ zeros 224)

theorem wit_KindleJudgesTheSlots :
    let kin (b : Boot) (ws : List (Fld × Nat × Nat) := []) : Dev :=
      ((st ws fun d => { d with boot := { b with stage := .kindle } }).dev).advance 0
    let h : ImgHdr := { seq := 1, length := 3, dir := [{ typ := 2, first := 1, count := 1, lastLen := 252 }] }
    let one := kin { headersRead := 1, hdrA := some h }
    let try_ : Boot := { headersRead := 2, hdrB := some h, trying := some true, next := 1 }
    let sig (last : Bytes) : Boot := { try_ with next := 3, sigWait := true, blocks := [(2, last)] }
    let hash := sha256 (zeros 32)
    let keys := (List.range 8).map fun i => (F.sysKeyHash, leAt hash (4 * i) 4, i)
    let shown (b : Boot) : Bytes := (List.range 8).flatMap fun i => le 4 ((kin b keys).rd F.sysKeyHash i)
    (kin {}).boot.stage = .kindle
      ∧ (kin { rereads := 2 }).boot.headersRead = flag false ∧ blockGood (zeros 256) = false ∧ (kin { rereads := 2 }).boot.rereads < 3
      ∧ blockGood (header 2) = true ∧ parseHeader (header 2) = some { h with seq := 2 }
      ∧ (kin { rereads := 3 }).boot.headersRead = 0 ∧ 3 ≤ (kin { rereads := 3 }).boot.rereads
      ∧ one.boot.headersRead = 1 ∧ one.boot.hdrA = some h ∧ one.rd F.sysSlotACause = 0 ∧ one.rd F.sysSlotBCause = 0
      ∧ (∀ x ∈ [h, { h with seq := 2 }], headerCause (one.rd F.sysFwRelease) (one.on F.sysSignedBoot) x = none)
      ∧ (kin try_).boot.trying = some true ∧ (kin try_).boot.hdr true = some h ∧ (kin try_).boot.accepted = false
      ∧ (kin try_).boot.sigWait = false ∧ (kin try_).boot.next + 1 < h.length ∧ h.length ≤ (kin { try_ with next := 2 }).boot.next + 1
      ∧ (kin { try_ with rereads := 2 }).boot.rereads < 3 ∧ 3 ≤ (kin { try_ with rereads := 3 }).boot.rereads
      ∧ (kin { try_ with next := 2 } [(F.sysSignedBoot, 1, 0)]).on F.sysSignedBoot = true
      ∧ (kin { try_ with next := 2 }).on F.sysSignedBoot = false
      ∧ (kin (sig (zeros 252))).boot.hdr true = some h ∧ (kin (sig (zeros 252))).boot.sigWait = true
      ∧ zeroRange (tget (fun _ => []) (kin (sig (zeros 252))).boot.blocks (h.length - 1)) 96 156 = true
      ∧ zeroRange (tget (fun _ => []) (kin (sig (zeros 251 ++ [1]))).boot.blocks (h.length - 1)) 96 156 = false
      ∧ sha256 ((tget (fun _ => []) (kin (sig (zeros 252)) keys).boot.blocks (h.length - 1)).take 32) = shown (sig (zeros 252))
      ∧ sha256 ((tget (fun _ => []) (kin (sig (1 :: zeros 251)) keys).boot.blocks (h.length - 1)).take 32) ≠ shown (sig (1 :: zeros 251))
      ∧ (kin {}).rd F.sysDramMaxGib ≤ 8 := by decide +kernel

theorem wit_ClocksAreSupervised :
    let clk (c : Clk) (d : Dev) : Dev := { d with clk := c }
    (dv).on F.clkLocked = true ∧ (dv).on F.clkBandMode = false
      ∧ (dv [(F.clkBandMode, 1, 0)]).tableBand = none
      ∧ (dv [(F.clkBandMode, 1, 0), (F.clkBtValid, 1, 0), (F.clkBtTmax, 127, 0)]).tableBand ≠ none
      ∧ (dv [] (clk { relocking := true })).clk.relocking = true ∧ (dv [] (clk { relocking := true })).clk.unlocked5ms = false
      ∧ (dv [] (clk { relocking := true, tableBand := some 3 })).clk.tableBand.isSome = true
      ∧ (dv).boot.stage = .light
      ∧ (dv [(F.clkRefActive, 2, 0)]).rd F.clkRefActive = 2 ∧ (dv [(F.clkRefActive, 2, 0)]).clk.localLost = false
      ∧ (dv [(F.clkRefActive, 2, 0)] (clk { localLost := true })).clk.localLost = true
      ∧ 200 < (-201 : Int).natAbs ∧ (200 : Int).natAbs ≤ 200 ∧ (dv).rd F.clkRefActive ≠ 2
      ∧ (dv [(F.clkRefSrc, 1, 0), (F.laneLocked, 1, 48)] (at_ 10000000000)).on F.clkRefSrc = true
      ∧ (dv [(F.clkRefSrc, 1, 0), (F.laneLocked, 1, 48)] (at_ 10000000000)).on F.laneLocked laneU = true
      ∧ (dv [(F.clkRefSrc, 1, 0), (F.laneLocked, 1, 48)] (at_ 10000000000)).spent 0 ticksSec = true
      ∧ (dv).clk.railsLow.testBit (railCode .vddaPll) = false
      ∧ (dv [] (clk { railsLow := 2 ^ railCode .vddaPll })).clk.railsLow.testBit (railCode .vddaPll) = true := by decide +kernel

theorem wit_BoundariesRunInOrder :
    let run := (inMode .discharge [] fun d => { d with clock := { d.clock with boundary := 1 } }).dev.advance 0
    let due := dv [] fun d => { at_ 10000000 d with clock := { (at_ 10000000 d).clock with boundary := 10000000 } }
    (∃ d : Dev, (d.advance 0).boot.stage = .kindle ∧ (d.advance 0).boot.accepted = true)
      ∧ due.boundaryDue = true ∧ run.boundaryDue = false ∧ run.timeRuns = true ∧ run.mode.switching = true ∧ run.rd F.twinRole ≤ 1
      ∧ run.sched.expanded < run.clock.boundary ∧ (dv).cycle ≠ 0 ∧ (dv).origin ≤ 0 :=
  ⟨⟨{ boot := { stage := .kindle, accepted := true } }, by decide +kernel, by decide +kernel⟩, by decide +kernel⟩

theorem wit_ModesChangeAndTimersAct :
    let due (d : Dev) : Dev := { at_ 20000000 d with clock := { (at_ 20000000 d).clock with boundary := 20000000 } }
    let d (m : Mode) (ws : List (Fld × Nat × Nat)) : Dev := (inMode m ws due).dev.advance 0
    let pre := d .precharge [(F.stgPrechargeMax, 2, 0)]
    let ride := d .rideThrough [(F.stgRtEn, 1, 0), (F.stgRtLow, 0, 0), (F.stgRtMax, 2, 0), (F.stgRtRecover, 1, 0)]
    let step (w k : Nat) : Dev := d .service [(F.stgStepState, 1, 0), (F.stgStepWait, w, 0), (F.stgStepIdx, k, 0), (F.stgStKind, 1, k)]
    pre.mode = .precharge ∧ pre.modes.enteredAt + pre.rd F.stgPrechargeMax * ticksMs ≤ pre.now
      ∧ ride.mode = .rideThrough ∧ ride.on F.stgRtEn = true
      ∧ ride.boundaryCeil (ride.modes.enteredAt + ride.rd F.stgRtMax * ticksMs) ≤ ride.now
      ∧ ride.boundaryDue = true ∧ ride.outsideEnvelope = false ∧ ride.recoveredBy (ride.modes.insideFor + 1) = true
      ∧ ride.rd F.hmpArmFloor = 0 ∧ ride.rd F.hmpArmShort = 0
      ∧ ride.rd F.stgRtRecover * ticksMs ≤ (ride.modes.insideFor + 1) * ride.cycle
      ∧ (step 1 126).rd F.stgStepState = 1 ∧ (step 1 126).rd F.stgStKind ((step 1 126).rd F.stgStepIdx) = 1
      ∧ (step 1 126).rd F.stgStepWait = 1 ∧ (step 1 126).rd F.stgStepIdx < 127 ∧ (step 1 126).steps.startReq = false
      ∧ (step 1 126).boundaryDue = true ∧ (step 1 126).mode = .service ∧ 1 < (step 2 127).rd F.stgStepWait := by decide +kernel

theorem wit_CellAndTriggerEventsAct :
    let held := dv [(F.modCHeld, 4, 95)]
    let byp := dv [] (·.setCell 95 { stage := 2, epochs := 8 })
    let re := dv [(F.modReinsertRamp, 3, 0)] (·.setCell 95 { stage := 4, ramp := 3 })
    let trig := dv [] fun d => { d with engines := { triggers := [(255, 0)] } }
    held.rd F.modCHeld 95 = max 1 (held.rd F.modHoldMax)
      ∧ (byp.cell 95).stage = 2 ∧ 8 ≤ (byp.cell 95).epochs ∧ (byp.cell 95).warned = false
      ∧ (re.cell 95).stage = 4 ∧ re.rd F.modReinsertRamp ≤ (re.cell 95).ramp
      ∧ trig.engines.triggers.find? (fun y => y.1 == 255) = some (255, 0) ∧ trig.rd F.twinRole ≤ 1
      ∧ (dv).engines.triggers.find? (fun y => y.1 == 255) = none := by decide +kernel

theorem wit_CommitsApplyTheBasket :
    let arm (words : List (Nat × (Word × Word))) (f : Dev → Dev) : Dev :=
      f { (st).dev with basket := { armed := some { instant := 5 }, words := words } }
    ((st).dev.basket.armed = none) ∧ (arm [] (at_ 4)).now < 5 ∧ 5 ≤ (arm [] (at_ 5)).now
      ∧ (arm [] fun d => { at_ 5 d with modes := { faultChanged := true } }).modes.faultChanged = true
      ∧ (arm [] (at_ 5)).modes.faultChanged = false ∧ (arm [] (at_ 5)).boundaryFailures = []
      ∧ (arm [(wordKey 0x0101 0, (15, 6))] (at_ 5)).boundaryFailures = (0x0101, 0, 0, 6) :: []
      ∧ (arm [(wordKey 0x0101 0, (15, 6)), (wordKey 0x0101 1, (1, 1))] id).basket.words.Pairwise (fun x y => x.1 ≠ y.1) := by
  decide +kernel

theorem wit_RaisesBecomeEvents :
    let d := dv [(F.fltBase, 3, 31)]
    d.mode = .held ∧ (∀ e, e < 8 → d.causeActive 13 e = false)
      ∧ (raiseLevel (d.on F.fltSet 31) (d.on F.fltAcked 31) (d.rd F.fltLevel 31) (d.rd F.fltBase 31) (d.rd F.fltCeil 31)).1 ≤ 3 := by
  decide +kernel

theorem wit_SafetyIslandEventsAct :
    let d (ws : List (Fld × Nat × Nat)) (i : Island := {}) (m : Mode := .held) : Dev :=
      (inMode m ws fun d => { at_ 36000000000000 d with island := i }).dev.advance 0
    let shut : List (Fld × Nat × Nat) := [(F.safeGuardA, 1, 0)]
    let trip (i : Island := {}) (closed : Nat := 0) : Dev := d [(F.safeTripActive, 1, 0), (F.safeBkrClosed, closed, 0)] i
    (d shut).guardClosed = (true && !false) ∧ (d []).guardClosed = false ∧ (d shut).guardClosed = true
      ∧ (d shut {} .discharge).mode.guardMayOpen = false ∧ (d shut).mode = .held ∧ (d shut).on F.sysGuardPend = false
      ∧ (d []).guardDiscrepant = true ∧ (d []).island.discrepancy = false
      ∧ (d []).islandSpent (d []).island.discFrom (1000 * (d []).rd F.safeDiscMs) = true
      ∧ (d []).islandSpent (d []).island.guardFrom (10000 * (d []).rd F.safeGuardHold) = true
      ∧ (d [] { guardTest := .opening }).island.guardTest = .opening
      ∧ (d [] { guardTest := .closing }).island.guardTest = .closing ∧ (d []).boot.stage = .light ∧ (d []).island.stuckActive = false
      ∧ (d []).island.watchdogLate = false
      ∧ (d [(F.safeBkrClosed, 1, 0)] { tripWait := true }).on F.safeBkrClosed = true
      ∧ (d [(F.safeBkrClosed, 1, 0)] { tripWait := true }).island.tripWait = true
      ∧ (d [(F.safeCloseActive, 1, 0)]).on F.safeBkrClosed = false ∧ (d [(F.safeCloseActive, 1, 0)]).on F.safeCloseActive = true
      ∧ (d [(F.safeCloseActive, 1, 0)]).island.closeSeen = false ∧ (d [(F.safeCloseActive, 1, 0)] { closeSeen := true }).island.closeSeen = true
      ∧ (d []).islandSpent 0 20000 = true ∧ (d []).islandSpent 0 (10000 * (d []).rd F.safeCloseMs) = true
      ∧ (trip).on F.safeTripActive = true ∧ (trip).island.tripSnuffed = false ∧ (trip).island.tripWait = false
      ∧ (d [(F.safeTripActive, 1, 0), (F.safeTripMax, 1, 0)] { tripSnuffed := true }).rd F.safeTripMax ≠ 0 ∧ (trip).islandSpent 0 (1000 * (trip).rd F.safeTripHold) = true
      ∧ (trip).islandSpent 0 (1000 * (if (trip).rd F.safeTripMax = 0 then 1000 else (trip).rd F.safeTripMax)) = true
      ∧ (trip).on F.safeBkrClosed = false ∧ (trip {} 1).on F.safeBkrClosed = true
      ∧ (d [(F.safeBkrClosed, 1, 0)] { tripFailed := true } .snuffed).mode = .snuffed
      ∧ (d [(F.safeBkrClosed, 1, 0)] { tripFailed := true } .snuffed).island.tripFailed = true
      ∧ (d [(F.safeBkrClosed, 1, 0)] { tripFailed := true } .snuffed).on F.safeTripActive = false
      ∧ (d [(F.safeBkrClosed, 1, 0)] { tripFailed := true } .snuffed).islandSpent 0 10000000 = true
      ∧ (d []).on F.safeTestRun = false
      ∧ (d [] { test := .on 2 2 }).island.test = .on 2 2 ∧ (d [] { test := .on 3 4 }).island.test = .on 3 4
      ∧ (d [] { test := .gap 2 3 }).island.test = .gap 2 3 ∧ (d []).islandSpent 0 (10 * (d []).rd F.safeTestUs) = true
      ∧ (d []).islandSpent 0 1000 = true
      ∧ (d [(F.safeTestHours, 1, 0)]).rd F.safeTestHours ≠ 0
      ∧ (d [(F.safeTestHours, 1, 0)]).island.periodFrom + (d [(F.safeTestHours, 1, 0)]).rd F.safeTestHours * 3600 * ticksSec
          ≤ (d [(F.safeTestHours, 1, 0)]).up
      ∧ (d []).rd F.safeLvcFb ||| 8 ≠ (d []).rd F.safeLvcFb
      ∧ (d [(F.safeLvcUsed, 8, 0), (F.safeLvcFb, 0, 0)]).contactorWrong 3 = true ∧ (d []).island.lvcMismatch.testBit 3 = false
      ∧ (d []).islandSpent ((d []).island.lvcAt.getD 3 0) (10000 * (d []).rd F.safeLvcMs) = true := by
  decide +kernel

theorem wit_LegsNeverShootThrough :
    let d := (st).dev
    let both := d.setLeg 11 { ghReq := true, glReq := true }
    d.legMay 11 = false ∧ ((inMode .service [(F.legTripped, 1, 11)]).dev).legKilled 11 = true ∧ both.legRequests 11 = (true, true) := by
  decide +kernel

theorem wit_LegAndBrakeEventsAct :
    let d (ws : List (Fld × Nat × Nat)) (l : Leg := {}) (now : Nat := 10000000) : Dev := dv ws fun d => at_ now (d.setLeg 11 l)
    let per : List (Fld × Nat × Nat) := [(F.legPrd, 100, 11), (F.legCmpa, 100, 11), (F.legCmpb, 99, 11)]
    let run (l : Leg) : Dev := d per { l with counting := true, periods := 1 } 1600
    let pump : List (Fld × Nat × Nat) := [(F.legTpEn, 1, 11), (F.legState, 3, 11), (F.legGh, 1, 11)]
    let same : Leg := { primed := true, aDone := some 1600, bDone := some 1607 }
    ((run {}).leg 11).counting = true ∧ (d per { counting := true }).ctrlDue ((d per { counting := true }).zeroDue 11) = true
      ∧ ((run {}).leg 11).periods ≠ 0 ∧ ((run {}).leg 11).primed = false ∧ ((run { primed := true }).leg 11).primed = true
      ∧ ((run {}).leg 11).aDone = none ∧ ((run {}).leg 11).bDone = none
      ∧ (run {}).rd F.legCmpa 11 ≤ (run {}).rd F.legPrd 11 ∧ (run {}).rd F.legCmpa 11 ≤ (run {}).ctrlSince ((run {}).leg 11).zeroAt
      ∧ (run {}).rd F.legCmpb 11 ≤ (run {}).ctrlSince ((run {}).leg 11).zeroAt
      ∧ ((run { same with aDone := none }).leg 11).bDone = some 1607 ∧ 1607 / 16 = (run same).now / 16
      ∧ ((run { same with bDone := none }).leg 11).aDone = some 1600 ∧ (run same).rd F.legCmpb 11 < (run same).rd F.legCmpa 11
      ∧ ((d [] { dead := some (true, 10000000) }).leg 11).dead = some (true, 10000000) ∧ (d []).ctrlDue 10000000 = true
      ∧ (run {}).on F.legTripped 11 = false
      ∧ (d per { counting := true, periods := 1 }).ctrlDue (((d per { counting := true, periods := 1 }).leg 11).startAt
          + (d per).ctrlTicks ((d per).rd F.legPrime 11)) = true
      ∧ ((d [] { blank := some 10000000 }).leg 11).blank = some 10000000 ∧ (d []).on F.legDsatIn 11 = false ∧ (d []).on F.legCsLimIn 11 = false
      ∧ (d [(F.legDsatIn, 1, 11), (F.legDsatEn, 1, 11)]).on F.legDsatIn 11 = true ∧ (d [(F.legDsatIn, 1, 11), (F.legDsatEn, 1, 11)]).on F.legDsatEn 11 = true
      ∧ (d [(F.legCsLimIn, 1, 11), (F.legCsLim, 254, 11)]).on F.legCsLimIn 11 = true
      ∧ (d [(F.legCsLimIn, 1, 11), (F.legCsLim, 254, 11)]).rd F.legCsLim 11 ≠ 255 ∧ (d []).blanked 11 = false
      ∧ (d [] { blank := some 10000016 }).blanked 11 = true ∧ (d [(F.legDsatEn, 0, 11)]).on F.legDsatEn 11 = false
      ∧ (d [(F.legCsSc, 254, 11)]).rd F.legCsSc 11 ≠ 255
      ∧ (d pump).on F.legTpEn 11 = true ∧ (d pump).rd F.legState 11 = 3 ∧ (d pump).on F.legGh 11 = true
      ∧ ((d pump { ghSince := some 0 }).leg 11).ghSince = some 0 ∧ 0 + 80000 * (d pump).rd F.legTpDly 11 ≤ (d pump).now
      ∧ (d [(F.legBrkOn, 1, 0), (F.legBrkEn, 1, 0)]).brakeFree = true ∧ (d [(F.legBrkOn, 1, 0)]).on F.legBrkOn = true
      ∧ (d [(F.legBrkOn, 1, 0)]).brakeAsked = false ∧ (d []).ctrlDue ((d []).brake.onAt + (d []).ctrlTicks ((d []).rd F.legBrkMinOn)) = true
      ∧ (d [(F.legBrkMinOn, 65535, 0)] {} 0).ctrlDue (0 + (d [] {} 0).ctrlTicks 65535) = false
      ∧ (d [(F.legOv0En, 1, 0)]).on F.legOv0En = true ∧ (d [(F.legOv1En, 1, 0)]).on F.legOv1En = true
      ∧ (d []).ctrlDue ((d []).brake.tickAt + (d []).ctrlTicks 625000) = true := by decide +kernel

theorem wit_ChannelsMeasure :
    let d (ws : List (Fld × Nat × Nat)) (c : Chan := { running := true }) : Dev := dv ws (·.setChan 31 c)
    let osr : List (Fld × Nat × Nat) := [(F.measOsr, 16, 31), (F.measFpEn, 1, 31), (F.measFpOsr, 4, 31), (F.measOcHi, 2 ^ 31, 31), (F.measOcCnt, 2, 31)]
    let live (k : Nat) : Sinc := { integ := [0, 0, 0], diff := [0, 0, 0], toSettle := k }
    let fast (k : Nat) : Sinc := { integ := [0, 0], diff := [0, 0], toSettle := k }
    let e (m f oc : Nat) : Dev := d osr { running := true, main := live m, fast := fast f, ocRun := oc }
    let y (d : Dev) (bits : List Bool) : Int :=
      scaled (normalise (((d.chan 31).fast.window bits).2) (d.rd F.measFpOsr 31 ^ 2)) (d.chanCal 31).1 (d.chanCal 31).2.2 (s32 (d.rd F.measScale 31))
    let in_ := d [(F.measFpEn, 1, 31), (F.measFpOsr, 4, 31)] { running := true, fast := fast 1 }
    ((e 1 1 2).chan 31).running = true ∧ (List.replicate 16 true).length = (e 1 1 2).rd F.measOsr 31 ∧ (e 1 1 2).on F.measHeld 31 = false
      ∧ (((e 3 1 2).chan 31).main.window (List.replicate 16 true)).1.toSettle ≠ 0
      ∧ (((e 1 1 2).chan 31).main.window (List.replicate 16 true)).1.toSettle = 0
      ∧ (d [(F.measHeld, 1, 31)]).on F.measHeld 31 = true ∧ (e 1 1 2).on F.measFpEn 31 = true
      ∧ [true, true, true, true].length = (e 1 1 2).rd F.measFpOsr 31
      ∧ (((e 1 2 2).chan 31).fast.window [true, true, true, true]).1.toSettle ≠ 0
      ∧ (((e 1 1 2).chan 31).fast.window [true, true, true, true]).1.toSettle = 0
      ∧ s32 ((e 1 1 2).rd F.measOcHi 31) < y (e 1 1 2) [true, true, true, true] ∧ ((e 1 1 2).chan 31).ocRun = (e 1 1 2).rd F.measOcCnt 31
      ∧ ((e 1 1 1).chan 31).ocRun ≠ (e 1 1 1).rd F.measOcCnt 31
      ∧ s32 (in_.rd F.measOcLo 31) ≤ y in_ [true, true, true, true] ∧ y in_ [true, true, true, true] ≤ s32 (in_.rd F.measOcHi 31) := by
  decide +kernel

theorem wit_HostPortTransacts :
    let d := dv [] fun d => d.putPacket 0 [1, 2, 3]
    d.portActive .host = true ∧ (zeros 15).length < 16 ∧ (zeros 16).length < 16 + leAt ([0, 0, 0, 0, 1, 0] ++ zeros 10) 4 2
      ∧ 16 + leAt (zeros 17) 4 2 < (zeros 17).length ∧ (d.takePacket 0).isSome = true ∧ (dv).takePacket 0 = none
      ∧ goodInstruction 0xFF = false := by
  decide +kernel

theorem wit_NetworkPortAnswers :
    let net : List (Fld × Nat × Nat) := [(F.cmdNetEn, 1, 0), (F.cmdNetMacLo, 2, 0), (F.cmdNetIp, 0x0A000001, 0), (F.cmdNetMask, 0xFF000000, 0)]
    let d := dv net fun d => { d with ports := { d.ports with arp := [(7, 9, 0)], arpWait := [5] } }
    let late := dv net fun d => { at_ 600000000000 d with ports := { d.ports with arp := List.replicate 8 (7, 9, 0) } }
    let idle := dv [(F.cmdNetIdle, 1, 0)] fun d => at_ 10000000000 (d.setSession 31 { isOpen := true })
    let n (mac : BitVec 48) (dst : BitVec 32) (src : BitVec 32 := 5) : NetHead := { dstMac := mac, srcMac := 6, tag := none, dstIp := dst, srcIp := src }
    d.frameOk (n 3 0x0A000001) false = false ∧ d.frameOk (n 2 0x0A000001) false = true
      ∧ d.portActive (.net (netAddrOf (n 2 0x0A000001) 1)) = true ∧ (n 2 0x0A000001).dstIp.toNat = d.netIp
      ∧ d.notUnicast 0x0AFFFFFF = true ∧ d.notUnicast 0xE0000000 = true ∧ (zeros 17).length ≠ 16 + leAt (zeros 17) 4 2
      ∧ d.frameOk (n 0xFFFFFFFFFFFF 0x0A000001) true = true ∧ d.ports.arpWait.contains 5 = true
      ∧ (d.ports.arp.any fun x => x.1 == 7) = true
      ∧ late.ports.arp[7]? = some (7, 9, 0) ∧ late.netRuns = true ∧ 0 + 60 * ticksSec ≤ late.up
      ∧ (idle.session (16 + 15)).isOpen = true ∧ (idle.session 31).lastAt + idle.rd F.cmdNetIdle * ticksSec ≤ idle.up := by
  decide +kernel

theorem wit_FabricTimeFollowsItsSource :
    let d (h : Nat) := dv [(F.timeSrc, 1, 0), (F.timeHoldover, h, 0)] (at_ 10000000000)
    let x := dv [] fun d => { at_ 1 d with clock := { (at_ 1 d).clock with haveSample := true, lastSampleAt := 0 } }
    (d 0).rd F.timeSrc = 1
      ∧ (d 0).spent (max (d 0).clock.lastSampleAt (d 0).clock.srcFrom) (16 * (d 0).rd F.timeSyncInt * ticksUs) = true
      ∧ (d 0).on F.timeHoldover = false ∧ (d 1).on F.timeHoldover = true
      ∧ x.clock.haveSample = true ∧ x.clock.lastSampleAt < x.up := by decide +kernel

theorem wit_ServoFollowsItsSamples :
    let x := dv [] fun d => { at_ 1 d with clock := { (at_ 1 d).clock with haveSample := true, lastSampleAt := 0 } }
    x.clock.haveSample = true ∧ x.clock.lastSampleAt < x.up := by decide +kernel

theorem wit_PtpPortRuns :
    let m (k : PtpKind) (two : Bool := false) : PtpMsg :=
      { kind := k, domain := 0, seq := 0, source := 1, twoStep := two, seconds := 1, nanos := 999999999, correction := 0, prio1 := 128
        clockClass := 248, accuracy := 0xFE, variance := 0xFFFF, prio2 := 128, grandmaster := 0, stepsRemoved := 254, requester := 0xFFFE0000000001
        rxAt := 0 }
    let d (p : PtpState) (ws : List (Fld × Nat × Nat) := []) (f : Ptp → Ptp := id) : Dev :=
      dv ([(F.timePtpEn, 1, 0), (F.cmdNetEn, 1, 0)] ++ ws) fun d => { at_ 2560000000000000 d with ptp := f { d.ptp with state := p, master := 1 } }
    let s := d .slave
    let p2p := d .slave [(F.timePtpP2p, 1, 0)]
    (dv).ptpRuns = false ∧ (m .sync).domain ≠ (d .slave [(F.timePtpDomain, 1, 0)]).rd F.timePtpDomain
      ∧ (m .sync).domain = s.rd F.timePtpDomain ∧ s.ptpRuns = true ∧ (m .sync).source ≠ s.ptpSelf ∧ s.ptp.state.follows = true
      ∧ (m .sync).source = s.ptp.master ∧ (m .sync true).twoStep = true
      ∧ (d .slave [] fun p => { p with awaitFollow := true }).ptp.awaitFollow = true ∧ (m .followUp).seq = s.ptp.syncSeq
      ∧ (d .master).ptp.state = .master ∧ (d .master).on F.timePtpP2p = false ∧ s.on F.timePtpP2p = false
      ∧ (m .delayResp).requester = s.ptpSelf ∧ (m .delayResp).seq = s.ptp.delaySeq ∧ p2p.on F.timePtpP2p = true
      ∧ (m .pdelayResp).seq = p2p.ptp.pdReqSeq ∧ (m .announce).stepsRemoved < 255 ∧ (d .listening).ptp.masterRank = []
      ∧ (d .master).ptpDue (d .master).ptp.syncAt ((d .master).rd F.timePtpLogSync) = true
      ∧ (d .master).ptpDue (d .master).ptp.annAt ((d .master).rd F.timePtpLogAnn) = true
      ∧ s.ptpDue s.ptp.delayAt (s.rd F.timePtpLogDelay) = true
      ∧ s.spent s.ptp.announceAt (s.rd F.timePtpAnnTo * logTicks (s.rd F.timePtpLogAnn)) = true
      ∧ s.rd F.timeSrc ≠ 3 ∧ (d .slave [(F.timeSrc, 3, 0)]).rd F.timeSrc = 3 := by decide +kernel

theorem wit_PulsesAndCapturesAct :
    let d (ws : List (Fld × Nat × Nat)) (x : Tpo := {}) (c : List Nat := []) : Dev := dv ws fun d => at_ 5 ((d.setTpo 7 x).setTci 3 c)
    let net := st [(F.timeNetValid, 1, 0), (F.timeTpoWidth, 991, 7)] fun d => d.setTpo 7 { level := true }
    let low := st [(F.timeTpoWidth, 991, 7)]
    let p (mode : Byte) (start period : Nat) : Pkt := pk 0x71 ([7, mode, 0, 0] ++ le 8 start ++ le 8 period) { auth := authC }
    let a := p 2 100000 1000
    let b := p 6 1000000 100
    (d [(F.timeTpoMode, 0, 7)]).rd F.timeTpoMode 7 = 0 ∧ (d [] { level := true }).now < (({ next := 6 } : Tpo)).next
      ∧ (d [(F.timeTpoMode, 1, 7)]).rd F.timeTpoMode 7 = 1 ∧ ((d [] { next := 5 }).tpo 7).level = false ∧ ((d [] { next := 5 }).tpo 7).next ≤ (d []).now
      ∧ (d [(F.timeTpoMode, 2, 7)]).rd F.timeTpoMode 7 = 2 ∧ (d [(F.timeTpoMode, 2, 7)]).on F.timeTpoNet 7 = false
      ∧ (d [(F.timeTpoMode, 2, 7), (F.timeTpoNet, 1, 7)]).on F.timeTpoNet 7 = true
      ∧ ((d [] { level := true, endAt := 5 }).tpo 7).level = true ∧ ((d [] { level := true, endAt := 5 }).tpo 7).endAt ≤ (d []).now
      ∧ ((d [] { level := true }).tpo 7).pending = none ∧ ((d [] { level := true, pending := some {} }).tpo 7).pending = some {}
      ∧ ((d [(F.timeTciEdge, 1, 3)]).rd F.timeTciEdge 3).testBit 1 = false ∧ ((d [(F.timeTciEdge, 1, 3)]).rd F.timeTciEdge 3).testBit 0 = true
      ∧ ((d [] {} (List.replicate 15 0)).tci 3).length < 16 ∧ 16 ≤ ((d [] {} (List.replicate 16 0)).tci 3).length
      ∧ 0 < ((d [] { period := 1 }).tpo 7).period ∧ ((d [] { next := 4 }).tpo 7).next < (d []).now
      ∧ a.Admitted low ∧ (a.taken low).rd F.timeTpoWidth 7 + 8 < 1000 ∧ (a.taken low).now + 100000 ≤ 100000 ∧ ((a.taken low).tpo 7).level = false
      ∧ b.Admitted net ∧ (b.taken net).rd F.timeTpoWidth 7 + 8 < 10 * 100 ∧ (b.taken net).on F.timeNetValid = true
      ∧ (b.taken net).now + 100000 ≤ (b.taken net).toFabric 1000000 ∧ ((b.taken net).tpo 7).level = true := by
  unfold Pkt.Admitted; decide +kernel

theorem wit_LanesComeUp :
    let d (ws : List (Fld × Nat × Nat)) (x : Lane := {}) (now : Nat := 0) (l : Nat := 54) : Dev :=
      dv ([(F.laneAttempts, 1, l), (F.laneRate, 0, l), (F.laneRateEn, 31, l)] ++ ws) fun d => at_ now (d.setLane l x)
    let in_ (s : Nat) (x : Lane := {}) (now : Nat := 0) : Dev := d [(F.laneState, s, 54)] x now
    let up := d [(F.laneState, 7, 54), (F.laneLocked, 1, 54)]
    let last := d [(F.laneState, 5, 52)] { ready := true, toSend := 1 } 0 52
    (in_ 1).laneState 54 = 1 ∧ (in_ 2).laneState 54 = 2 ∧ ((in_ 2).lane 54).atNew = false ∧ ((in_ 2 { atNew := true }).lane 54).atNew = true
      ∧ (in_ 9 {} 200000).laneState 54 = 9 ∧ ((in_ 9).lane 54).quiet = false ∧ ((in_ 9).lane 54).fallback = false
      ∧ (in_ 9 {} 200000).up ≤ ((in_ 9).lane 54).rehuntAt + 20 * ticksUs ∧ ((in_ 9).lane 54).rehuntAt + 20 * ticksUs < (in_ 9 {} 200001).up
      ∧ (in_ 9 {} 200000).spent ((in_ 9).lane 54).rehuntAt (20 * ticksUs) = true
      ∧ up.laneUp 54 = true ∧ up.on F.laneLocked 54 = true
      ∧ trainValid 17 1 1 = true ∧ (in_ 3).laneState 54 = 3 ∧ ((in_ 3 { seen := 6 }).lane 54).seen + 1 < 8
      ∧ 7 ≤ ((in_ 3 { seen := 7 }).lane 54).seen ∧ 1 ≠ farRole 54 ∧ (in_ 3).rd F.laneAttempts 54 + 1 < 3
      ∧ trainValid 17 31 (farRole 54) = true ∧ nextRate (31 &&& (in_ 3).rd F.laneRateEn 54 &&& ((in_ 3).lane 54).cut) ((in_ 3).rd F.laneRate 54) ≠ none
      ∧ (in_ 4).laneState 54 = 4 ∧ trainValid 18 1 1 = true ∧ ((in_ 4 { seen := 3, target := 4 }).lane 54).target = 4
      ∧ 3 ≤ ((in_ 4 { seen := 3, target := 4 }).lane 54).seen ∧ ((in_ 4).lane 54).toSend = 0 ∧ ((in_ 4 { seen := 2 }).lane 54).seen < 3
      ∧ ((in_ 4 { quiet := true }).lane 54).quiet = true ∧ (in_ 4 { quiet := true } 100000).spent ((in_ 4).lane 54).quietAt (10 * ticksUs) = true
      ∧ (in_ 6).laneState 54 = 6
      ∧ (in_ 5 { farHeard := true }).laneState 54 = 5 ∧ ((in_ 5 { farHeard := true, mask := 3 }).lane 54).farHeard = true
      ∧ (in_ 5 {} 1000000).verifyDue 54 ≤ (in_ 5 {} 1000000).up
      ∧ nextRate ((in_ 5 { mask := 3 }).lane 54).mask ((in_ 5).rd F.laneRate 54) = some 1
      ∧ nextRate ((in_ 5 { mask := 1 }).lane 54).mask ((in_ 5).rd F.laneRate 54) = none
      ∧ last.on F.clkLocked = true ∧ last.laneState 52 = 5 ∧ (last.lane 52).ready = true ∧ (last.lane 52).toSend = 1
      ∧ (last.lane 52).quiet = false ∧ (last.lane 52).douseLeft = 0 ∧ (last.lane 52).busyUntil ≤ last.up
      ∧ (in_ 5 {} 1000000).spent 0 (5 * ticksMs) = false ∧ (in_ 5 {} 1000000).spent 0 (100 * ticksUs) = true
      ∧ (in_ 3 {} 50000000).spent 0 (5 * ticksMs) = true ∧ (in_ 3 {} 2000000).spent 0 (200 * ticksUs) = true
      ∧ (in_ 11 {} 1000000000).laneState 54 = 11 ∧ (in_ 11 {} 1000000000).spent 0 (100 * ticksMs) = true := by decide +kernel

theorem wit_LanesSleepAndSeeDouse :
    let d (l : Nat) (ws : List (Fld × Nat × Nat)) (x : Lane := {}) : Dev := dv ws fun d => at_ 10000000 (d.setLane l x)
    let up := d 52 [(F.laneState, 7, 52)]
    let lp (w : Bool) : Dev := d 52 [(F.laneState, 8, 52)] { waking := w }
    let locked (l s : Nat) : Dev := d l [(F.laneState, s, l), (F.laneLocked, 1, l)]
    up.laneUp 52 = true ∧ (up.lane 52).wait = [] ∧ (up.lane 52).held = [] ∧ up.spent (up.lane 52).lastFrameAt ticksMs = true
      ∧ (lp false).laneState 52 = 8 ∧ ((lp false).lane 52).waking = false ∧ ((lp true).lane 52).waking = true
      ∧ (lp true).spent ((lp true).lane 52).wakeAt (2 * ticksUs) = true
      ∧ (∀ l ∈ [0, 47, 48, 49, 54], (locked l 7).on F.laneLocked l = true) ∧ (locked 54 5).laneState 54 = 5 ∧ (locked 54 3).laneState 54 = 3
      ∧ (locked 54 7).laneState 54 ≠ 5 ∧ (locked 54 7).laneState 54 ≠ 3
      ∧ up.on F.laneLocked 52 = false ∧ (d 54 [(F.laneState, 10, 54), (F.laneLoopback, 4, 54)]).laneState 54 = 10
      ∧ (d 54 [(F.laneState, 10, 54), (F.laneLoopback, 4, 54)]).rd F.laneLoopback 54 = 4
      ∧ (locked 48 7).causeActive 7 0 = false ∧ (locked 48 7).causeActive 7 1 = false := by decide +kernel

theorem wit_FramesAreSentAndAcknowledged :
    let d (x : Lane) (now : Nat := 0) : Dev := dv [(F.laneState, 7, 54), (F.frmRetryMax, 2, 0)] fun d => at_ now (d.setLane 54 x)
    let y (x : Lane) : Dev := (d x).drain 54
    let h := d { held := [{ seq := 5 }] }
    let late := d { held := [{ seq := 5 }] } 100000000
    (y {}).on F.clkLocked = true ∧ (y {}).transmits 54 = true ∧ ((y {}).lane 54).douseLeft = 0 ∧ ((y {}).lane 54).busyUntil ≤ (y {}).up
      ∧ ((y { nakDue := some 255 }).lane 54).nakDue = some 255 ∧ ((y { ackDue := some 255 }).lane 54).nakDue = none
      ∧ ((y { ackDue := some 255 }).lane 54).ackDue = some 255
      ∧ ((y { held := [{ seq := 5 }], replay := [5] }).lane 54).replay = [5] ∧ ((y { replay := [5] }).lane 54).again = none
      ∧ ((y { held := [{ seq := 5 }], replay := [5] }).lane 54).held.find? (fun h => h.seq == 5) = some { seq := 5 }
      ∧ ((y { wait := [{ ftype := 2 }] }).lane 54).replay = [] ∧ ((y { wait := [{ ftype := 2 }] }).nextItem 54).isSome = true
      ∧ (y {}).nextItem 54 = none
      ∧ (dv [(F.clkLocked, 0, 0)]).on F.clkLocked = false ∧ h.transmits 54 = true ∧ ((h.lane 54).held.any fun x => x.seq == 5) = true
      ∧ 2 ≤ h.rd F.frmRetryMax ∧ (h.lane 54).retries = 0 ∧ ((h.lane 54).held.any fun x => x.seq == 6) = false
      ∧ (h.lane 54).held = { seq := 5 } :: [] ∧ (h.lane 54).replay = []
      ∧ h.spent 0 (h.rd F.frmReplayTo * ticksUs) = false ∧ late.spent 0 (late.rd F.frmReplayTo * ticksUs) = true
      ∧ (let g := d { held := [{ seq := 5 }], retries := 1, retrySeq := 5 }
         0 < (g.lane 54).retries ∧ (g.lane 54).retrySeq = 5 ∧ g.rd F.frmRetryMax ≤ (g.lane 54).retries + 1) := by decide +kernel

theorem wit_FramesArriveInOrder :
    let d := dv [(F.laneState, 7, 54), (F.frmRxExpect, 255, 54)]
    d.laneUp 54 = true ∧ (dv).laneUp 54 = false ∧ badFlags 54 0xFF = true ∧ badFlags 54 0 = false ∧ badFlags 54 2 = false
      ∧ d.rd F.frmRxExpect 54 = 255 ∧ (255 + 255 - 223) % 256 < 32 ∧ 32 ≤ (255 + 255 - 222) % 256 := by decide +kernel

/-- A frame of SEQ 0 with an address and a payload. -/
def fr (addr : BitVec 16) (p : Bytes) : RxFrame := { seq := 0, flags := 0, addr := addr, deadline := 0, payload := p }

theorem wit_CellsAreHeard :
    let d (c : Cell) : Dev := dv [(F.hmpUPop, 1, 95)] (·.setCell 95 c)
    let ev (sev : Byte) : RxFrame := fr 0 ([0, 0, 95, 0] ++ zeros 10 ++ [sev, 0] ++ zeros 4)
    let us : RxFrame := fr 95 (zeros 12 ++ [1, 3, 0, 0, 0, 0, 0, 0])
    (dv).slotNamed 47 (fr 95 []) = none ∧ (d {}).holdsWick = true ∧ (((d {}).cell 95).markers.find? fun m => m.1 == 5) = none
      ∧ (((d { markers := [(5, 0, 1)] }).cell 95).markers.find? fun m => m.1 == 5) = some (5, 0, 1)
      ∧ (List.replicate 6 (0 : Int)).length = ((d {}).setIndices 0).length ∧ ([] : List Int).length ≠ ((d {}).setIndices 0).length
      ∧ (dv [(F.twinRole, 2, 0)]).holdsWick = false ∧ (d {}).slotNamed 47 us = some 95 ∧ (parseUState us.payload).isSome = true
      ∧ ((parseUState us.payload).getD {}).health = 3 ∧ ((d {}).cell 95).health ≠ 3 ∧ cellAddr 47 us = some 95
      ∧ (zeros 32).length = 32 ∧ zeroRange (zeros 32) 30 2 = true
      ∧ (∀ b ∈ [1, 2], (ev b).payload.length = 20 ∧ zeroRange (ev b).payload 3 1 = true ∧ zeroRange (ev b).payload 15 1 = true
        ∧ byteAt (ev b).payload 2 / 2 = 47 ∧ byteAt (ev b).payload 14 = b.toNat)
      ∧ (d {}).populated (byteAt (ev 2).payload 2) = true := by decide +kernel

theorem wit_PartnerFramesAreTaken :
    let wick : Bytes := le 4 5 ++ le 8 9 ++ zeros 2 ++ [1, 64] ++ zeros 8
    let chunk : Bytes := le 4 7 ++ zeros 4 ++ le 2 0 ++ le 2 1 ++ zeros 4 ++ [9]
    let digests : Bytes := le 4 7 ++ [0, 31, 0, 0] ++ zeros 248
    let report : Bytes := zeros 12 ++ [2, 32] ++ zeros 38
    let standby := dv [(F.twinRole, 2, 0)]
    wick.length = 24 ∧ byteAt wick 14 ≤ 1 ∧ 1 ≤ byteAt wick 15 ∧ byteAt wick 15 ≤ 64
      ∧ (dv [(F.twinRole, 1, 0), (F.twinEpoch, 4, 0)]).rd F.twinRole = 1 ∧ (dv [(F.twinRole, 1, 0), (F.twinEpoch, 4, 0)]).rd F.twinEpoch < leAt wick 0 4
      ∧ standby.rd F.twinRole ≠ 1 ∧ standby.holdsWick = false ∧ chunk.length = 17 ∧ zeroRange chunk 12 4 = true
      ∧ leAt chunk 8 2 < leAt chunk 10 2 ∧ byteAt digests 5 = 31 ∧ digests.length = 8 + 8 * byteAt digests 5
      ∧ zeroRange digests 6 2 = true ∧ (dv).holdsWick = true ∧ report.length = 52 ∧ zeroRange report 15 1 = true
      ∧ (byteAt report 13).testBit 6 = false ∧ (byteAt report 13).testBit 5 = true ∧ (dv).twin.checking = false := by decide +kernel

theorem wit_FramesAreRoutedAndTimed :
    let u := dv [(F.laneEn, 1, 48), (F.laneState, 7, 48)]
    let old := dv [(F.frmReasmTo, 5, 0)] fun d => { at_ 50000000 d with reasm := [{ src := 65535, msgId := 65535 }] }
    let new := dv [(F.frmReasmTo, 5, 0)] fun d => { at_ 49999999 d with reasm := [{ src := 65535, msgId := 65535 }] }
    let t := dv [] fun d => d.setLaneTime 54 { pending := true, syncId := 1 }
    let resp : Bytes := le 8 0 ++ le 8 100000 ++ le 2 1 ++ zeros 6
    (dv).route 65535 = .none ∧ u.route 65535 = .lane 48 ∧ u.laneLinked 48 = true ∧ (u.queue (transitQueue 48)).fill = 0
      ∧ u.rd F.grpDState (52 - 49) ≠ 5 ∧ (u.reasm.find? fun r => r.src == 0 && r.msgId == 0 && r.req == true && r.lane == 0) = none
      ∧ old.reasm = [{ src := 65535, msgId := 65535 }] ∧ 0 + old.rd F.frmReasmTo * ticksMs ≤ old.now
      ∧ new.now < 0 + new.rd F.frmReasmTo * ticksMs ∧ (zeros 16).length = 16 ∧ zeroRange (zeros 16) 10 6 = true
      ∧ (dv).isSource 54 = false ∧ resp.length = 24 ∧ zeroRange resp 18 6 = true ∧ (t.laneTime 54).pending = true
      ∧ (t.laneTime 54).clean = true ∧ leAt resp 16 2 = (t.laneTime 54).syncId ∧ leAt resp 8 8 ≤ leAt resp 0 8 + 100000
      ∧ (t.laneTime 54).delays = [] ∧ zeroRange (zeros 256) 12 4 = true ∧ u.on F.laneEn 48 = true
      ∧ zeroRange (zeros 256) 3 1 = true ∧ (dv).queueRoom 18 (entriesOf 256) = true := by decide +kernel

theorem wit_TreesCommandAndReport :
    let ch (now : Nat) : Dev := dv [(F.grpChildTo, 2, 0), (F.grpStateInt, 1, 0), (F.grpDState, 4, 3), (F.grpReturnRamp, 1, 0)] (at_ now)
    let lim := (ch 0).rd F.grpChildTo * (ch 0).rd F.grpStateInt * (ch 0).cycle
    let hold := dv [(F.grpUState, 2, 0), (F.grpUHold, 1, 0), (F.grpULostAct, 1, 0)] (at_ 10000000)
    let hold0 := dv [(F.grpUState, 2, 0), (F.grpUHold, 1, 0), (F.grpULostAct, 0, 0)] (at_ 10000000)
    let par := dv [(F.grpUState, 1, 0), (F.laneEn, 1, 48)]
    let well := dv [(F.laneEn, 1, 48), (F.laneState, 7, 48)]
    let ramp := dv [(F.grpDState, 3, 3), (F.grpReturnRamp, 1, 0)] (·.setChild 3 { ramp := 1 })
    let cmd : RxFrame := { fr 0 (zeros 16) with flags := 8 }
    let done := dv [] fun d => { d with group := { d.group with accepted := some 0 } }
    let us : Bytes := zeros 12 ++ [2, 0, 0, 0, 0, 0, 0, 0]
    ((ch lim).child 3).reportAt + lim ≤ (ch lim).now ∧ 2 ≤ (ch lim).rd F.grpDState 3 ∧ (ch lim).rd F.grpDState 3 ≤ 4
      ∧ (ch 0).now < ((ch 0).child 3).reportAt + lim ∧ ramp.rd F.grpDState 3 = 3 ∧ ramp.rd F.grpReturnRamp ≤ (ramp.child 3).ramp
      ∧ par.parentMissing = true ∧ par.rd F.grpUState = 1 ∧ well.parentMissing = false
      ∧ hold.rd F.grpUState = 2 ∧ hold.group.lostAt + hold.rd F.grpUHold * ticksMs ≤ hold.now ∧ hold.rd F.grpULostAct = 1
      ∧ hold0.rd F.grpULostAct = 0 ∧ (dv).forMe cmd = true ∧ (parseCommand cmd.payload).isSome = true
      ∧ done.stale ((parseCommand cmd.payload).getD {}) = true ∧ (dv).stale ((parseCommand cmd.payload).getD {}) = false
      ∧ (parseUState us).isSome = true ∧ parseUState [] = none := by decide +kernel

theorem wit_TwinHealthIsWatched :
    let d (ws : List (Fld × Nat × Nat)) (t : Twin) : Dev := dv ws fun d => { at_ 50000000 d with twin := t }
    let standby : List (Fld × Nat × Nat) := [(F.twinRole, 2, 0), (F.twinPaired, 1, 0)]
    (d [] { checking := true }).twin.checking = true ∧ (d [] { checking := true }).twin.divPending = false
      ∧ (d [(F.twinRole, 1, 0)] { checking := true }).rd F.twinRole = 1 ∧ (d standby {}).rd F.twinRole = 2 ∧ (d standby {}).paired = true
      ∧ (d [] {}).twin.checking = false ∧ (d [] { divPending := true, checkResult := 1 }).twin.divPending = true
      ∧ (d [] {}).twin.flameResult = 0 ∧ (d [] { divPending := true, checkResult := 1 }).twin.checkResult = 1
      ∧ (d [] {}).twin.checkAt + 5 * ticksMs ≤ (d [] {}).now ∧ (d standby {}).holdsWick = false ∧ (d standby {}).twin.linkLost = false
      ∧ (d standby {}).laneUp 53 = false ∧ (d standby {}).laneUp 54 = false
      ∧ within (d standby {}).twin.frameAt (d standby {}).now (d standby {}).leaseWait = false
      ∧ (d [] { leaseOut := true }).twin.leaseOut = true ∧ (d [] {}).rd64 F.twinExpiryLo F.twinExpiryHi ≤ (d [] {}).now
      ∧ (d [(F.twinExpiryLo, 50000001, 0)] {}).now < (d [(F.twinExpiryLo, 50000001, 0)] {}).rd64 F.twinExpiryLo F.twinExpiryHi := by
  decide +kernel

theorem wit_PilotReplaysAndCompares :
    let bs (slot : Byte) : Bytes := zeros 36 ++ [slot, 0] ++ zeros 26
    let d (wait round : Bool) (b : Bytes) : Dev := dv [(F.twinRole, 2, 0), (F.twinPaired, 1, 0)] fun d => { d with
      twin := { waitRound := wait, inRound := round, digestCycle := 4, copy := some { cycle := 4, chunks := 1, got := [(0, b)] } } }
    (d true false (bs 1)).paired = true ∧ (d true false (bs 1)).holdsWick = false ∧ (dv).copyComplete = none
      ∧ (d true false (bs 1)).copyComplete = some (4, bs 1) ∧ ((d true false (bs 1)).copyHeader (bs 1)).twin.waitRound = true
      ∧ leAt (bs 1) 36 2 ≠ ((d true false (bs 1)).copyHeader (bs 1)).enabledSlots.headD 0
      ∧ ((d true false (bs 1)).copyHeader (bs 1)).twin.inRound = false
      ∧ leAt (bs 0) 36 2 = ((d true false (bs 0)).copyHeader (bs 0)).enabledSlots.headD 0
      ∧ ((d false false (bs 0)).copyHeader (bs 0)).twin.waitRound = false
      ∧ (let x := (st).dev
         let y : Dev := { x with sched := { x.sched with digests := [(47, 1)] } }
         (∀ l, l < x.cellLanes → tget (fun _ => 0) x.sched.digests l = tget (fun _ => 0) x.twin.digests l)
         ∧ ¬ (∀ l, l < y.cellLanes → tget (fun _ => 0) y.sched.digests l = tget (fun _ => 0) y.twin.digests l)
         ∧ (y.wr F.twinDivRun 1).rd F.twinDivRun < 2 ∧ (y.wr F.twinDivRun 2).rd F.twinDivRun = 2) := by decide +kernel

theorem wit_LedgerIsKept :
    let hour := 36000000000000
    let d (ws : List (Fld × Nat × Nat)) (l : Ledger) (now : Nat) : Dev := dv ws fun d => { at_ now d with ledger := l }
    let cnt : List (Fld × Nat × Nat) := [(F.hmpCkptHours, 1, 0), (F.hmpLedgerState, 3, 0)]
    let ck := sealed ([0x54, 0x41, 0x4C, 0x57] ++ le 2 1 ++ zeros 246)
    (d cnt {} hour).rd F.hmpCkptHours ≠ 0 ∧ (d cnt {} hour).ledger.ckptAt + (d cnt {} hour).rd F.hmpCkptHours * 3600 * ticksSec ≤ (d cnt {} hour).now
      ∧ (d cnt {} hour).rd F.hmpLedgerState = 3 ∧ (d cnt {} hour).on F.hmpCkptBusy = false
      ∧ (dv [(F.hmpCkptHours, 0, 0)]).rd F.hmpCkptHours = 0 ∧ (d [] { copy := some (15, []) } 0).ledger.copy = some (15, [])
      ∧ (d cnt { retryAt := some (15, 0) } hour).ledger.retryAt = some (15, 0) ∧ 0 + 3600 * ticksSec ≤ (d cnt {} hour).now
      ∧ (d cnt {} (hour - 1)).now < 0 + 3600 * ticksSec ∧ (d [(F.hmpLedgerState, 1, 0)] {} 0).rd F.hmpLedgerState = 1
      ∧ (d [(F.sysCellSlots, 0, 0)] {} 0).ckptValid ck = true ∧ ((dv).wearOf 95).extreme = none
      ∧ ((dv [] fun d => d.setWear 95 { extreme := some 7 }).wearOf 95).extreme = some 7
      ∧ ((7 : Int) - 7).natAbs ≤ ((dv).rd F.hmpTwHyst * 4 : Nat)
      ∧ ((dv [] fun d => d.setWear 95 { residue := List.replicate 32 0 }).wearOf 95).residue.length ≤ 32 := by decide +kernel

theorem wit_MemoryIsScrubbedAndRefilled :
    let q (x : Queue) : Dev := dv [] (·.setQueue 63 x)
    let p := dv [] fun d => d.writePage (2 ^ 23 - 1) 0 []
    let lag := (dv [(F.memDscrubMin, 1, 0), (F.memDscrubBatch, 1, 0)] fun d => at_ 600000000000 (d.writePage 0 0 [])).wr F.memSelfRef 1
    (dv [(F.memScrubPaused, 1, 0)]).on F.memScrubPaused = true ∧ (dv).on F.memScrubPaused = false
      ∧ (dv).mem.sramPoison.contains (95, 16383) = false ∧ (dv).hasDram = true ∧ (dv).on F.memSelfRef = false
      ∧ (dv).page (2 ^ 23 - 1) = none ∧ (p.page (2 ^ 23 - 1)).isSome = true
      ∧ lag.on F.memSelfRef = true ∧ lag.rd F.memDscrubBatch ≤ lag.scrubLag
      ∧ (dv [(F.memSelfRef, 1, 0), (F.memDscrubBatch, 1, 0)]).scrubLag < (dv [(F.memSelfRef, 1, 0), (F.memDscrubBatch, 1, 0)]).rd F.memDscrubBatch
      ∧ (dv).mem.draining = false ∧ (dv [] (at_ 100000000)).spent 0 (10 * ticksMs) = true
      ∧ (dv [] (at_ 99989999)).spent 0 (10 * ticksMs) = false
      ∧ ((q { head := [{}] }).queue 63).head ≠ [] ∧ ((q { sram := [{}] }).queue 63).head = [] ∧ ((q { sram := [{}] }).queue 63).sram ≠ []
      ∧ ((q { cooler := [(1, [{}])] }).queue 63).sram = [] ∧ ((q { cooler := [(1, [{}])] }).queue 63).cooler = (1, [{}]) :: [] := by
  decide +kernel

theorem wit_LanternSamplesAndDrains :
    let d (ws : List (Fld × Nat × Nat)) (a : Acq) (now : Nat := 0) : Dev := dv ws fun d => { at_ now d with acq := a }
    let on := d [] { armed := true, samples := 1 }
    (d [] {}).acq.armed = false ∧ (d [] { armed := true, firstAt := 1 }).now < (d [] { armed := true, firstAt := 1 }).acq.firstAt
      ∧ (d [] { armed := true }).acq.armed = true ∧ (d [] { armed := true }).acq.samples = 0
      ∧ (d [] { armed := true }).acq.firstAt ≤ (d [] { armed := true }).now ∧ on.acq.samples ≠ 0
      ∧ on.now + 1 < on.acq.lastAt + on.ctrlTicks (on.rd F.acqDiv + 1)
      ∧ (d [] { armed := true, samples := 1 } 15).acq.lastAt + (d []  {}).ctrlTicks 1 ≤ (d [] { armed := true, samples := 1 } 15).now + 1
      ∧ (d [] {}).rd F.acqDiv + 1 = 1
      ∧ (∀ k ∈ List.range 6, (d [(F.acqSKind, k, 0)] {}).rd F.acqSKind 0 = k) ∧ (d [(F.acqState, 3, 0)] {}).rd F.acqState = 3
      ∧ (d [] {} 4000).spent 0 4000 = true ∧ (d [] {}).spent 0 4000 = false
      ∧ (d [] {}).acq.drain = [] ∧ (d [] { drain := [{}] }).acq.drain = {} :: [] := by decide +kernel

theorem wit_StepRunsTheFrontCommand :
    ({ st with pending := [.light 0 (), .light 1 ()] } : State).pending = Instr.light 0 () :: [.light 1 ()]
      ∧ State.reset.pending = [] ∧ State.reset.dev.timeRuns = false ∧ st.pending = [] ∧ st.dev.timeRuns = true := by decide +kernel

theorem wit_PacketsAreTakenInOrder :
    let p := pk 0x01
    let old := st [] fun d => d.setSession 1 { isOpen := true, auth := 3, kept := [(7, ((p).ticket st).crc, [9])] }
    let full := st [] fun d => { d with ports := { d.ports with windows := [(0, { taken := 64 })] } }
    let struck := st [] fun d => { d with ports := { d.ports with internalDue := true } }
    let long := pk 0x01 (zeros 4081)
    let odd : Pkt := { p with hd := { hd1 with flags := 1 } }
    (p.arrived State.reset).portActive p.src = false ∧ (p.arrived st).portActive p.src = true
      ∧ lengthsFit p.src p.payload p.need = true ∧ lengthsFit long.src long.payload long.need = false
      ∧ (p.ctx old).clean = true ∧ ((p.arrived old).duplicate (p.ticket old)).isSome = true
      ∧ (odd.ctx st).clean = false ∧ (p.arrived st).duplicate (p.ticket st) = none
      ∧ (p.arrived full).duplicate (p.ticket full) = none ∧ (p.arrived full).hasCredit (windowOf p.src p.hd.session.toNat) = false
      ∧ (p.arrived st).hasCredit (windowOf p.src p.hd.session.toNat) = true ∧ (p.entered st).replyRoom p.op = true
      ∧ ((pk 0x99 [] { known := false }).entered st).precheck ((pk 0x99 [] { known := false }).ctx st) { known := false } ≠ none
      ∧ (p.entered st).precheck (p.ctx st) p.need = none ∧ (p.entered st).ports.internalDue = false
      ∧ (p.entered struck).precheck (p.ctx struck) p.need = none ∧ (p.entered struck).ports.internalDue = true := by decide +kernel

theorem wit_ReadReplyOffersTheOldest :
    let d := dv [] fun d => d.putPacket 0 [1, 2, 3]
    d.portActive .host = true ∧ (∀ x ∈ (d.queue 0).cooler, x.2 ≠ []) ∧ (d.queue 0).packets ≠ [] ∧ ((dv).queue 0).packets = [] := by
  decide +kernel

theorem wit_RegularSlotsFallDue :
    let d := (st [(F.loopEn, 1, 255), (F.loopPhase, 1, 255), (F.loopDiv, 0, 255)]).dev
    d.regular 255 = true ∧ 255 ∈ d.merged.enabledSlots ∧ d.merged.rd F.loopDiv 255 < d.merged.rd F.loopPhase 255 := by decide +kernel

theorem wit_EveryStepKeepsTheFuses :
    State.reset.fuse.sound ∧ (∃ u, step State.reset = .next u) ∧ ({ keyLocked := true, signedBoot := true, keyHash := List.replicate 8 1 } : Fuse).sound := by
  refine ⟨?_, ⟨State.reset, rfl⟩, ?_⟩ <;> unfold Fuse.sound <;> decide +kernel

/-! ## The spec's worked examples -/

/-- The CRC-32C results of R172. -/
theorem test_crc32c : crc32c ((List.range 9).map fun i => BitVec.ofNat 8 (0x31 + i)) = 0xE3069283 ∧ crc32c (zeros 32) = 0x8A9136AA
    ∧ crc32c (List.replicate 32 0xFF) = 0x62A8AB43 ∧ crc32c ((List.range 32).map (BitVec.ofNat 8)) = 0x46DD794E := by decide +kernel

/-- The TRAIN block of R147. -/
theorem test_train_block : controlBlock [0x10, 0x11, 0x0F, 0x00, 0x01, 0x0D, 0x2A] = [0x10, 0x11, 0x0F, 0x00, 0x01, 0x0D, 0x2A, 0x97] := by
  decide +kernel

/-- The DOUSE blocks of R184. -/
theorem test_douse_blocks :
    (dv [(F.twinRole, 1, 0), (F.twinEpoch, 7, 0)]).douseBlock 0 3 = [0xD5, 0x00, 0x03, 0x07, 0x00, 0x00, 0x2A, 0xF6]
      ∧ (dv [(F.twinRole, 1, 0), (F.twinEpoch, 7, 0)]).douseBlock 7 3 = [0xD5, 0x07, 0x03, 0x07, 0x00, 0x00, 0x2A, 0xEF] := by
  decide +kernel

/-- The WICK frame of chapter 7. -/
theorem test_wick_frame :
    (frameBytes 0x05 0x41 1 127 (some 100000250000)
      (le 4 7 ++ le 8 100001000000 ++ zeros 2 ++ [0, 4] ++ le 8 100000000000)).take 36
      = [0x20, 0x05, 0x41, 0x17, 0x01, 0x7F, 0x00, 0x02, 0x90, 0xB8, 0x7A, 0x48, 0x07, 0x00, 0x00, 0x00,
         0x40, 0x2A, 0x86, 0x48, 0x17, 0x00, 0x00, 0x00, 0x00, 0x00, 0x00, 0x04, 0x00, 0xE8, 0x76, 0x48,
         0x17, 0x00, 0x00, 0x00] := by decide +kernel

/-- The equalisation entry of R159. -/
theorem test_eq_entry :
    let d := dv [] (·.eqLane 13 [0x01, 0x02, 0x2C, 0x06, 0x05, 0x00, 0x00, 0x00])
    d.rd F.laneEqPre 13 = 2 ∧ d.rd F.laneEqMain 13 = 44 ∧ d.rd F.laneEqPost 13 = 6 ∧ d.rd F.laneEqCtle 13 = 5
      ∧ d.rd F.laneEqDefault 13 = 0 := by decide +kernel

/-- The modulator settings of chapter 9's worked example. -/
def yard : Dev := dv [(F.modCarrierPeriod, 4000000, 0), (F.modDabPeriod, 250000, 0), (F.modDead, 2000, 0), (F.modDabDead, 1500, 0),
  (F.modMinPulse, 5000, 0), (F.modDabSpread, 1, 0), (F.modCCarrier, 5, 26), (F.modCDab, 13, 26)]

/-- The H-bridge of slot 26: leg B goes HIGH at E + 80,195, nothing else happens. -/
theorem test_schedule_bridge :
    let e : Int := 100000000000
    ((yard.planLegs { cell := { legA := { level := lvHigh }, legB := { level := lvLow } } } 26 0 14 e 250000 0x005DAC38).edges.map
      fun x => (x.at_ - e, x.leg, x.level)) = [(79195, 0x01, lvOff), (81195, 0x01, lvHigh)] := by decide +kernel

/-- The DAB of slot 26: eight entries. -/
theorem test_schedule_dab :
    let e : Int := 100000000000
    ((yard.planDab { cell := { pri := { level := lvNeg }, sec := { level := lvNeg } } } 26 42 e 250000 2013266).edges.map
      fun x => (x.at_ - e, x.leg, x.level))
      = [(37940, 0x41, lvOff), (39440, 0x41, lvPos), (162940, 0x41, lvOff), (164440, 0x41, lvNeg),
         (52940, 0x42, lvOff), (54440, 0x42, lvPos), (177940, 0x42, lvOff), (179440, 0x42, lvNeg)] := by decide +kernel

/-- An entry and the SOF of the schedule's frame. -/
theorem test_schedule_frame :
    ({ at_ := 100000162940, leg := 0x41, level := 0 } : Edge).bytes 26 100000000000 = [0x41, 0x00, 0x00, 0x00, 0x7C, 0x7C, 0x02, 0x00]
      ∧ (frameBytes 0x01 0x40 1 127 (some (100000000000 - 2500)) (schedulePayload 100000000000 7 400000 false
          (List.replicate 12 (26, {})))).take 12 = [0x20, 0x01, 0x40, 0x6F, 0x01, 0x7F, 0x00, 0xAF, 0x3C, 0xDE, 0x76, 0x48]
      ∧ (schedulePayload 100000000000 7 400000 false (List.replicate 12 (26, {}))).take 16
          = [0x00, 0xE8, 0x76, 0x48, 0x17, 0x00, 0x00, 0x00, 0x07, 0x00, 0x00, 0x00, 0x0C, 0x00, 0x80, 0x1A] := by decide +kernel

/-- The carrier phases of R229 with 14 and with 13 cells. -/
theorem test_carrier_phases : [4, 5, 6, 13].map (fun k => carrierPhase k 14 4000000) = [571429, 714286, 857143, 1857143]
    ∧ [4, 5, 12].map (fun k => carrierPhase k 13 4000000) = [615385, 769231, 1846154] := by decide +kernel

/-- The minimum pulse of R234: 3,000 fine ticks are widened to 5,000 about their centre, 1,600 are dropped. -/
theorem test_min_pulse :
    (minPulse 5000 0 4000000 4 (some (-9000)) true [(1998500, lvLow), (2001500, lvHigh)] {}).kept = [(1997500, lvLow), (2002500, lvHigh)]
      ∧ (minPulse 5000 0 4000000 4 (some (-9000)) true [(1999200, lvLow), (2000800, lvHigh)] {}).kept = []
      ∧ (minPulse 5000 0 4000000 4 (some (-9000)) true [(1999200, lvLow), (2000800, lvHigh)] {}).dropped = 1 := by decide +kernel

/-- The duties of R318's worked example. -/
theorem test_duty : dutyCompares 31249 0 true 0x00D70A3D = (2500, 28750) ∧ dutyCompares 31249 0 true 0x00D9999A = (2344, 28907) := by
  decide +kernel

/-- The carrier indices of R292's worked example: K_STRIDE 9 over fourteen cells. -/
theorem test_fresh_indices :
    (List.range 14).map (fun p => (((freshIndices 9 ((List.range 14).map (2 * ·))).find? fun x => x.1 == 2 * p).map (·.2)).getD 99)
      = [0, 9, 4, 13, 8, 3, 12, 7, 2, 11, 6, 1, 10, 5] := by decide +kernel

/-- The shares of R290's worked example: ranks 0, 7 and 13 of 14 with a spread of 0.10, 0.0785714, 0.0708791, 0.0642857. -/
theorem test_shares : [0, 14, 26].map (fun r => shareOf 14 r 0x0019999A) = [1318209, 1189154, 1078535] := by decide +kernel

/-- The rainflow count of R303's worked example: counter 53 counts 2, the damage is 430, 40, 90 and 45 °C remain. -/
theorem test_rainflow :
    let d := dv [(F.hmpTwDt, 20, 0), (F.hmpTwHyst, 4, 0), (F.hmpTwTmw, 60, 0), (F.hmpTwTmb, 25, 0), (F.hmpDtEntry, 215, 53)]
    let e := [40, 90, 60, 85, 45].foldl (fun (d : Dev) (x : Int) => d.pushReversal 26 (16 * x)) d
    e.word 0x0A1A 53 = 2 ∧ e.rd64 F.hmpDmgLo F.hmpDmgHi 26 = 430 ∧ (e.wearOf 26).residue = [640, 1440, 720] := by decide +kernel

/-- One evaluation of chapter 10's worked example: with I_MAX at 1.00 the integrator at 1.10 is clipped, and u_raw is 1.10. -/
theorem test_narrowed_integrator :
    let coef (w : Nat) : Int := if w = 5 then 0x10000000 else if w = 8 then 0x20000000 else if w = 9 then 5368709 else
      if w = 14 then 0x01400000 else if w = 16 then 0x01000000 else 0
    let x := evalSlot coef 0 false false false 0 { integ := 18454938 * 2 ^ 28 } { r := 838861 }
    x.clipEvent = true ∧ x.st.integ = 0x01000000 * 2 ^ 28 ∧ x.raw = 0x01000000 + 2 * 838861 := by decide +kernel

/-- The regular slots of chapter 10's worked example on the eight engines (R295): slot, engine, start, end. -/
theorem test_loop_placement :
    let d := dv ([(F.sysLoopSlots, 24, 0), (F.modArmEn, 1, 0), (F.modArmEn, 1, 1), (F.modArmEn, 1, 2)]
      ++ ((List.range 24).map fun s => (F.loopEn, 1, s)) ++ ((List.range 3).flatMap fun s => [(F.loopFast, 1, s), (F.loopPin, s, s),
          (F.loopBqCount, 2, s), (F.modArmRefSlot, s, s), (F.loopBqCount, 1, s + 3), (F.loopBqCount, 2, s + 6),
          (F.modArmDabEn, 1, s), (F.modArmDabSlot, s + 6, s), (F.loopGroupEn, 1, s + 9)])
      ++ (List.range 12).map fun s => (F.loopRSel, 8192 + 9, s + 12))
    (sortBy (fun p : Nat × Nat × Nat × Nat => (p.1 : Int)) ((d.placement []).map fun p => (p.slot, p.engine, p.start, p.fin)))
      = [(3, 4, 0, 17), (4, 3, 0, 17), (5, 2, 0, 17), (6, 7, 0, 22), (7, 6, 0, 22), (8, 5, 0, 22), (9, 1, 0, 12), (10, 1, 12, 24),
         (11, 1, 24, 36), (12, 7, 38, 50), (13, 6, 38, 50), (14, 5, 38, 50), (15, 4, 38, 50), (16, 3, 38, 50), (17, 2, 38, 50),
         (18, 1, 38, 50), (19, 0, 38, 50), (20, 7, 50, 62), (21, 6, 50, 62), (22, 5, 50, 62), (23, 4, 50, 62)] := by decide +kernel

/-- Chapter 2's worked example: the third re-read of block 1,200 fails, and slot B is rejected with cause 3. -/
theorem test_fallback :
    let h : ImgHdr := { seq := 8, length := 2048, dir := [{ typ := 2, first := 1, count := 1 }] }
    let b : Boot := { stage := .kindle, headersRead := 2, hdrA := some { h with seq := 7 }, hdrB := some h, rereads := 3 }
    let d : Dev := { boot := { b with trying := some true, next := 1200 } }
    let e := outDev (exec (.kindleBlockRead 0 (zeros 256)) { dev := d })
    e.rd F.sysFailBlockB = 1200 ∧ e.rd F.sysSlotBCause = 3 ∧ e.boot.trying = some false ∧ e.boot.next = 1 := by decide +kernel

/-! ## Ill-formed commands -/

/-- One ill-formed term for each check of Instr.wf. No meaning depends on the check: exec answers each. -/
theorem test_ill_formed :
    let m : PtpMsg :=
      { kind := .sync, domain := 0, seq := 0, source := 1, twoStep := false, seconds := 1, nanos := 1000000000, correction := 0, prio1 := 128
        clockClass := 248, accuracy := 0xFE, variance := 0xFFFF, prio2 := 128, grandmaster := 0, stepsRemoved := 0, requester := 0, rxAt := 0 }
    let r (spares : List (Nat × Nat)) : FuseRead := { variant := .aqv9648, uid := 0, key := none, repairUsed := false, spares := spares }
    ∀ c ∈ [Instr.fuseReadDone 0 (some (r (List.replicate 97 (0, 0)), false)), .fuseReadDone 0 (some (r [(9, 0)], false)),
        .fuseReadDone 0 (some (r [(0, 3)], false)), .kindleHeaderRead 0 false (zeros 255), .kindleBlockRead 0 (zeros 257),
        .dramTrainingDone 0 true 1 8193, .badInstruction 0 0x03, .ptpMessage 0 m],
      c.wf = false ∧ outNext (exec c st) = true := by decide +kernel

/-- A datagram or an echo longer than one IPv4 packet carries is ill-formed. -/
theorem test_ill_formed_length (bytes : List Byte) (h : 65507 < bytes.length) (x y : NetEnd) :
    (Instr.commandDatagram 0 x y 1 1 false none bytes).wf = false ∧ (Instr.icmpEcho 0 x y none bytes).wf = false := by
  simp [Instr.wf, show ¬ bytes.length ≤ ipv4Payload from Nat.not_le.mpr h]

end Sys2Proof.Tests
end

section
/-!
PROOFS. The family 00_scope: live writes (R7) and forwarding (R16, R175). A live write is one general row, and each row of one
place is a case of it; forwarding turns on the way that the node address and the slot name.
-/
namespace Sys2Proof.Machine

/-! ## Lengths of what is read back -/

@[simp] theorem natsBytes_length (ws : List Nat) : (natsBytes ws).length = 4 * ws.length := by
  induction ws with
  | nil => rfl
  | cons w t ih => simp [natsBytes] at *; omega

@[simp] theorem Dev.readRange_length (d : Dev) (so first count : Nat) : (d.readRange so first count).length = count := by
  simp [Dev.readRange]

@[simp] theorem rangeParams_length (so first count : BitVec 16) : (rangeParams so first count).length = 8 := by
  simp [rangeParams]

/-- The parameters of an admitted packet fit its port (R94). -/
theorem Pkt.Admitted.payload_fits {p : Pkt} {s : State} (a : p.Admitted s) : p.payload.length ≤ replyLimit p.src := by
  obtain ⟨-, hl, -⟩ := a
  simp only [lengthsFit, Bool.and_eq_true, decide_eq_true_eq] at hl
  exact hl.1

/-! ## Live writes (R7) -/

/-- The packet of a live write of some words from one place on (R114). -/
def livePacket (t : Nat) (src : Src) (h : Hdr) (so first : BitVec 16) (ws : List Word) : Pkt :=
  { op := 0x38, t := t, src := src, hd := h, need := liveNeed so first ws
    payload := rangeParams so first (BitVec.ofNat 16 ws.length) ++ wordsBytes ws }

/-- The words read back take no more room than the words written, so a live write that fits its port has a reply that does. -/
theorem livePacket_reply_fits {t : Nat} {src : Src} {h : Hdr} {so first : BitVec 16} {ws : List Word} {s : State}
    (a : (livePacket t src h so first ws).Admitted s) (e : Dev) :
    (natsBytes (e.readRange so.toNat first.toNat ws.length)).length ≤ replyLimit src := by
  have hp : (rangeParams so first (BitVec.ofNat 16 ws.length) ++ wordsBytes ws).length ≤ replyLimit src := a.payload_fits
  simp only [List.length_append, rangeParams_length, wordsBytes_length] at hp
  simp only [natsBytes_length, Dev.readRange_length]
  omega

/-- A live write that nothing refuses does what its words do and answers OK with them as they read after it. -/
theorem liveRow_passes {t : Nat} {src : Src} {h : Hdr} {so first : BitVec 16} {ws : List Word} {s : State}
    (fine : (livePacket t src h so first ws).Admitted s ∧
      passes (((livePacket t src h so first ws).taken s).liveRefusals ((livePacket t src h so first ws).ctx s) so first ws)) :
    liveRow t src h so first ws s =
      let p := livePacket t src h so first ws
      let e := (p.taken s).liveWords (liveEntries so first ws)
      .next (p.answered s e stOk (natsBytes (e.readRange so.toNat first.toNat ws.length))) := by
  obtain ⟨admitted, unrefused⟩ := fine
  exact (livePacket t src h so first ws).opcode_answers s (hWriteLive so first ws) stOk _ _ admitted
    (orRefuse_passes _ _ unrefused) (livePacket_reply_fits admitted _)

/-- Settles O7: every row is a live write of one place, and `liveRow_passes` says what one does. -/
theorem liveWritesActAndReadBack : Obligations.LiveWritesActAndReadBack := by
  unfold Obligations.LiveWritesActAndReadBack
  intro s t src h p fine wrote
  refine ⟨?writeLive, ?setNet, ?acceptNext, ?mailboxWrite, ?legTrippedClear, ?legCompareWrite, ?legForce, ?ckptNow, ?ledgerClr,
    ?lvcClose, ?evcArm, ?clkEn, ?acqClear⟩
  case writeLive => exact fun so first ws ok => (exec_writeLive t src h so first ws s).trans (liveRow_passes ok)
  case setNet => exact fun lo hi ok => (exec_setNet t src h lo hi s).trans (liveRow_passes ok)
  case acceptNext => exact fun v ok => (exec_acceptNext t src h v s).trans (liveRow_passes ok)
  case mailboxWrite => exact fun ws ok => (exec_mailboxWrite t src h ws s).trans (liveRow_passes ok)
  case legTrippedClear => exact fun leg ok => (exec_legTrippedClear t src h leg s).trans (liveRow_passes ok)
  case legCompareWrite => exact fun leg a b ok => (exec_legCompareWrite t src h leg a b s).trans (liveRow_passes ok)
  case legForce => exact fun leg en gh gl ok => (exec_legForce t src h leg en gh gl s).trans (liveRow_passes ok)
  case ckptNow => exact fun v ok => (exec_ckptNow t src h v s).trans (liveRow_passes ok)
  case ledgerClr => exact fun v ok => (exec_ledgerClr t src h v s).trans (liveRow_passes ok)
  case lvcClose => exact fun v ok => (exec_lvcClose t src h v s).trans (liveRow_passes ok)
  case evcArm => exact fun v ok => (exec_evcArm t src h v s).trans (liveRow_passes ok)
  case clkEn => exact fun n v ok => (exec_clkEn t src h n v s).trans (liveRow_passes ok)
  case acqClear => exact fun v ok => (exec_acqClear t src h v s).trans (liveRow_passes ok)

/-! ## Forwarding (R16, R175) -/

/-- What MANAGE_FORWARD asks of its parameters: a whole inner packet, and a slot number that is not this node itself. -/
def Dev.forwardable (d : Dev) (node : BitVec 16) (slot : Byte) (inner : Bytes) : Prop :=
  16 ≤ inner.length ∧ slot.toNat < 128 ∧ ¬ (node.toNat = d.nodeAddr ∧ slot.toNat = 127)

/-- The parameter check of MANAGE_FORWARD refuses nothing that can be forwarded. -/
theorem Dev.forwardable.badParam_false {d : Dev} {node : BitVec 16} {slot : Byte} {inner : Bytes}
    (f : d.forwardable node slot inner) : (decide (inner.length < 16) || decide (128 ≤ slot.toNat)
      || (decide (node.toNat = d.nodeAddr) && slot.toNat == 127)) = false := by
  obtain ⟨whole, low, other⟩ := f
  simp only [Bool.or_eq_false_iff, decide_eq_false_iff_not, Bool.and_eq_false_iff, beq_eq_false_iff_ne]
  exact ⟨⟨by omega, by omega⟩, by omega⟩

/-- An inner packet that has a way is sent and waited for. -/
theorem hManageForward_routed {node : BitVec 16} {slot : Byte} {inner : Bytes} {way : Nat × Nat × Nat × Nat} (c : Ctx) {d : Dev}
    (f : d.forwardable node slot inner) (w : d.forwardWay node.toNat slot.toNat = some way) :
    hManageForward node slot inner c d = d.sendForward c.ticket.src way inner := by
  unfold hManageForward
  dsimp only
  rw [f.badParam_false, w]
  rfl

/-- An inner packet that has no way is refused with UNIT_ABSENT, and the block stays as it is (R2). -/
theorem hManageForward_unrouted {node : BitVec 16} {slot : Byte} {inner : Bytes} (c : Ctx) {d : Dev}
    (f : d.forwardable node slot inner) (w : d.forwardWay node.toNat slot.toNat = none) :
    hManageForward node slot inner c d = refuse stUnitAbsent 0 d := by
  have elsewhere : (decide (node.toNat = d.nodeAddr) && decide (127 ≤ slot.toNat)) = false := by
    obtain ⟨-, low, other⟩ := f
    simp only [Bool.and_eq_false_iff, decide_eq_false_iff_not]
    omega
  unfold hManageForward
  dsimp only
  rw [w, elsewhere]
  rfl

/-- A forwarded packet that has waited 50 ms is answered EXPIRED (R175). -/
theorem Dev.forwardTimeout_due {d : Dev} {id : Nat} {x : Parked}
    (waits : d.parked.find? (fun y => decide (y.why = .forward id)) = some x)
    (due : 50 * ticksMs ≤ (d.now % 2 ^ 32 + 2 ^ 32 - x.ticket.stamp) % 2 ^ 32) :
    d.forwardTimeout id = d.answerParked x stExpired (refusalData 0xFFFF 0 0xFF 0x40) := by
  unfold Dev.forwardTimeout
  rw [waits]
  exact if_pos due

/-- Settles O15: by the way the inner packet has, sent or refused; and by its wait, expired. -/
theorem forwardingSendsAndExpires : Obligations.ForwardingSendsAndExpires := by
  unfold Obligations.ForwardingSendsAndExpires
  intro s t src h
  refine ⟨?forward, ?timeout⟩
  case forward =>
    intro node slot inner way p d id frames admitted whole low other
    have f : (p.taken s).forwardable node slot inner := ⟨whole, low, other⟩
    refine ⟨fun routed => ?_, fun unrouted => ?_⟩
    · rw [exec_manageForward]
      exact p.opcode_parks s (hManageForward node slot inner) _ _ admitted (hManageForward_routed (p.ctx s) f routed)
    · rw [exec_manageForward]
      exact p.opcode_answers s (hManageForward node slot inner) _ _ _ admitted
        (hManageForward_unrouted (p.ctx s) f unrouted)
        (by rw [refusalData_length]; exact Nat.le_trans (by decide) (replyLimit_ge p.src))
  case timeout =>
    intro msgId x d waits due
    rw [exec_manageForwardTimeout]
    unfold execManageForwardTimeout
    rw [liftFuse_eq, Dev.forwardTimeout_due waits due]

end Sys2Proof.Machine
end

section
/-!
PROOFS. The family 03_clocks: the interlock of the legs (R76, R315, R324, R327). What a drive writes to the two gate outputs is said
once, as a pair of bits; the interlock is then a fact about that pair.
-/
namespace Sys2Proof.Machine

/-! ## The gate outputs that a drive writes -/

/-- The gate outputs a drive gives a leg (R324), upper switch first: of one request alone, where the leg may switch (R315), counts and
no kill path holds it (R327). -/
def Dev.legGates (d : Dev) (n : Nat) : Bool × Bool :=
  let ok := d.legMay n && (d.leg n).counting && !d.legKilled n
  let (gh, gl) := d.legRequests n
  (ok && gh && !gl, ok && gl && !gh)

/-- A drive is a change of the leg's hidden part, then the writes of its two gate outputs. -/
theorem Dev.drive2_eq (d : Dev) (n : Nat) :
    ∃ l, d.drive2 n = ((d.setLeg n l).wr F.legGh (flag (d.legGates n).1) n).wr F.legGl (flag (d.legGates n).2) n :=
  ⟨_, rfl⟩

theorem flag_mod_two (b : Bool) : flag b % 2 = flag b := by cases b <;> rfl

/-- The two gate outputs of a leg are different bits of its word (R341). -/
theorem legGl_apart_legGh (n : Nat) : F.legGl.apart n F.legGh n = true := by
  simp [Fld.apart, F.legGl, F.legGh]

@[simp] theorem Dev.rd_legGh_drive2 (d : Dev) (n : Nat) : (d.drive2 n).rd F.legGh n = flag (d.legGates n).1 := by
  obtain ⟨l, e⟩ := d.drive2_eq n
  rw [e, Dev.rd_wr_apart _ _ _ _ _ _ rfl rfl (legGl_apart_legGh n), Dev.rd_wr_same _ _ _ _ rfl]
  exact flag_mod_two _

@[simp] theorem Dev.rd_legGl_drive2 (d : Dev) (n : Nat) : (d.drive2 n).rd F.legGl n = flag (d.legGates n).2 := by
  obtain ⟨l, e⟩ := d.drive2_eq n
  rw [e, Dev.rd_wr_same _ _ _ _ rfl]
  exact flag_mod_two _

/-- A flag, read as a one-bit field is, is its bit. -/
@[simp] theorem flag_bne_zero (b : Bool) : (flag b != 0) = b := by cases b <;> rfl

/-! ## The interlock -/

/-- Each output wants the other's request away, so the two are never high together (R324). -/
theorem Dev.legGates_not_both (d : Dev) (n : Nat) : ((d.legGates n).1 && (d.legGates n).2) = false := by
  unfold Dev.legGates
  obtain ⟨gh, gl⟩ := d.legRequests n
  cases gh <;> simp

/-- A leg that may not switch or that a kill path holds has both outputs low (R76, R315, R327). -/
theorem Dev.legGates_held {d : Dev} {n : Nat} (held : d.legMay n = false ∨ d.legKilled n = true) :
    d.legGates n = (false, false) := by
  unfold Dev.legGates
  obtain may | killed := held
  · simp [may]
  · simp [killed]

/-- Two requests at once drive neither switch (R324). -/
theorem Dev.legGates_both_requested {d : Dev} {n : Nat} (both : d.legRequests n = (true, true)) :
    d.legGates n = (false, false) := by
  simp [Dev.legGates, both]

/-- A drive that gives neither output leaves both words at 0. -/
theorem Dev.drive2_low {d : Dev} {n : Nat} (low : d.legGates n = (false, false)) :
    (d.drive2 n).rd F.legGh n = 0 ∧ (d.drive2 n).rd F.legGl n = 0 := by
  simp [low, flag]

/-- Settles O31: a drive writes the pair `Dev.legGates`, which is never both high, and low where the leg is held or both are asked. -/
theorem legsNeverShootThrough : Obligations.LegsNeverShootThrough := by
  unfold Obligations.LegsNeverShootThrough
  intro d n _ e
  refine ⟨?notBoth, fun held => Dev.drive2_low (Dev.legGates_held held),
    fun both => Dev.drive2_low (Dev.legGates_both_requested both)⟩
  case notBoth =>
    simp only [e, Dev.on, Dev.rd_legGh_drive2, Dev.rd_legGl_drive2, flag_bne_zero]
    exact d.legGates_not_both n

end Sys2Proof.Machine
end

section
/-!
PROOFS. The family 04_command_port: the reads and the opcodes of chapter 4 that one handler answers, how a packet is taken (R100),
the host port (R88 to R92) and the network port (R93, R106, R119, R469), and the step that runs the front command.
-/
namespace Sys2Proof.Machine

/-! ## Replies within every port's limit (R94) -/

/-- Data of at most 1,456 bytes go out on every port. -/
theorem fits_of_le {data : Bytes} (src : Src) (h : data.length ≤ 1456) : data.length ≤ replyLimit src :=
  Nat.le_trans h (replyLimit_ge src)

/-- Pieces of n bytes each, one after another. -/
theorem length_flatMap_of {α : Type} (l : List α) (f : α → Bytes) (n : Nat) (each : ∀ x, (f x).length = n) :
    (l.flatMap f).length = n * l.length := by
  induction l with
  | nil => rfl
  | cons x t ih => rw [List.flatMap_cons, List.length_append, each x, ih, List.length_cons, Nat.mul_succ, Nat.add_comm]

/-- The reply that an admitted packet asks for fits its port (R94). -/
theorem Pkt.Admitted.reply_fits {p : Pkt} {s : State} (a : p.Admitted s) : p.need.reply ≤ replyLimit p.src := by
  obtain ⟨-, hl, -⟩ := a
  simp only [lengthsFit, Bool.and_eq_true, decide_eq_true_eq] at hl
  exact hl.2

/-! ## Reads of words (R114, R140) -/

/-- An opcode that reads words of one object answers OK with them and leaves the block alone. -/
theorem Pkt.opcode_readObject (p : Pkt) (s : State) (h : Handler) (so first count : Nat) (a : p.Admitted s)
    (reads : h (p.ctx s) (p.taken s) = hReadObject so first count (p.ctx s) (p.taken s)) (short : 4 * count ≤ replyLimit p.src) :
    opcode p.op p.t p.src p.hd p.payload p.need h s =
      .next (p.answered s (p.taken s) stOk (natsBytes ((p.taken s).readRange so first count))) :=
  p.opcode_answers s h stOk _ _ a reads (by simpa using short)

/-- Settles O1: every row's handler is one reply, of at most 260 bytes. -/
theorem fixedReadsAnswer : Obligations.FixedReadsAnswer := by
  unfold Obligations.FixedReadsAnswer
  intro s t src h p d words
  refine ⟨?ping, ?getCaps, ?getIdentity, ?listSessions, ?getMode, ?calWear, ?readFaults, ?memStatus, ?safeStatus⟩
  case ping =>
    intro a
    exact (exec_ping t src h s).trans ((p 0x00).opcode_answers s hPing _ _ _ a rfl (fits_of_le src (by simp)))
  case getCaps =>
    intro a
    exact (exec_getCaps t src h s).trans
      ((p 0x01).opcode_readObject s hGetCaps _ _ _ a rfl (Nat.le_trans (by decide) (replyLimit_ge src)))
  case getIdentity =>
    intro a
    have uid : ((List.range 4).flatMap fun i => le 4 ((d 0x02).rd F.sysUid i)).length = 4 * (List.range 4).length :=
      length_flatMap_of _ _ 4 fun i => le_length 4 _
    exact (exec_getIdentity t src h s).trans
      ((p 0x02).opcode_answers s hGetIdentity _ _ _ a rfl (fits_of_le src (by
        simp only [List.length_append, le_length, uid, List.length_range]
        decide)))
  case listSessions =>
    intro a
    exact (exec_listSessions t src h s).trans
      ((p 0x05).opcode_answers s hListSessions _ _ _ a rfl (fits_of_le src (by simp)))
  case getMode =>
    intro a
    exact (exec_getMode t src h s).trans ((p 0x41).opcode_answers s hGetMode _ _ _ a rfl (fits_of_le src (by simp)))
  case calWear =>
    intro a
    exact (exec_calWear t src h s).trans ((p 0x62).opcode_answers s hCalWear _ _ _ a rfl (fits_of_le src (by simp)))
  case readFaults =>
    intro a
    exact (exec_readFaults t src h s).trans
      ((p 0x80).opcode_readObject s hReadFaults _ _ _ a rfl (Nat.le_trans (by decide) (replyLimit_ge src)))
  case memStatus =>
    intro a
    exact (exec_memStatus t src h s).trans
      ((p 0xB0).opcode_answers s hMemStatus _ _ _ a rfl (fits_of_le src (by simp)))
  case safeStatus =>
    intro a
    exact (exec_safeStatus t src h s).trans
      ((p 0xE0).opcode_readObject s hSafeStatus _ _ _ a rfl (Nat.le_trans (by decide) (replyLimit_ge src)))

/-! ## Sessions (R103, R104, R106, R417) -/

/-- A check that does not hold refuses nothing, and the checks after it decide. -/
theorem passes_refuseIf {bad : Bool} {st r : Nat} {d : Dev} {rest : List (Option HRes)} (fine : bad = false)
    (more : passes rest) : passes (refuseIf bad st r d :: rest) := by
  intro x hx
  obtain rfl | hx := List.mem_cons.mp hx
  · rw [fine]; rfl
  · exact more x hx

theorem passes_nil : passes [] := fun _ hx => absurd hx List.not_mem_nil

/-- OPEN_SESSION of a session other than 0, which is not bound elsewhere, opens it with the lesser of the authority asked for and
the port's ceiling. -/
theorem hOpenSession_opens {authority : Byte} {c : Ctx} {d : Dev} (named : c.ticket.session ≠ 0) (inRange : authority.toNat ≤ 3)
    (free : d.boundElsewhere c.ticket.src c.ticket.session = false) :
    let granted := min authority.toNat (d.portCeiling c.ticket.src)
    hOpenSession authority c d =
      .reply stOk (le 1 granted ++ zeros 3) (d.openSession c.ticket.src c.ticket.session granted) := by
  unfold hOpenSession
  dsimp only
  rw [if_neg named, if_neg named]
  exact orRefuse_passes _ _
    (passes_refuseIf (decide_eq_false (Nat.not_lt.mpr inRange)) (passes_refuseIf free passes_nil))

/-- CLOSE_SESSION of a session other than 0 closes it. -/
theorem hCloseSession_closes {c : Ctx} (d : Dev) (named : c.ticket.session ≠ 0) :
    hCloseSession c d = .reply stOk [] (d.closeSession c.ticket.session) := by
  unfold hCloseSession okEmpty
  rw [if_neg named]

/-- EVENT_SUBSCRIBE in a session other than 0 keeps the mask there. -/
theorem hEventSubscribe_subscribes {mask : BitVec 256} {c : Ctx} (d : Dev) (named : c.ticket.session ≠ 0) :
    hEventSubscribe mask c d =
      .reply stOk [] (d.setSession c.ticket.session { d.session c.ticket.session with subs := mask.toNat }) := by
  unfold hEventSubscribe okEmpty
  dsimp only
  rw [if_neg named]

/-- Settles O2: by what each handler does in a session other than 0. -/
theorem sessionsOpenCloseSubscribe : Obligations.SessionsOpenCloseSubscribe := by
  unfold Obligations.SessionsOpenCloseSubscribe
  intro s t src h n
  refine ⟨?opened, ?closed, ?subscribed⟩
  case opened =>
    intro authority p granted bound a named inRange free
    rw [exec_openSession]
    exact p.opcode_answers s (hOpenSession authority) _ _ _ a (hOpenSession_opens named inRange free) (fits_of_le src (by simp))
  case closed =>
    intro p a named
    rw [exec_closeSession]
    exact p.opcode_answers s hCloseSession _ _ _ a (hCloseSession_closes _ named) (Nat.zero_le _)
  case subscribed =>
    intro mask p a named
    rw [exec_eventSubscribe]
    exact p.opcode_answers s (hEventSubscribe mask) _ _ _ a (hEventSubscribe_subscribes _ named) (Nat.zero_le _)

/-! ## Faults acknowledged and cleared (R407, R408) -/

/-- CLEAR_FAULT works on the block after the raises that wait and the trips of its classes (R329). -/
def Dev.faultsCleared (d : Dev) (mask : Nat) : Dev :=
  (classesOf mask).foldl (fun d c => d.clearClass c) ((d.classify []).clearTrips mask)

theorem hClearFault_eq (mask : Word) (c : Ctx) (d : Dev) :
    hClearFault mask c d =
      let e := d.faultsCleared mask.toNat
      let left := e.setClasses &&& mask.toNat
      if left = 0 then .reply stOk [] e else .reply stCauseActive (le 4 left) e := rfl

/-- Settles O10: by whether a named class stays set. -/
theorem faultsAreAcknowledgedAndCleared : Obligations.FaultsAreAcknowledgedAndCleared := by
  unfold Obligations.FaultsAreAcknowledgedAndCleared
  intro s t src h mask p done left
  refine ⟨fun a => ?acknowledged, fun a gone => ?cleared, fun a stays => ?kept⟩
  case acknowledged =>
    rw [exec_ackFault]
    exact (p 0x82).opcode_answers s (hAckFault mask) _ _ _ a rfl (fits_of_le src (by simp))
  case cleared =>
    rw [exec_clearFault]
    exact (p 0x83).opcode_answers s (hClearFault mask) _ _ _ a ((hClearFault_eq ..).trans (if_pos gone)) (Nat.zero_le _)
  case kept =>
    rw [exec_clearFault]
    exact (p 0x83).opcode_answers s (hClearFault mask) _ _ _ a ((hClearFault_eq ..).trans (if_neg stays))
      (fits_of_le src (by simp))

/-! ## The twin opcodes (R384, R391) -/

/-- A variant with a twin refuses no twin opcode (R2). -/
theorem orRefuse_noTwin {d : Dev} (twin : d.hasTwin = true) (ok : HRes) : orRefuse [d.noTwin] ok = ok :=
  orRefuse_passes _ _ (passes_refuseIf (by rw [twin]; rfl) passes_nil)

/-- What MARK_UNFIT leaves of the block: Flame released, a released unit as it is, any other unit in role 5. -/
def Dev.withdrawn (d : Dev) : Dev :=
  if d.rd F.twinRole = 1 then d.releaseWick else if d.rd F.twinRole = 6 then d else d.markUnfit

theorem hMarkUnfit_eq {d : Dev} (c : Ctx) (twin : d.hasTwin = true) : hMarkUnfit c d = .reply stOk [] d.withdrawn :=
  orRefuse_noTwin twin _

/-- MARK_UNFIT admitted on a variant with a twin. -/
theorem exec_markUnfit_admitted {t : Nat} {src : Src} {h : Hdr} {s : State} :
    let p : Pkt := { op := 0x93, t := t, src := src, hd := h, need := { auth := authM } }
    p.Admitted s → (p.taken s).hasTwin = true →
    exec (.markUnfit t src h) s = .next (p.answered s (p.taken s).withdrawn stOk []) := by
  intro p a twin
  rw [exec_markUnfit]
  exact p.opcode_answers s hMarkUnfit _ _ _ a (hMarkUnfit_eq _ twin) (Nat.zero_le _)

/-- Settles O13: by the role of the unit that MARK_UNFIT finds. -/
theorem twinOpcodesAct : Obligations.TwinOpcodesAct := by
  unfold Obligations.TwinOpcodesAct
  intro s t src h p d
  refine ⟨fun a twin => ?selftest, fun a twin => ?unfit⟩
  case selftest =>
    rw [exec_twinSelftest]
    exact (p 0x91).opcode_answers s hTwinSelftest _ _ _ a (orRefuse_noTwin twin _) (Nat.zero_le _)
  case unfit =>
    have answered := exec_markUnfit_admitted a twin
    refine ⟨fun flame => ?_, fun notFlame notReleased => ?_, fun released => ?_⟩
    · rw [answered, Dev.withdrawn, if_pos flame]
    · rw [answered, Dev.withdrawn, if_neg notFlame, if_neg notReleased]
    · rw [answered, Dev.withdrawn, if_neg (by rw [released]; decide), if_pos released]

/-! ## Reads of a range (R114, R140, R141, R275, R284, R354, R412) -/

/-- A range of words or bytes that R114 allows is not refused for its count. -/
theorem count_inRange {n : Nat} (least : 0 < n) (most : n ≤ 1020) : (n == 0 || decide (1020 < n)) = false := by
  simp only [Bool.or_eq_false_iff, beq_eq_false_iff_ne, decide_eq_false_iff_not]
  omega

theorem rangeReply_eq {count : BitVec 16} {bytes : Nat} (most : count.toNat ≤ 1020) :
    rangeReply count bytes = bytes * count.toNat := if_pos most

/-- The checks that READ_WORDS and READ_STAGED share: the words are present, exist, and their count is in range (R114, R518). -/
theorem passes_rangeChecks {d : Dev} {so first n : Nat} (present : d.allAbsent so first n = none)
    (exist : rangeExists so first n d = none) (least : 0 < n) (most : n ≤ 1020) :
    passes [d.allAbsent so first n, rangeExists so first n d,
      refuseIf (n == 0 || decide (1020 < n)) stBadParam 0x92 d] := by
  rw [present, exist, count_inRange least most]
  simp [passes]

theorem hReadWords_reads {so first count : BitVec 16} (c : Ctx) {d : Dev}
    (present : d.allAbsent so.toNat first.toNat count.toNat = none)
    (exist : rangeExists so.toNat first.toNat count.toNat d = none) (least : 0 < count.toNat) (most : count.toNat ≤ 1020) :
    hReadWords so first count c d =
      let e := d.readable so.toNat
      .reply stOk (natsBytes (e.readRange so.toNat first.toNat count.toNat)) e :=
  orRefuse_passes _ _ (passes_rangeChecks present exist least most)

/-- The kept masks and values of a range of words, in the order of READ_STAGED (R140). -/
def Dev.stagedBytes (d : Dev) (so first count : Nat) : Bytes :=
  (List.range count).flatMap fun i =>
    let w := d.keptWord so (first + i)
    wordBytes w.1 ++ wordBytes w.2

@[simp] theorem Dev.stagedBytes_length (d : Dev) (so first count : Nat) : (d.stagedBytes so first count).length = 8 * count := by
  rw [Dev.stagedBytes, length_flatMap_of _ _ 8 (by simp), List.length_range]

theorem hReadStaged_reads {so first count : BitVec 16} (c : Ctx) {d : Dev}
    (present : d.allAbsent so.toNat first.toNat count.toNat = none)
    (exist : rangeExists so.toNat first.toNat count.toNat d = none) (least : 0 < count.toNat) (most : count.toNat ≤ 1020) :
    hReadStaged so first count c d = .reply stOk (d.stagedBytes so.toNat first.toNat count.toNat) d :=
  orRefuse_passes _ _ (passes_rangeChecks present exist least most)

/-- As many records of n bytes as a reply holds fit it. -/
theorem records_fit {α : Type} (l : List α) (f : α → Bytes) (limit n : Nat) (each : ∀ x, (f x).length = n) :
    ((l.take (limit / n)).flatMap f).length ≤ limit := by
  rw [length_flatMap_of _ f n each]
  calc n * (l.take (limit / n)).length ≤ n * (limit / n) := Nat.mul_le_mul_left n (List.length_take_le ..)
    _ ≤ limit := Nat.mul_div_le limit n

theorem hTuneRead_reads {slot : BitVec 16} (c : Ctx) {d : Dev} (present : slot.toNat < d.loopSlots) :
    hTuneRead slot c d = hReadObject (0x0600 + slot.toNat) 0 40 c d := by
  have found : d.slotAbsent [slot.toNat] = none := by simp [Dev.slotAbsent, present]
  unfold hTuneRead
  dsimp only
  rw [found]
  rfl

theorem hCalRead_reads {offset length : BitVec 16} (c : Ctx) (d : Dev) (least : 0 < length.toNat) (most : length.toNat ≤ 4080)
    (inside : offset.toNat + length.toNat ≤ 16384) :
    hCalRead offset length c d = .reply stOk ((d.calBytes.drop offset.toNat).take length.toNat) d := by
  refine orRefuse_passes _ _ (passes_refuseIf ?_ passes_nil)
  simp only [Bool.or_eq_false_iff, beq_eq_false_iff_ne, decide_eq_false_iff_not]
  omega

theorem hReadHistory_reads {first count : Byte} (c : Ctx) (d : Dev) (least : 0 < count.toNat)
    (inside : first.toNat + count.toNat ≤ 32) :
    hReadHistory first count c d = hReadObject 0x0F08 (10 * first.toNat) (10 * count.toNat) c d := by
  refine orRefuse_passes _ _ (passes_refuseIf ?_ passes_nil)
  simp only [Bool.or_eq_false_iff, beq_eq_false_iff_ne, decide_eq_false_iff_not]
  omega

theorem hReadEventRoute_reads {first count : Byte} (c : Ctx) (d : Dev) (inside : first.toNat + count.toNat ≤ 256) :
    hReadEventRoute first count c d = hReadObject 0x0F10 first.toNat count.toNat c d :=
  orRefuse_passes _ _ (passes_refuseIf (decide_eq_false (Nat.not_lt.mpr inside)) passes_nil)

/-- LANE_STATUS is refused for absence only where every lane named is absent, so not over no lane or over one that is present (log
entry 39). -/
theorem Dev.lanesAbsent_false {d : Dev} {first count : Byte}
    (asked : count = 0 ∨ ∃ l, first.toNat ≤ l ∧ l < first.toNat + count.toNat ∧ d.lanePresent l = true) :
    (let ls := (List.range count.toNat).map (first.toNat + ·)
     !ls.isEmpty && ls.all fun l => decide (l < 55) && !d.lanePresent l) = false := by
  dsimp only
  obtain rfl | ⟨l, low, high, present⟩ := asked
  · rfl
  · rw [Bool.and_eq_false_iff]
    right
    rw [List.all_eq_false]
    exact ⟨l, List.mem_map.mpr ⟨l - first.toNat, List.mem_range.mpr (by omega), by omega⟩, by simp [present]⟩

theorem hLaneStatus_reads {first count : Byte} (c : Ctx) {d : Dev} (inside : first.toNat + count.toNat ≤ 55)
    (asked : count = 0 ∨ ∃ l, first.toNat ≤ l ∧ l < first.toNat + count.toNat ∧ d.lanePresent l = true) :
    hLaneStatus first count c d = hReadObject 0x0200 first.toNat count.toNat c d :=
  orRefuse_passes _ _ (passes_refuseIf (Dev.lanesAbsent_false asked)
    (passes_refuseIf (decide_eq_false (Nat.not_lt.mpr inside)) passes_nil))

/-- Settles O5: by what each handler reads where its checks pass, and the length of it. -/
theorem rangeReadsAnswer : Obligations.RangeReadsAnswer := by
  unfold Obligations.RangeReadsAnswer
  intro s t src h read
  refine ⟨fun so first count => ?words, fun first => ?lists, fun offset length => ?calibration, fun first count => ?pairs⟩
  case words =>
    intro p here
    refine ⟨?readWords, ?readStaged⟩
    case readWords =>
      rintro p e ⟨a, present, exist, least, most⟩
      have fits : rangeReply count 4 ≤ replyLimit src := a.reply_fits
      rw [rangeReply_eq most] at fits
      rw [exec_readWords]
      exact p.opcode_answers s (hReadWords so first count) _ _ _ a (hReadWords_reads _ present exist least most)
        (by simpa using fits)
    case readStaged =>
      rintro p ⟨a, present, exist, least, most⟩
      have fits : rangeReply count 8 ≤ replyLimit src := a.reply_fits
      rw [rangeReply_eq most] at fits
      rw [exec_readStaged]
      exact p.opcode_answers s (hReadStaged so first count) _ _ _ a (hReadStaged_reads _ present exist least most)
        (Nat.le_trans (Nat.le_of_eq (Dev.stagedBytes_length ..)) fits)
  case lists =>
    intro p
    refine ⟨fun a => ?basketIndex, fun a => ?directory, fun a present => ?tuneRead⟩
    case basketIndex =>
      rw [exec_readBasketIndex]
      exact (p 0x33).opcode_answers s (hReadBasketIndex first) _ _ _ a rfl (records_fit _ _ _ 4 (by simp))
    case directory =>
      rw [exec_readDirectory]
      exact (p 0x34).opcode_answers s (hReadDirectory first) _ _ _ a rfl (records_fit _ _ _ 8 (by simp))
    case tuneRead =>
      rw [exec_tuneRead]
      exact (p 0x52).opcode_readObject s (hTuneRead first) _ _ _ a (hTuneRead_reads _ present)
        (Nat.le_trans (by decide) (replyLimit_ge src))
  case calibration =>
    intro p a least most inside
    have fits : (calReadNeed length).reply ≤ replyLimit src := a.reply_fits
    rw [show (calReadNeed length).reply = length.toNat from if_pos most] at fits
    rw [exec_calRead]
    exact p.opcode_answers s (hCalRead offset length) _ _ _ a (hCalRead_reads _ _ least most inside)
      (Nat.le_trans (List.length_take_le ..) fits)
  case pairs =>
    intro p words
    have room := replyLimit_ge src
    refine ⟨fun a least inside => ?history, fun a inside => ?eventRoute, fun a inside asked => ?laneStatus⟩
    case history =>
      rw [exec_readHistory]
      exact (p 0x81).opcode_readObject s (hReadHistory first count) _ _ _ a (hReadHistory_reads _ _ least inside)
        (Nat.le_trans (by omega) room)
    case eventRoute =>
      rw [exec_readEventRoute]
      exact (p 0x84).opcode_readObject s (hReadEventRoute first count) _ _ _ a (hReadEventRoute_reads _ _ inside)
        (Nat.le_trans (by omega) room)
    case laneStatus =>
      rw [exec_laneStatus]
      exact (p 0xA0).opcode_readObject s (hLaneStatus first count) _ _ _ a (hLaneStatus_reads _ inside asked)
        (Nat.le_trans (by omega) room)

/-! ## How a packet is taken (R89, R94, R100, R108, R112) -/

/-- A packet whose lengths suit its port is taken. -/
theorem Pkt.serve_fits (p : Pkt) (s : State) (h : Handler) (fits : lengthsFit p.src p.payload p.need = true) :
    s.dev.serve p.op p.t p.src p.hd p.payload p.need h = (p.arrived s).take (p.ctx s) p.payload p.need h := by
  show (if (true && lengthsFit p.src p.payload p.need) = true then _ else _) = _
  rw [fits]
  rfl

/-- A packet whose lengths do not suit its port is refused with BAD_LENGTH, where the port takes packets (R94). -/
theorem Pkt.serve_unfit (p : Pkt) (s : State) (h : Handler) (unfit : lengthsFit p.src p.payload p.need = false) :
    s.dev.serve p.op p.t p.src p.hd p.payload p.need h =
      if (p.arrived s).portActive p.src then (p.arrived s).refusePacket (p.ctx s) stBadLength else p.arrived s := by
  show (if (true && lengthsFit p.src p.payload p.need) = true then _ else _) = _
  rw [unfit]
  rfl

section
variable {d : Dev} {c : Ctx} {payload : Bytes} {need : OpNeed} {h : Handler}

/-- A packet refused for its length or CRC is discarded where its window has no credit (R108). -/
theorem Dev.refusePacket_uncredited {st : Nat} (poor : d.hasCredit (windowOf c.ticket.src c.ticket.session) = false) :
    d.refusePacket c st = d.discardPacket c.ticket.src 3 := by
  simp [Dev.refusePacket, poor]

/-- With credit the refusal is answered, naming no field (R98). -/
theorem Dev.refusePacket_credited {st : Nat} (credit : d.hasCredit (windowOf c.ticket.src c.ticket.session) = true) :
    d.refusePacket c st = ((d.spend c.ticket).heard c.ticket).sendReply c.ticket st (refusalData 0xFFFF 0 0xFF 0) := by
  simp [Dev.refusePacket, credit]

theorem Dev.take_inactive (idle : d.portActive c.ticket.src = false) : d.take c payload need h = d := by
  simp [Dev.take, idle]

/-- A duplicate with a clean header gets the kept reply again (R112). -/
theorem Dev.take_duplicate {r : Bytes} (active : d.portActive c.ticket.src = true) (clean : c.clean = true)
    (kept : d.duplicate c.ticket = some r) : d.take c payload need h = (d.heard c.ticket).resend c.ticket r := by
  simp [Dev.take, active, clean, kept]

/-- A packet that is not a duplicate with a clean header goes on to the credit of its window. -/
theorem Dev.take_new (active : d.portActive c.ticket.src = true) (new : c.clean = false ∨ d.duplicate c.ticket = none) :
    d.take c payload need h =
      if !d.hasCredit (windowOf c.ticket.src c.ticket.session) then d.discardPacket c.ticket.src 3
      else if c.ticket.src = .host && !(d.enter c).replyRoom c.ticket.op then
        let k := c.ticket
        let packet := buildPacket k.op c.flags k.tag payload.length c.auth k.session c.time payload
        { d.enter c with parked := (d.enter c).parked ++ [{ ticket := k, why := .credit packet }] }
      else (d.enter c).execute c need h := by
  have noKept : (if c.clean then d.duplicate c.ticket else none) = none := by
    obtain dirty | unkept := new
    · simp [dirty]
    · simp [unkept]
  unfold Dev.take
  simp only [active, noKept, Bool.not_true, Bool.false_eq_true, if_false]

theorem Dev.take_uncredited (active : d.portActive c.ticket.src = true) (new : c.clean = false ∨ d.duplicate c.ticket = none)
    (poor : d.hasCredit (windowOf c.ticket.src c.ticket.session) = false) :
    d.take c payload need h = d.discardPacket c.ticket.src 3 := by
  rw [Dev.take_new active new, poor]
  rfl

/-- With credit, and on the host port with room for its reply, a new packet is executed (R108, R465). -/
theorem Dev.take_executes (active : d.portActive c.ticket.src = true) (new : c.clean = false ∨ d.duplicate c.ticket = none)
    (credit : d.hasCredit (windowOf c.ticket.src c.ticket.session) = true)
    (room : c.ticket.src = .host → (d.enter c).replyRoom c.ticket.op = true) :
    d.take c payload need h = (d.enter c).execute c need h := by
  have noWait : (decide (c.ticket.src = .host) && !(d.enter c).replyRoom c.ticket.op) = false := by
    by_cases host : c.ticket.src = .host
    · simp [room host]
    · simp [host]
  rw [Dev.take_new active new, credit, noWait]
  rfl

/-- A packet that a check of R100 refuses is answered with that refusal. -/
theorem Dev.execute_refused {st reason : Nat} (refused : d.precheck c need = some (st, reason)) :
    d.execute c need h = d.sendReply c.ticket st (refusalData 0xFFFF 0 0xFF reason) := by
  simp [Dev.execute, refused]

/-- A firmware fault that strikes a packet ends it with INTERNAL (R102). -/
theorem Dev.execute_struck (unrefused : d.precheck c need = none) (struck : d.ports.internalDue = true) :
    d.execute c need h = { d with ports := { d.ports with internalDue := false } }.sendReply c.ticket stInternal
      (refusalData 0xFFFF 0 0xFF 0) := by
  simp [Dev.execute, unrefused, struck]

/-- A handler's reply within the port's limit goes out as it is; a longer one is refused and undone (R94). -/
theorem Dev.execute_replies {st : Nat} {data : Bytes} {e : Dev} (unrefused : d.precheck c need = none)
    (spared : d.ports.internalDue = false) (reply : h c d.serviced = .reply st data e) :
    d.execute c need h =
      if replyLimit c.ticket.src < data.length then d.serviced.sendReply c.ticket stBadLength (refusalData 0xFFFF 0 0xFF 0)
      else e.sendReply c.ticket st data := by
  rw [Dev.execute_passes d c need h unrefused spared, reply]

/-- A packet that its handler parks waits with its ticket (R111). -/
theorem Dev.execute_parks {why : Park} {e : Dev} (unrefused : d.precheck c need = none)
    (spared : d.ports.internalDue = false) (park : h c d.serviced = .park why e) :
    d.execute c need h = { e with parked := e.parked ++ [{ ticket := c.ticket, why := why }] } := by
  rw [Dev.execute_passes d c need h unrefused spared, park]

end

/-- Settles O56: by whether the lengths suit the port, then down the order of R100. -/
theorem packetsAreTakenInOrder : Obligations.PacketsAreTakenInOrder := by
  unfold Obligations.PacketsAreTakenInOrder
  intro s p h d k out credit discarded room refusal
  refine ⟨fun idle => ?inactive, fun active unfit => ?length, fun active fits => ?taken⟩
  case inactive =>
    cases fits : lengthsFit p.src p.payload p.need with
    | true => exact (p.serve_fits s h fits).trans (Dev.take_inactive idle)
    | false => exact (p.serve_unfit s h fits).trans (if_neg (by rw [idle]; decide))
  case length =>
    have refused : out = d.refusePacket (p.ctx s) stBadLength := (p.serve_unfit s h unfit).trans (if_pos active)
    exact ⟨fun poor => refused.trans (Dev.refusePacket_uncredited poor),
      fun rich => refused.trans (Dev.refusePacket_credited rich)⟩
  case taken =>
    have taken : out = d.take (p.ctx s) p.payload p.need h := p.serve_fits s h fits
    refine ⟨fun r clean kept => taken.trans (Dev.take_duplicate active clean kept), fun new => ?_⟩
    refine ⟨fun poor => taken.trans (Dev.take_uncredited active new poor), fun rich hasRoom => ?_⟩
    have executed : out = (p.entered s).execute (p.ctx s) p.need h :=
      taken.trans (Dev.take_executes active new rich hasRoom)
    refine ⟨fun st reason refused => executed.trans (Dev.execute_refused refused),
      fun unrefused struck => executed.trans (Dev.execute_struck unrefused struck), fun unrefused spared => ?_⟩
    refine ⟨fun st data e reply => ?reply, fun why e park => executed.trans (Dev.execute_parks unrefused spared park)⟩
    have answered := executed.trans (Dev.execute_replies unrefused spared reply)
    exact ⟨fun short => answered.trans (if_neg (Nat.not_lt.mpr short)), fun long => answered.trans (if_pos long)⟩

/-! ## Packets in a queue (R463) -/

/-- The first packet of an entry list stands at its front. -/
theorem firstPacket_eq {es a b : List QEnt} (h : firstPacket es = some (a, b)) : es = a ++ b ∧ a ≠ [] := by
  induction es generalizing a with
  | nil => cases h
  | cons e t ih =>
    unfold firstPacket at h
    split at h
    · cases h; simp
    · obtain ⟨⟨a', b'⟩, first, pair⟩ := Option.map_eq_some_iff.mp h
      cases pair
      rw [(ih first).1]
      simp

theorem firstPacket_length_lt {es a b : List QEnt} (h : firstPacket es = some (a, b)) : b.length < es.length := by
  obtain ⟨rfl, nonempty⟩ := firstPacket_eq h
  have : 0 < a.length := List.length_pos_iff.mpr nonempty
  simp only [List.length_append]
  omega

/-- Fuel for every entry is fuel enough. -/
theorem packetsOf_fuel (m n : Nat) (es : List QEnt) (hm : es.length ≤ m) (hn : es.length ≤ n) : packetsOf m es = packetsOf n es := by
  induction m generalizing n es with
  | zero =>
    obtain rfl := List.length_eq_zero_iff.mp (Nat.le_zero.mp hm)
    cases n <;> rfl
  | succ m ih =>
    cases n with
    | zero =>
      obtain rfl := List.length_eq_zero_iff.mp (Nat.le_zero.mp hn)
      rfl
    | succ n =>
      unfold packetsOf
      cases first : firstPacket es with
      | none => rfl
      | some r =>
        have shorter := firstPacket_length_lt first
        exact congrArg _ (ih n r.2 (by omega) (by omega))

theorem Queue.fill_eq (q : Queue) : q.fill = q.entries.length := by
  simp only [Queue.fill, Queue.entries, List.length_append, List.length_flatMap]

/-- A queue whose first entries are no complete packet holds none. -/
theorem Queue.packets_nil_iff (q : Queue) : q.packets = [] ↔ firstPacket q.entries = none := by
  unfold Queue.packets
  rw [Queue.fill_eq]
  cases q.entries with
  | nil => simp [packetsOf, firstPacket]
  | cons e t =>
    rw [List.length_cons, packetsOf]
    cases firstPacket (e :: t) <;> simp

/-- The oldest packet of a queue is its first one, and the others are those of the entries after it. -/
theorem Queue.packets_of_first {q : Queue} {a b : List QEnt} (first : firstPacket q.entries = some (a, b)) :
    q.packets = a.flatMap (·.bytes) :: packetsOf b.length b := by
  have shorter := firstPacket_length_lt first
  unfold Queue.packets
  rw [Queue.fill_eq, packetsOf_fuel _ (b.length + (q.entries.length - b.length - 1) + 1) _ (Nat.le_refl _) (by omega), packetsOf, first]
  exact congrArg _ (packetsOf_fuel _ _ b (by omega) (Nat.le_refl _))

/-- Every Cooler page of a queue holds entries. -/
def Queue.pagesFull (q : Queue) : Prop := ∀ x ∈ q.cooler, x.2 ≠ []

@[simp] theorem Queue.settle_entries (q : Queue) : q.settle.entries = q.entries := by
  unfold Queue.settle
  split
  · rename_i bare
    simp only [Bool.and_eq_true, List.isEmpty_iff] at bare
    obtain ⟨noSram, noCooler⟩ := bare
    simp [Queue.entries, noSram, noCooler, List.append_assoc]
  · rfl

theorem Queue.settle_pagesFull {q : Queue} (full : q.pagesFull) : q.settle.pagesFull := by
  unfold Queue.settle
  split
  · exact full
  · exact full

/-- To drop entries is to drop one from the part of the queue that holds the front, and then the others; from a queue that is all
tail they go at once (R463). -/
theorem Queue.dropEntries_succ (n : Nat) {q : Queue} (full : q.pagesFull) :
    (∃ r : Queue, Queue.dropEntries (n + 1) q = Queue.dropEntries n r.settle ∧ r.pagesFull ∧ r.entries = q.entries.drop 1)
      ∨ (Queue.dropEntries (n + 1) q).entries = q.entries.drop (n + 1) := by
  obtain ⟨head, sram, cooler, tail, chunks⟩ := q
  match head, sram, cooler, full with
  | _ :: _, _, _, full => exact .inl ⟨_, rfl, full, rfl⟩
  | [], _ :: _, _, full => exact .inl ⟨_, rfl, full, rfl⟩
  | [], [], (p, []) :: _, full => exact absurd rfl (full (p, []) (List.mem_cons_self ..))
  | [], [], (p, [e]) :: rest, full =>
    have left : ∀ x ∈ rest, x.2 ≠ [] := fun x hx => full x (List.mem_cons_of_mem _ hx)
    exact .inl ⟨_, rfl, left, rfl⟩
  | [], [], (p, _ :: e :: es) :: rest, full =>
    have left : ∀ x ∈ (p, e :: es) :: rest, x.2 ≠ [] := by
      intro x hx
      obtain rfl | hx := List.mem_cons.mp hx
      · exact List.cons_ne_nil _ _
      · exact full x (List.mem_cons_of_mem _ hx)
    exact .inl ⟨_, rfl, left, rfl⟩
  | [], [], [], _ => exact .inr rfl

/-- Entries leave a queue from the front, wherever its parts hold them (R463). -/
theorem Queue.entries_dropEntries (n : Nat) (q : Queue) (full : q.pagesFull) :
    (Queue.dropEntries n q).entries = q.entries.drop n := by
  induction n generalizing q with
  | zero => rfl
  | succ n ih =>
    obtain ⟨r, same, kept, fewer⟩ | all := Queue.dropEntries_succ n full
    · rw [same, ih _ (Queue.settle_pagesFull kept), Queue.settle_entries, fewer, List.drop_drop, Nat.add_comm]
    · exact all

/-- A queue without a complete packet gives none. -/
theorem Dev.takePacket_none {d : Dev} {q : Nat} (empty : (d.queue q).packets = []) : d.takePacket q = none := by
  have noFirst := (Queue.packets_nil_iff _).mp empty
  unfold Dev.takePacket
  dsimp only
  rw [noFirst]

/-- The oldest packet taken out of a queue leaves the others, in their order. -/
theorem Dev.takePacket_oldest {d : Dev} {q : Nat} {p : Bytes} {rest : List Bytes} (full : (d.queue q).pagesFull)
    (held : (d.queue q).packets = p :: rest) : ∃ e, d.takePacket q = some (p, e) ∧ (e.queue q).packets = rest := by
  cases first : firstPacket (d.queue q).entries with
  | none => rw [(Queue.packets_nil_iff _).mpr first] at held; cases held
  | some r =>
    obtain ⟨a, b⟩ := r
    rw [Queue.packets_of_first first, List.cons.injEq] at held
    obtain ⟨rfl, rfl⟩ := held
    refine ⟨d.setQueue q ((d.queue q).dropEntries a.length), ?_, ?_⟩
    · unfold Dev.takePacket
      dsimp only
      rw [first]
    · have after : ((d.queue q).dropEntries a.length).entries = b := by
        rw [Queue.entries_dropEntries _ _ full, (firstPacket_eq first).1, List.drop_left]
      rw [Dev.queue_setQueue, if_pos rfl, Queue.packets, Queue.fill_eq, after]

/-! ## The host port (R88 to R92) -/

/-- An event row leaves the device as its meaning makes it at the event's instant. -/
theorem event_dev {t : Nat} {s : State} {f : Dev → Dev} {e : Dev} (acts : f (s.dev.advance t) = e) :
    event t s f = .next { s with dev := e } := by
  rw [event_eq, acts]

/-- A packet that ends early is discarded as its port says (R89, R91, R93). -/
theorem Dev.takeBytes_short {d : Dev} {src : Src} {via : Option (Nat × Nat × Nat)} {bytes : Bytes} (active : d.portActive src = true)
    (short : bytes.length < 16 ∨ bytes.length < 16 + leAt bytes 4 2) :
    d.takeBytes src via bytes = d.discardPacket src (shortError src) := by
  simp [Dev.takeBytes, active, short]

/-- A packet with more bytes than its length says is discarded with framing error 2 (R89). -/
theorem Dev.takeBytes_long {d : Dev} {src : Src} {via : Option (Nat × Nat × Nat)} {bytes : Bytes} (active : d.portActive src = true)
    (long : 16 + leAt bytes 4 2 < bytes.length) : d.takeBytes src via bytes = d.discardPacket src 2 := by
  have whole : ¬ (bytes.length < 16 ∨ bytes.length < 16 + leAt bytes 4 2) := by omega
  simp [Dev.takeBytes, active, whole, long]

section
variable {s : State} {t : Nat}

/-- READ_REPLY on a port that takes packets (R90). -/
theorem exec_readReply_active (complete : Bool) (active : (s.dev.advance t).portActive .host = true) :
    exec (.readReply t complete) s =
      let e := (s.dev.advance t).readReply complete
      .next { s with fuse := s.fuse.burn e, dev := e } := by
  rw [exec_readReply, execReadReply, liftFuse_eq]
  dsimp only
  rw [if_pos active]

/-- What the host port drives programs no fuse. -/
theorem Fuse.burn_driveHost (f : Fuse) (d : Dev) (bs : Bytes) : f.burn (d.driveHost bs) = f.burn d := rfl

/-- With no reply waiting nothing stands to be driven. -/
theorem exec_readReply_none (complete : Bool) (active : (s.dev.advance t).portActive .host = true)
    (empty : (s.dev.advance t).takePacket 0 = none) :
    exec (.readReply t complete) s =
      .next { s with fuse := s.fuse.burn (s.dev.advance t), dev := (s.dev.advance t).driveHost [] } := by
  rw [exec_readReply_active complete active, Dev.readReply, empty]
  rfl

/-- A reply cut short is driven and stays. -/
theorem exec_readReply_cut {p : Bytes} {e : Dev} (active : (s.dev.advance t).portActive .host = true)
    (oldest : (s.dev.advance t).takePacket 0 = some (p, e)) :
    exec (.readReply t false) s =
      .next { s with fuse := s.fuse.burn (s.dev.advance t), dev := (s.dev.advance t).driveHost p } := by
  rw [exec_readReply_active false active, Dev.readReply, oldest]
  rfl

/-- A reply clocked out whole is driven and leaves its queue; packets that waited for room run (R465). -/
theorem exec_readReply_whole {p : Bytes} {e : Dev} (active : (s.dev.advance t).portActive .host = true)
    (oldest : (s.dev.advance t).takePacket 0 = some (p, e)) :
    exec (.readReply t true) s =
      let x := (e.driveHost p).resumeParked
      .next { s with fuse := s.fuse.burn x, dev := x } := by
  rw [exec_readReply_active true active, Dev.readReply, oldest]
  rfl

end

/-- Settles O34: the packet by its length, the reply by what its queue holds. -/
theorem hostPortTransacts : Obligations.HostPortTransacts := by
  unfold Obligations.HostPortTransacts
  intro s t d active
  refine ⟨?writePacket, ?readReply, fun empty c => exec_readReply_none c active empty, ?readStatus, ?badInstruction⟩
  case writePacket =>
    rintro bytes e rfl
    exact ⟨rfl, fun short => Dev.takeBytes_short active (.inl short),
      fun _ short => Dev.takeBytes_short active (.inr short), fun long => Dev.takeBytes_long active long⟩
  case readReply => exact fun p e oldest => ⟨exec_readReply_whole active oldest, exec_readReply_cut active oldest⟩
  case readStatus => exact (exec_readStatus t s).trans (event_dev (if_pos active))
  case badInstruction =>
    intro code bad
    exact (exec_badInstruction t code s).trans (event_dev (if_pos (by rw [active, bad]; rfl)))

/-- Settles O57: by the packets that the reply queue holds, the oldest of which `Dev.takePacket_oldest` takes out. -/
theorem readReplyOffersTheOldest : Obligations.ReadReplyOffersTheOldest := by
  unfold Obligations.ReadReplyOffersTheOldest
  intro s t d active full
  refine ⟨fun p rest held => ?waiting, fun empty c => exec_readReply_none c active (Dev.takePacket_none empty)⟩
  obtain ⟨x, oldest, others⟩ := Dev.takePacket_oldest full held
  exact ⟨exec_readReply_cut active oldest, held, x, others, exec_readReply_whole active oldest⟩

/-! ## What leaves the resolved addresses alone (R119) -/

/-- A chain of updates keeps what each of them keeps. -/
theorem foldl_keeps {α β : Type} (part : Dev → β) (f : Dev → α → Dev) (l : List α) (d : Dev)
    (each : ∀ d x, part (f d x) = part d) : part (l.foldl f d) = part d := by
  induction l generalizing d with
  | nil => rfl
  | cons x t ih => exact (ih (f d x)).trans (each d x)

@[simp] theorem Dev.arp_netSend (d : Dev) (mac : Nat) (b : NetBody) : (d.netSend mac b).ports.arp = d.ports.arp := by
  unfold Dev.netSend Dev.netSendTag
  split <;> rfl

@[simp] theorem Dev.arp_arpAsk (d : Dev) (ip : Nat) : (d.arpAsk ip).ports.arp = d.ports.arp := by
  unfold Dev.arpAsk
  dsimp only
  split
  · rfl
  · exact Dev.arp_netSend ..

/-- A packet taken out of a queue changes that queue alone. -/
theorem Dev.takePacket_eq {d e : Dev} {q : Nat} {p : Bytes} (h : d.takePacket q = some (p, e)) : ∃ x, e = d.setQueue q x := by
  unfold Dev.takePacket at h
  dsimp only at h
  split at h
  · cases h
  · cases h; exact ⟨_, rfl⟩

theorem Dev.arp_takePacket {d e : Dev} {q : Nat} {p : Bytes} (h : d.takePacket q = some (p, e)) : e.ports.arp = d.ports.arp := by
  obtain ⟨x, rfl⟩ := Dev.takePacket_eq h
  rfl

@[simp] theorem Dev.arp_drainSession (fuel n : Nat) (d : Dev) : (Dev.drainSession fuel n d).ports.arp = d.ports.arp := by
  induction fuel generalizing d with
  | zero => rfl
  | succ fuel ih =>
    unfold Dev.drainSession
    dsimp only
    split
    · rfl
    · split
      · rename_i taken
        rw [ih, Dev.arp_netSend, Dev.arp_takePacket taken]
      · exact Dev.arp_arpAsk ..
      · rfl

@[simp] theorem Dev.arp_drainSessions (d : Dev) : d.drainSessions.ports.arp = d.ports.arp :=
  foldl_keeps (·.ports.arp) _ _ d fun d i => Dev.arp_drainSession 8 (16 + i) d

@[simp] theorem Dev.arp_dropPackets (d : Dev) (q n : Nat) : (d.dropPackets q n).ports.arp = d.ports.arp := by
  induction n generalizing d with
  | zero => rfl
  | succ n ih =>
    unfold Dev.dropPackets
    split
    · rename_i taken
      rw [ih, Dev.arp_takePacket taken]
    · rfl

@[simp] theorem Dev.arp_telDatagram (d : Dev) (q : Nat) : (d.telDatagram q).ports.arp = d.ports.arp := by
  unfold Dev.telDatagram
  dsimp only
  split
  · rfl
  · split
    · rw [Dev.arp_dropPackets, Dev.arp_netSend]
    · exact Dev.arp_arpAsk ..

@[simp] theorem Dev.arp_telDrain (n q : Nat) (d : Dev) : (Dev.telDrain n q d).ports.arp = d.ports.arp := by
  induction n generalizing d with
  | zero => rfl
  | succ n ih =>
    unfold Dev.telDrain
    split
    · rw [ih, Dev.arp_telDatagram]
    · split
      · exact Dev.arp_telDatagram ..
      · rfl

/-- What waits for the network port leaves without a change of the resolved addresses. -/
@[simp] theorem Dev.arp_netResume (d : Dev) : d.netResume.ports.arp = d.ports.arp := by
  unfold Dev.netResume Dev.telDrainAll
  dsimp only
  rw [foldl_keeps (·.ports.arp) _ _ _ fun d k => Dev.arp_telDatagram d (48 + k),
    foldl_keeps (·.ports.arp) _ _ _ fun d k => Dev.arp_telDrain _ (48 + k) d, Dev.arp_drainSessions]

/-- A destination resolved stands among the port's entries with its address and the instant (R119). -/
theorem Dev.mem_arpResolve (d : Dev) (ip mac : Nat) : (ip, mac, d.up) ∈ (d.arpResolve ip mac).ports.arp := by
  unfold Dev.arpResolve
  dsimp only
  rw [Dev.arp_netResume]
  dsimp only
  split
  · rename_i known
    obtain ⟨x, hx, same⟩ := List.any_eq_true.mp known
    exact List.mem_map.mpr ⟨x, hx, if_pos (beq_iff_eq.mp same)⟩
  · exact List.mem_cons_self ..

/-! ## The network port (R93, R106, R119, R469) -/

section
variable {d : Dev} {n : NetHead}

/-- A port that sends puts a frame behind those it has sent. -/
theorem Dev.netSend_runs (mac : Nat) (body : NetBody) (runs : d.netRuns = true) :
    d.netSend mac body =
      { d with ports := { d.ports with netOut := d.ports.netOut ++ [{ mac := mac, tag := d.netTag, body := body }] } } :=
  if_pos runs

/-- A port that accepts a frame sends, too. -/
theorem Dev.netRuns_of_frameOk {request : Bool} (ok : d.frameOk n request = true) : d.netRuns = true := by
  simp only [Dev.frameOk, Bool.and_eq_true] at ok
  obtain ⟨⟨runs, -⟩, -⟩ := ok
  exact runs

variable {port srcPort : BitVec 16} {bytes : Bytes}

/-- A whole datagram to the node's own address and the command port is taken as a packet (R93). -/
theorem Dev.datagram_own (toPort : port.toNat = d.rd F.cmdUdpPort) (active : d.portActive (.net (netAddrOf n srcPort)) = true)
    (own : n.dstIp.toNat = d.netIp) :
    d.datagram n port srcPort false bytes = d.takeBytes (.net (netAddrOf n srcPort)) none bytes := by
  simp [Dev.datagram, toPort, active, own]

/-- A fragment, or a datagram that is not unicast, is discarded at the command port (R93). -/
theorem Dev.datagram_discarded {fragment : Bool} (toPort : port.toNat = d.rd F.cmdUdpPort)
    (active : d.portActive (.net (netAddrOf n srcPort)) = true)
    (bad : (n.dstIp.toNat = d.netIp ∧ fragment = true) ∨ d.notUnicast n.dstIp.toNat = true) :
    d.datagram n port srcPort fragment bytes = d.discardPacket (.net (netAddrOf n srcPort)) (d.rd F.cmdLastFraming 1) := by
  obtain ⟨own, rfl⟩ | shared := bad
  · simp [Dev.datagram, toPort, active, own]
  · have other : ¬ n.dstIp.toNat = d.netIp := by
      simp only [Dev.notUnicast, Bool.and_eq_true, bne_iff_ne] at shared
      exact shared.1
    simp [Dev.datagram, toPort, active, shared, other]

/-- A datagram of another length than its packet is discarded with framing error 2 (R89, R93). -/
theorem Dev.takeBytes_net_misfit {a : NetAddr} {via : Option (Nat × Nat × Nat)} (active : d.portActive (.net a) = true)
    (misfit : bytes.length ≠ 16 + leAt bytes 4 2) : d.takeBytes (.net a) via bytes = d.discardPacket (.net a) 2 := by
  by_cases short : bytes.length < 16 + leAt bytes 4 2
  · exact Dev.takeBytes_short active (.inr short)
  · exact Dev.takeBytes_long active (by omega)

end

theorem Dev.session_wr (d : Dev) (f : Fld) (v i n : Nat) : (d.wr f v i).session n = d.session n := rfl

/-- A session closed is not open (R106). -/
theorem Dev.closeSession_not_open (d : Dev) (n : Nat) : ((d.closeSession n).session n).isOpen = false := by
  have closed : ((d.setSession n {}).session n).isOpen = false := by rw [Dev.session_setSession, if_pos rfl]
  unfold Dev.closeSession
  dsimp only
  split
  · rw [Dev.session_wr, closed]
  · exact closed

/-- Settles O35: each row by the condition its frame or its instant meets. -/
theorem networkPortAnswers : Obligations.NetworkPortAnswers := by
  unfold Obligations.NetworkPortAnswers
  intro s t d next sent
  have sends {mac : Nat} {body : NetBody} {x : Dev} (runs : x.netRuns = true) (tag : x.netTag = d.netTag) :
      x.netSend mac body = sent x mac body := by
    rw [Dev.netSend_runs mac body runs, tag]
  refine ⟨?datagram, ?echo, ?arp, ?refresh, fun speed full => rfl, ?timeout, rfl⟩
  case datagram =>
    intro dst src tag port srcPort fragment bytes n from_
    refine ⟨fun other => ?_, fun ok toPort active => ⟨fun own whole => ⟨?_, Dev.takeBytes_net_misfit active⟩, fun bad => ?_⟩⟩
    · exact (exec_commandDatagram ..).trans (event_dev (if_neg (by rw [other]; decide)))
    · subst whole
      exact (exec_commandDatagram ..).trans (event_dev ((if_pos ok).trans (Dev.datagram_own toPort active own)))
    · exact (exec_commandDatagram ..).trans (event_dev ((if_pos ok).trans (Dev.datagram_discarded toPort active bad)))
  case echo =>
    intro src dst tag bytes n ok own
    refine (exec_icmpEcho t src dst tag bytes s).trans (event_dev ?_)
    refine Eq.trans (if_pos ?_) (sends (Dev.netRuns_of_frameOk ok) rfl)
    rw [Bool.and_eq_true, beq_iff_eq]
    exact ⟨ok, own⟩
  case arp =>
    intro src dst tag n own
    have forUs {request : Bool} (ok : d.frameOk n request = true) : ¬ ((!d.frameOk n request) = true ∨ n.dstIp.toNat ≠ d.netIp) := by
      simp [ok, own]
    refine ⟨fun ok => ?request, fun ok known => ⟨?reply, Dev.mem_arpResolve d _ _⟩⟩
    case request =>
      refine (exec_arpFrame t true src dst tag s).trans (event_dev ?_)
      exact (if_neg (by simpa using forUs ok)).trans (sends (Dev.netRuns_of_frameOk ok) rfl)
    case reply =>
      refine (exec_arpFrame t false src dst tag s).trans (event_dev ?_)
      refine (if_neg (by simpa using forUs ok)).trans ((if_neg Bool.false_ne_true).trans (if_pos ?_))
      rw [Bool.or_eq_true]
      exact known
  case refresh =>
    intro entry x held runs due
    refine (exec_arpRefresh t entry s).trans (event_dev ?_)
    dsimp only
    rw [held]
    refine Eq.trans (if_pos ?_) (sends runs rfl)
    rw [Bool.and_eq_true, decide_eq_true_iff]
    exact ⟨runs, due⟩
  case timeout =>
    intro n opened idle
    refine ⟨(exec_netSessionTimeout t n s).trans (event_dev (if_pos ?_)), Dev.closeSession_not_open d _⟩
    rw [Bool.and_eq_true, decide_eq_true_iff]
    exact ⟨opened, idle⟩

/-! ## What leaves fabric time alone -/

section
variable (d : Dev)

@[simp] theorem Dev.clock_bumpBy (f : Fld) (n i : Nat) : (d.bumpBy f n i).clock = d.clock := by simp [Dev.bumpBy]
@[simp] theorem Dev.clock_bumpWrap (f : Fld) (i : Nat) : (d.bumpWrap f i).clock = d.clock := by simp [Dev.bumpWrap]

theorem Dev.clock_bump (f : Fld) (i : Nat) : (d.bump f i).clock = d.clock := by simp

@[simp] theorem Dev.clock_bumpWord (so w : Nat) : (d.bumpWord so w).clock = d.clock := by
  unfold Dev.bumpWord
  split <;> simp

/-- Of two ways that both leave time alone, either does. -/
theorem Dev.clock_ite {c : Prop} [Decidable c] {d a b : Dev} (yes : a.clock = d.clock) (no : b.clock = d.clock) :
    (if c then a else b).clock = d.clock := by
  split
  · exact yes
  · exact no

theorem Dev.clock_raise (source data : Nat) (listed : source < 256) : (d.raise source data).clock = d.clock := by
  obtain ⟨-, -, -, same, -⟩ := (Dev.near_raise d source data listed).keeps
  exact same

/-! ### Publishing -/

/-- An evaluation published raises event source 0x28 at most, besides words. -/
@[simp] theorem Dev.clock_publish (s engine : Nat) (x : SlotEval) (out : Int) (won tracking : Bool) :
    (d.publish s engine x out won tracking).clock = d.clock := by
  unfold Dev.publish
  extract_lets so w sat d1 words d2 d3 d4
  have h1 : d1.clock = d.clock := by simp [d1]
  have h2 : d2.clock = d.clock := (foldl_keeps (·.clock) _ _ d1 fun d e => by simp).trans h1
  have h3 : d3.clock = d2.clock := Dev.clock_ite (Dev.clock_bumpWord ..) rfl
  have h4 : d4.clock = d3.clock := Dev.clock_ite (Dev.clock_bumpWord ..) rfl
  have h : d4.clock = d.clock := h4.trans (h3.trans h2)
  exact Dev.clock_ite ((Dev.clock_raise _ _ _ (by decide)).trans h) h

@[simp] theorem Dev.clock_noteShadow (n : Nat) : (d.noteShadow n).clock = d.clock := by
  unfold Dev.noteShadow
  dsimp only
  split
  · split <;> rfl
  · rfl

@[simp] theorem Dev.clock_sink (s : Nat) (out : Int) : (d.sink s out).clock = d.clock := by
  unfold Dev.sink Dev.writeDuty
  split
  · split
    · rfl
    · exact Dev.clock_noteShadow ..
  · rfl

@[simp] theorem Dev.clock_putJob (old new : Job) : (d.putJob old new).clock = d.clock := rfl
@[simp] theorem Dev.clock_closeJob (j : Job) : (d.closeJob j).clock = d.clock := rfl

@[simp] theorem Dev.clock_publishJob (j : Job) : (d.publishJob j).clock = d.clock := by
  simp [Dev.publishJob]

@[simp] theorem Dev.clock_resolveGroup (cycle grp : Nat) : (d.resolveGroup cycle grp).clock = d.clock := by
  unfold Dev.resolveGroup
  dsimp only
  split
  · rfl
  · rw [foldl_keeps (·.clock) _ _ _ fun d j => by simp]
    refine Dev.clock_ite ((Dev.clock_raise _ _ _ (by decide)).trans ?_) (Dev.clock_ite rfl rfl)
    rw [Dev.clock_bump]
    exact Dev.clock_ite rfl rfl

@[simp] theorem Dev.clock_publishFast (f : FastJob) : (d.publishFast f).clock = d.clock := by
  simp [Dev.publishFast]

@[simp] theorem Dev.clock_trigger (isFed : Nat → Bool) (instant : Nat) : (d.trigger isFed instant).clock = d.clock := rfl

@[simp] theorem Dev.clock_publishOutput (o : ChanOut) : (d.publishOutput o).clock = d.clock := by
  unfold Dev.publishOutput
  dsimp only
  rw [Dev.clock_trigger]
  exact Dev.clock_ite rfl (Dev.clock_raise _ _ _ (by decide))

/-! ### Latching -/

@[simp] theorem Dev.clock_overrun (s engine : Nat) : (d.overrun s engine).clock = d.clock := by
  simp [Dev.overrun, Dev.clock_raise]

@[simp] theorem Dev.clock_overrunJob (j : Job) : (d.overrunJob j).clock = d.clock := by
  unfold Dev.overrunJob
  split
  · rfl
  · rw [Dev.clock_putJob, Dev.clock_overrun]

@[simp] theorem Dev.clock_schedulePoint : d.schedulePoint.clock = d.clock := by
  unfold Dev.schedulePoint
  exact foldl_keeps (·.clock) _ _ _ Dev.clock_overrunJob

@[simp] theorem Dev.clock_setLoop (s : Nat) (x : Loop) : (d.setLoop s x).clock = d.clock := rfl

@[simp] theorem Dev.clock_evalAt (s : Nat) (fast : Bool) (feed read : Nat → Int) (derate : Int) :
    (d.evalAt s fast feed read derate).2.clock = d.clock := rfl

@[simp] theorem Dev.clock_latched (s : Nat) : (d.latched s).clock = d.clock := by simp [Dev.latched]

@[simp] theorem Dev.clock_startJob (j : Job) : (d.startJob j).clock = d.clock := by
  unfold Dev.startJob
  split
  · split
    · rfl
    · rw [Dev.clock_putJob, Dev.clock_overrun]
  · split
    · rfl
    · dsimp only
      rw [Dev.clock_putJob, Dev.clock_latched, Dev.clock_evalAt]

@[simp] theorem Dev.clock_startFast (f : FastJob) : (d.startFast f).clock = d.clock := by
  unfold Dev.startFast
  dsimp only
  split
  · exact Dev.clock_bumpWord ..
  · split
    · rfl
    · dsimp only
      rw [Dev.clock_setLoop, Dev.clock_latched, Dev.clock_evalAt]

/-! ### Revisions -/

@[simp] theorem Dev.clock_countClamp (next : Bool) : (d.countClamp next).clock = d.clock := by
  unfold Dev.countClamp
  exact Dev.clock_ite rfl (by simp [Dev.clock_raise])

@[simp] theorem Dev.clock_sendCell (l ftype addr notBefore : Nat) (dl : Option Nat) (payload : Bytes) (revision : Nat) :
    (d.sendCell l ftype addr notBefore dl payload revision).clock = d.clock := by
  unfold Dev.sendCell
  split <;> rfl

@[simp] theorem Dev.clock_setCell (s : Nat) (x : Cell) : (d.setCell s x).clock = d.clock := rfl
@[simp] theorem Dev.clock_nextCell (s m ph : Nat) : (d.nextCell s m ph).clock = d.clock := rfl

/-- A revision sends frames, counts what it changed, and plans the cell anew. -/
@[simp] theorem Dev.clock_reviseCell (arm : Nat) (r : ArmRef) (epoch pos s : Nat) (fixed : Option Nat) (last : Bool) :
    (d.reviseCell arm r epoch pos s fixed last).clock = d.clock := by
  unfold Dev.reviseCell
  extract_lets c l live size depart tRev e c' mMax m0 m p keep marks es frames next counts sent index ps rev sched numbered framed
    counts' sched' counted old es' cell planned widened clamped clamp shown arm' sched'' plain
  have hFramed : framed.clock = d.clock := foldl_keeps (·.clock) _ _ numbered fun d q => Dev.clock_sendCell ..
  have hCounted : counted.clock = framed.clock := Dev.clock_ite rfl rfl
  have hWidened : widened.clock = counted.clock := by simp [widened, planned]
  have hClamp : clamp.clock = widened.clock := Dev.clock_ite (Dev.clock_countClamp ..) rfl
  have hAll : clamp.clock = d.clock := hClamp.trans (hWidened.trans (hCounted.trans hFramed))
  have hPlain : plain.clock = d.clock := by simp [plain, hAll]
  exact Dev.clock_ite rfl (Dev.clock_ite (by simp [Dev.clock_raise])
    (Dev.clock_ite hAll (Dev.clock_ite (by simp [hPlain]) hPlain)))

@[simp] theorem Dev.clock_reviseArm (arm : Nat) (first : Option Nat) : (d.reviseArm arm first).clock = d.clock := by
  unfold Dev.reviseArm
  extract_lets v last r revised twin counted lead order now nextOut
  have hRevised : revised.clock = d.clock := by simp [revised]
  refine Dev.clock_ite rfl ((foldl_keeps (·.clock) _ _ counted fun d x => ?_).trans hRevised)
  exact Dev.clock_ite (by simp) (by simp)

@[simp] theorem Dev.clock_reviseFor (slot : Nat) : (d.reviseFor slot).clock = d.clock := by
  unfold Dev.reviseFor
  exact Dev.clock_ite (foldl_keeps (·.clock) _ _ d fun d a => Dev.clock_reviseArm ..) rfl

end

/-! ## A step of the block (R196) -/

/-- A step of the control engine takes no fabric time. -/
theorem Dev.clock_engineStep (d : Dev) (x : EngStep) : (d.engineStep x).clock = d.clock := by
  cases x with
  | output o => exact Dev.clock_publishOutput ..
  | publish j => exact Dev.clock_publishJob ..
  | resolve cycle grp => exact Dev.clock_resolveGroup ..
  | fastDone f => exact (Dev.clock_reviseFor ..).trans (Dev.clock_publishFast ..)
  | schedule => exact Dev.clock_schedulePoint ..
  | fastStart f => exact Dev.clock_startFast ..
  | start j => exact Dev.clock_startJob ..

/-- The steps of the control engine that are due by an instant do not take the counter past it. -/
theorem Dev.engineSteps_now (fuel t : Nat) (d : Dev) (h : d.now ≤ t) : (Dev.engineSteps fuel t d).now ≤ t := by
  induction fuel generalizing d with
  | zero => exact h
  | succ fuel ih =>
    unfold Dev.engineSteps
    split
    · split
      · rename_i at_ x _ due
        have reached : ((d.reach at_).engineStep x).now = max d.now at_ := congrArg (·.now) (Dev.clock_engineStep _ x)
        exact ih _ (by omega)
      · exact h
    · exact h

/-- A command at an instant that is not past finds the counter there (R196, R200). -/
theorem Dev.now_advance {d : Dev} {t : Nat} (runs : d.timeRuns = true) (h : d.now ≤ t) : (d.advance t).now = t := by
  have done : (d.engineTo (max d.now t)).now ≤ max d.now t := Dev.engineSteps_now _ _ d (Nat.le_max_left ..)
  rw [Nat.max_eq_right h] at done
  have advanced : d.advance t = (d.engineTo (max d.now t)).reach t := if_pos runs
  rw [advanced, Nat.max_eq_right h]
  exact Nat.max_eq_right done

/-- An EDGE cycle never takes the counter back, whatever TIME.RATE is (R196). -/
theorem Dev.now_le_edgeTick (d : Dev) : d.now ≤ d.edgeTick.now := Nat.le_add_right ..

/-- A cycle without a command ends where its EDGE cycle ends. -/
theorem Dev.now_idleTick {d : Dev} (runs : d.timeRuns = true) : d.idleTick.now = d.edgeTick.now :=
  Dev.now_advance runs d.now_le_edgeTick

theorem step_cons {s : State} {c : Instr} {rest : List Instr} (front : s.pending = c :: rest) :
    step s = exec c { s with pending := rest } := by
  unfold step
  rw [front]

theorem step_nil {s : State} (empty : s.pending = []) : step s = .next s.idle := by
  unfold step
  rw [empty]

/-- Settles O52: by the queue, and where it is empty by whether time runs. -/
theorem stepRunsTheFrontCommand : Obligations.StepRunsTheFrontCommand := by
  unfold Obligations.StepRunsTheFrontCommand
  refine ⟨fun s c rest => step_cons rfl, fun s c rest => step_cons, fun s empty => ?_⟩
  refine ⟨fun stopped => ?_, fun runs => ⟨?_, ?_, ?_⟩⟩
  · rw [step_nil empty, State.idle, if_neg (by rw [stopped]; decide)]
  · rw [step_nil empty, State.idle, if_pos runs]
  · exact Dev.now_idleTick runs
  · rw [Dev.now_idleTick runs]
    exact s.dev.now_le_edgeTick

end Sys2Proof.Machine
end

section
/-!
PROOFS. The family 05_basket_commit_readback: what staging leaves in the Basket (R120 to R122), and how a commit is checked, armed and
cancelled (R124 to R134). Each handler is a list of checks and then one answer: its lemma says the answer where no check refuses.
-/
namespace Sys2Proof.Machine

/-- Two lists of checks, one after the other, refuse nothing where neither does. -/
theorem passes_append {xs ys : List (Option HRes)} (first : passes xs) (second : passes ys) : passes (xs ++ ys) :=
  List.forall_mem_append.mpr ⟨first, second⟩

/-! ## Staging (R120 to R122) -/

/-- The Basket takes bits that neither its owner, an armed commit nor its size refuses (R122). -/
theorem Dev.stageBits_merges {d : Dev} {c : Ctx} {bits : List (Nat × (Word × Word))}
    (unrefused : passes (d.stageRefusals c (bits.map fun x => (x.1 / 65536, x.1 % 65536))))
    (room : (bits.foldl stageOne d.basket.words).length ≤ 131072) :
    d.stageBits c bits =
      .reply stOk [] (d.rebasket c.ticket.session (bits.foldl stageOne d.basket.words) d.basket.badEntries) :=
  orRefuse_passes _ _ (passes_append unrefused (passes_refuseIf (decide_eq_false (Nat.not_lt.mpr room)) passes_nil))

/-- An opcode that stages some bits after checks of its own: admitted and unrefused, it merges them into the Basket and answers OK. -/
theorem Pkt.opcode_stages (p : Pkt) (s : State) (h : Handler) (checks : List (Option HRes)) (bits : List (Nat × (Word × Word)))
    (stages : h (p.ctx s) (p.taken s) = orRefuse checks ((p.taken s).stageBits (p.ctx s) bits))
    (free : p.Admitted s ∧ passes ((p.taken s).stageRefusals (p.ctx s) (bits.map fun x => (x.1 / 65536, x.1 % 65536)))
      ∧ (bits.foldl stageOne (p.taken s).basket.words).length ≤ 131072)
    (own : passes checks) :
    opcode p.op p.t p.src p.hd p.payload p.need h s = .next (p.answered s ((p.taken s).rebasket p.hd.session.toNat
      (bits.foldl stageOne (p.taken s).basket.words) (p.taken s).basket.badEntries) stOk []) := by
  obtain ⟨admitted, unrefused, room⟩ := free
  have answer := (stages.trans (orRefuse_passes _ _ own)).trans (Dev.stageBits_merges unrefused room)
  exact p.opcode_answers s h stOk [] _ admitted answer (Nat.zero_le _)

/-- UNSTAGE of a range that exists, in a Basket that neither its owner nor an armed commit keeps from it, takes the range out. -/
theorem hUnstage_unstages {so first count : BitVec 16} {c : Ctx} {d : Dev}
    (exist : rangeExists so.toNat first.toNat count.toNat d = none)
    (unrefused : passes (d.stageRefusals c [(so.toNat, first.toNat)])) :
    hUnstage so first count c d = .reply stOk [] (d.rebasket c.ticket.session
      (d.basket.words.filter fun e => !inWordRange so first count (e.1 / 65536) (e.1 % 65536))
      (d.basket.badEntries.filter fun e => !inWordRange so first count e.1 e.2.1)) :=
  orRefuse_passes _ _ (passes_append (List.forall_mem_singleton.mpr exist) unrefused)

/-- Settles O3: the three writes stage their bits after checks of their own, and UNSTAGE filters its range out. -/
theorem stagingReachesTheBasket : Obligations.StagingReachesTheBasket := by
  unfold Obligations.StagingReachesTheBasket
  intro s t src h staged free
  refine ⟨?stageWords, ?stageFields, ?stageModeReq, ?unstage⟩
  case stageWords =>
    intro so first values p fine own
    rw [exec_stageWords]
    exact p.opcode_stages s (hStageWords so first values) _ _ rfl fine own
  case stageFields =>
    intro entries p fine own
    rw [exec_stageFields]
    exact p.opcode_stages s (hStageFields entries) _ _ rfl fine own
  case stageModeReq =>
    intro mode p bits fine inRange
    rw [exec_stageModeReq]
    exact p.opcode_stages s (hStageModeReq mode) _ _ rfl fine
      (List.forall_mem_singleton.mpr (if_neg (Nat.not_lt.mpr inRange)))
  case unstage =>
    intro so first count p hit admitted exist unrefused
    rw [exec_unstage]
    exact p.opcode_answers s (hUnstage so first count) _ _ _ admitted (hUnstage_unstages exist unrefused) (Nat.zero_le _)

/-! ## Commits (R124 to R134) -/

/-- The report of CHECK holds as many entries as fit the port (R126). -/
theorem Dev.checkReply_fits (d : Dev) (src : Src) : (d.checkReply src).length ≤ replyLimit src := by
  have room := replyLimit_ge src
  have entries := records_fit d.basket.report
    (fun e => le 2 e.2.1 ++ le 2 e.1 ++ le 1 e.2.2.2 ++ le 1 e.2.2.1 ++ zeros 2) (replyLimit src - 16) 8 (by simp)
  unfold Dev.checkReply
  dsimp only
  rw [List.length_append, natsBytes_length, Dev.readRange_length]
  omega

/-- COMMIT_NOW that nothing refuses and whose CHECK passes is parked, the Basket armed for the first boundary after preload
(R127, R129). -/
theorem hCommitNow_parks {c : Ctx} {d : Dev} (unrefused : passes (d.commitRefusals c))
    (passed : (d.runCheck (d.judgeAuth c.ticket.session)).rd F.stgCkPass ≠ 0) :
    hCommitNow c d =
      let k := d.runCheck (d.judgeAuth c.ticket.session)
      .park .commit (k.arm (k.boundaryCeil (k.preloadEnd + 1)) .now c.ticket.session) :=
  (orRefuse_passes _ _ unrefused).trans (if_neg passed)

/-- An instant that COMMIT_AT can name (R130): of a known kind, with no bit set above its value, its nanoseconds within a second. -/
def instantNamed (kind : Nat) (instant : BitVec 80) : Prop :=
  kind ≤ 2 ∧ (kind < 2 → instant.toNat < 2 ^ 64) ∧ (kind = 2 → instant.toNat / 2 ^ 48 < 1000000000)

/-- An instant x for which the block, its CHECK passed, can be armed (R127, R130): network time is valid where it is meant, x is not
past, and the boundary it names comes after preload and within its furthest. -/
def Dev.armable (k : Dev) (kind x : Nat) : Prop :=
  (kind = 2 → k.on F.timeNetValid = true) ∧ k.now ≤ x ∧ k.boundaryCeil x ≤ k.now + 36000000000000 ∧ k.preloadEnd < k.boundaryCeil x

/-- COMMIT_AT that nothing refuses, of an instant it can name, whose CHECK passes for a block that can be armed, arms the boundary of
the instant and answers with it (R127, R130). -/
theorem hCommitAt_arms {kind : Byte} {instant : BitVec 80} {c : Ctx} {d : Dev} (named : instantNamed kind.toNat instant)
    (unrefused : passes (d.commitRefusals c)) (passed : (d.runCheck (d.judgeAuth c.ticket.session)).rd F.stgCkPass ≠ 0)
    (armable : (d.runCheck (d.judgeAuth c.ticket.session)).armable kind.toNat
      ((d.runCheck (d.judgeAuth c.ticket.session)).commitInstant kind.toNat instant)) :
    hCommitAt kind instant c d =
      let k := d.runCheck (d.judgeAuth c.ticket.session)
      let r := k.boundaryCeil (k.commitInstant kind.toNat instant)
      .reply stAccepted (le 8 r) (k.arm r .at c.ticket.session) := by
  obtain ⟨known, noHighBits, nanos⟩ := named
  obtain ⟨netValid, notPast, near, preloaded⟩ := armable
  have noBadInstant : (decide (kind.toNat < 2) && decide (2 ^ 64 ≤ instant.toNat)) = false := by
    simpa using noHighBits
  have noBadNanos : (kind.toNat == 2 && decide (1000000000 ≤ instant.toNat / 2 ^ 48)) = false := by
    simpa using nanos
  unfold hCommitAt
  dsimp only
  rw [orRefuse_passes _ _ (passes_append (passes_refuseIf (decide_eq_false (Nat.not_lt.mpr known))
    (passes_refuseIf noBadInstant (passes_refuseIf noBadNanos passes_nil))) unrefused)]
  rw [if_neg passed, if_neg (by simpa using netValid), if_neg (Nat.not_lt.mpr notPast), if_neg (Nat.not_lt.mpr near),
    if_neg (Nat.not_le.mpr preloaded)]

/-- DISARM by the owner of an armed Basket cancels the commit (R133). -/
theorem hDisarm_cancels {c : Ctx} {d : Dev} (owned : d.rd F.stgOwner = c.ticket.session) (armed : d.on F.stgArmed = true) :
    hDisarm c d = .reply stOk [] (d.cancelCommit 0x3B) :=
  orRefuse_passes _ _ (passes_refuseIf (by simp [owned]) (passes_refuseIf (by simp [armed]) passes_nil))

/-- DISCARD by the owner of a Basket cancels its commit, empties it and counts a version, whether or not it held a word (R134, log
entry 165). -/
theorem hDiscard_empties {c : Ctx} {d : Dev} (owned : d.rd F.stgOwner = c.ticket.session) (owner : d.rd F.stgOwner ≠ 0xFF) :
    hDiscard c d = .reply stOk []
      ((((d.cancelCommit 0x3C).emptyBasket.wr F.fltEvcArm 0).bumpWrap F.stgVersion).wr F.stgChecked 0) := by
  have changed : (!d.basket.words.isEmpty || !d.basket.badEntries.isEmpty || d.rd F.stgOwner != 0xFF) = true := by
    simp [owner]
  unfold hDiscard
  dsimp only
  rw [if_pos changed]
  exact orRefuse_passes _ _ (passes_refuseIf (by simp [owned]) passes_nil)

/-- Settles O4: by what each handler answers where its checks pass. -/
theorem commitsAreArmedAndCancelled : Obligations.CommitsAreArmedAndCancelled := by
  unfold Obligations.CommitsAreArmedAndCancelled
  intro s t src h p d checked
  refine ⟨fun a => ?check, fun a unrefused passed => ?commitNow, fun kind instant => ?commitAt, fun a owned armed => ?disarm,
    fun a owned owner => ?discard⟩
  case check =>
    rw [exec_check]
    exact (p 0x20).opcode_answers s hCheck _ _ _ a rfl (Dev.checkReply_fits _ src)
  case commitNow =>
    rw [exec_commitNow]
    exact (p 0x22).opcode_parks s hCommitNow _ _ a (hCommitNow_parks unrefused passed)
  case commitAt =>
    intro p k x a known noHighBits network unrefused passed notPast near preloaded
    have named : instantNamed kind.toNat instant := ⟨known, noHighBits, fun isNet => (network isNet).1⟩
    have armable : k.armable kind.toNat x := ⟨fun isNet => (network isNet).2, notPast, near, preloaded⟩
    rw [exec_commitAt]
    exact p.opcode_answers s (hCommitAt kind instant) _ _ _ a (hCommitAt_arms named unrefused passed armable)
      (fits_of_le src (by simp))
  case disarm =>
    rw [exec_disarm]
    exact (p 0x26).opcode_answers s hDisarm _ _ _ a (hDisarm_cancels owned armed) (Nat.zero_le _)
  case discard =>
    rw [exec_discard]
    exact (p 0x27).opcode_answers s hDiscard _ _ _ a (hDiscard_empties owned owner) (Nat.zero_le _)

end Sys2Proof.Machine
end

section
/-!
PROOFS. The family 06_tabward_phy: the opcodes of lanes and units (R157, R161, R248, R249).
-/
namespace Sys2Proof.Machine

/-! ## Lanes and units that an opcode names -/

/-- A lane that the variant has is not refused. -/
theorem Dev.laneRefusals_pass {d : Dev} {l : Nat} (present : d.lanePresent l = true) (known : l < 55) : passes (d.laneRefusals l) :=
  passes_refuseIf (by simp [present]) (passes_refuseIf (decide_eq_false (by omega)) passes_nil)

/-- A cell slot that the unit map populates is not refused. -/
theorem Dev.cellRefusals_pass {d : Dev} {s : Nat} (known : s < 96) (populated : d.populated s = true) : passes (d.cellRefusals s) :=
  passes_refuseIf (by simp [Dev.slotPresent, populated]) (passes_refuseIf (decide_eq_false (by omega)) passes_nil)

/-- LANE_LOOPBACK of a lane of SERVICE, which for kind 3 is UP, begins the loopback named or ends the one it is in (R161). -/
theorem hLaneLoopback_acts {lane kind : Byte} (c : Ctx) {d : Dev} (present : d.lanePresent lane.toNat = true)
    (known : lane.toNat < 55) (inRange : kind.toNat ≤ 4) (service : d.mode = .service)
    (linkUp : kind.toNat = 3 → d.laneUp lane.toNat = true) :
    hLaneLoopback lane kind c d = .reply stOk []
      (if kind.toNat = 0 then d.endLoopback lane.toNat else d.loopbackOn lane.toNat kind.toNat) := by
  have upForThree : (kind.toNat == 3 && !d.laneUp lane.toNat) = false := by
    by_cases three : kind.toNat = 3
    · simp [linkUp three]
    · simp [three]
  exact orRefuse_passes _ _ (passes_append (Dev.laneRefusals_pass present known)
    (passes_refuseIf (decide_eq_false (Nat.not_lt.mpr inRange))
      (passes_refuseIf (by rw [service]; rfl) (passes_refuseIf upForThree passes_nil))))

/-- LANE_RETRAIN in HELD or SERVICE clears its two fields at once and leaves an enabled lane due to restart (R157, log entry 151). -/
theorem hLaneRetrain_acts {lane : Byte} (c : Ctx) {d : Dev} (present : d.lanePresent lane.toNat = true) (known : lane.toNat < 55)
    (still : d.mode = .held ∨ d.mode = .service) :
    let e := (d.wr F.laneRateLimited 0 lane.toNat).wr F.laneAttempts 0 lane.toNat
    hLaneRetrain lane c d = .reply stAccepted []
      (if e.on F.laneEn lane.toNat then e.setLane lane.toNat { e.lane lane.toNat with restartDue := true } else e) := by
  have inMode : (d.mode != .held && d.mode != .service) = false := by
    obtain held | service := still
    · rw [held]; rfl
    · rw [service]; rfl
  exact orRefuse_passes _ _ (passes_append (Dev.laneRefusals_pass present known) (passes_refuseIf inMode passes_nil))

/-- UNIT_BYPASS of a cell that is not bypassed yet and that its arm can spare makes it bypass-pending (R248). -/
theorem hUnitBypass_acts {slot : Byte} (c : Ctx) {d : Dev} (known : slot.toNat < 96) (populated : d.populated slot.toNat = true)
    (notPending : (d.cell slot.toNat).stage ≠ 2) (notBypassed : (d.cell slot.toNat).stage ≠ 3)
    (spared : d.bypassLeavesFew slot.toNat = false) :
    hUnitBypass slot c d = .reply stAccepted [] (d.bypassPending slot.toNat 0) := by
  refine (orRefuse_passes _ _ (Dev.cellRefusals_pass known populated)).trans ?_
  simp [notPending, notBypassed, spared]

/-- UNIT_REINSERT of a cell that meets R249 and that no class holds is accepted. -/
theorem hUnitReinsert_acts {slot : Byte} (c : Ctx) {d : Dev} (known : slot.toNat < 96) (populated : d.populated slot.toNat = true)
    (ready : d.reinsertable slot.toNat = true) (free : d.bypassCaused slot.toNat = false) :
    hUnitReinsert slot c d =
      .reply stAccepted [] (d.setCell slot.toNat { d.cell slot.toNat with reinsert := true }) :=
  orRefuse_passes _ _ (passes_append (Dev.cellRefusals_pass known populated)
    (passes_refuseIf (by rw [ready]; rfl) (passes_refuseIf free passes_nil)))

/-- Settles O14: by what each handler answers where its checks pass. -/
theorem laneAndUnitOpcodesAct : Obligations.LaneAndUnitOpcodesAct := by
  unfold Obligations.LaneAndUnitOpcodesAct
  intro s t src h
  refine ⟨fun lane kind => ?loopback, fun lane => ?retrain, fun slot => ?bypass, fun slot => ?reinsert⟩
  case loopback =>
    intro p d a present known inRange service linkUp
    rw [exec_laneLoopback]
    exact p.opcode_answers s (hLaneLoopback lane kind) _ _ _ a (hLaneLoopback_acts _ present known inRange service linkUp)
      (Nat.zero_le _)
  case retrain =>
    intro p d a present known still
    rw [exec_laneRetrain]
    exact p.opcode_answers s (hLaneRetrain lane) _ _ _ a (hLaneRetrain_acts _ present known still) (Nat.zero_le _)
  case bypass =>
    intro p d a known populated notPending notBypassed spared
    rw [exec_unitBypass]
    exact p.opcode_answers s (hUnitBypass slot) _ _ _ a
      (hUnitBypass_acts _ known populated notPending notBypassed spared) (Nat.zero_le _)
  case reinsert =>
    intro p d a known populated ready free
    rw [exec_unitReinsert]
    exact p.opcode_answers s (hUnitReinsert slot) _ _ _ a (hUnitReinsert_acts _ known populated ready free) (Nat.zero_le _)

end Sys2Proof.Machine
end

section
/-!
PROOFS. The family 06_tabward_phy: what leaves the lanes' bring-up alone (R151 to R153). A raise may queue frames on lanes and
nothing else there; the words of a lane change only where one of its own fields is written.
-/
namespace Sys2Proof.Machine

/-! ## The fields of a lane -/

/-- The state objects that hold the states and the SEQs of the lanes (R163, R194). -/
def laneObjects : List Nat := [0x0200, 0x0211]

/-- A field that every lane has once, in the word of the lane's number. -/
def Fld.perLane (f : Fld) : Bool := f.ok && f.soN == 1 && f.word == 0 && f.stride == 1

/-- A field of a lane's state or of its SEQs. -/
def Fld.ofLane (f : Fld) : Bool := f.perLane && laneObjects.contains f.so

/-- Two fields in different objects, or of different bits. -/
def Fld.clear (f g : Fld) : Bool := decide (f.so ≠ g.so) || decide (f.hi < g.lo) || decide (g.hi < f.lo)

theorem Fld.perLane_of_ofLane {f : Fld} (h : f.ofLane = true) : f.perLane = true := by
  simp only [Fld.ofLane, Bool.and_eq_true] at h
  exact h.1

theorem Fld.ok_of_perLane {f : Fld} (h : f.perLane = true) : f.ok = true := by
  simp only [Fld.perLane, Bool.and_eq_true] at h
  obtain ⟨⟨⟨h, -⟩, -⟩, -⟩ := h
  exact h

theorem Fld.key_perLane {f : Fld} (h : f.perLane = true) (i : Nat) : f.key i = f.so * 65536 + i := by
  simp only [Fld.perLane, Bool.and_eq_true, beq_iff_eq] at h
  obtain ⟨⟨⟨-, one⟩, first⟩, step⟩ := h
  simp [Fld.key, Fld.soAt, Fld.wordAt, wordKey, one, first, step]

/-- A field of a lane stands in an object of the lanes. -/
theorem Fld.key_ofLane {f : Fld} (h : f.ofLane = true) (l : Fin 55) : f.key l / 65536 ∈ laneObjects := by
  have object : f.key l / 65536 = f.so := by
    rw [Fld.key_perLane (Fld.perLane_of_ofLane h)]
    omega
  simp only [Fld.ofLane, Bool.and_eq_true, List.contains_iff_mem] at h
  rw [object]
  exact h.2

/-- A raise writes no field of a lane. -/
theorem Fld.quiet_ofLane {f : Fld} (h : f.ofLane = true) (l : Fin 55) : f.quiet l = true := by
  have apart : ∀ so ∈ laneObjects, so ∉ loudObjects := by decide
  simpa [Fld.quiet] using apart _ (Fld.key_ofLane h l)

/-- The objects after those of the lanes. -/
theorem Fld.key_after_lanes {f : Fld} (h : 0x0211 < f.so) (i : Nat) : f.key i / 65536 ∉ laneObjects := by
  have low : f.so * 65536 ≤ f.key i := by
    simp only [Fld.key, Fld.soAt, Fld.wordAt, wordKey]
    split <;> omega
  have past : 0x0211 < f.key i / 65536 := by omega
  simp only [laneObjects, List.mem_cons, List.not_mem_nil, or_false, not_or]
  omega

/-- A write of one field of a lane leaves its other fields alone. -/
theorem Dev.rd_wr_lane {f g : Fld} (d : Dev) (v : Nat) (l : Fin 55) (hf : f.perLane = true) (hg : g.perLane = true)
    (h : f.clear g = true) : (d.wr f v l).rd g l = d.rd g l := by
  refine Dev.rd_wr_apart d f g v l l (Fld.ok_of_perLane hf) (Fld.ok_of_perLane hg) ?_
  simp only [Fld.clear, Bool.or_eq_true, decide_eq_true_eq, or_assoc] at h
  simp only [Fld.apart, Fld.key_perLane hf, Fld.key_perLane hg, Bool.or_eq_true, decide_eq_true_eq, or_assoc]
  omega

theorem Dev.rd_bump_lane {f g : Fld} (d : Dev) (l : Fin 55) (hf : f.perLane = true) (hg : g.perLane = true)
    (h : f.clear g = true) : (d.bump f l).rd g l = d.rd g l := by
  obtain same | more := d.bump_cases f l
  · rw [same]
  · rw [more, Dev.rd_wr_lane _ _ _ hf hg h]

/-- A value that fits its field reads as it was written. -/
theorem Dev.rd_wr_fits {f : Fld} (d : Dev) {v : Nat} (i : Nat) (hf : f.ok = true) (fits : v < f.size) : (d.wr f v i).rd f i = v :=
  (Dev.rd_wr_same d f v i hf).trans (Nat.mod_eq_of_lt fits)

@[simp] theorem Dev.lane_wr (d : Dev) (f : Fld) (v i l : Nat) : (d.wr f v i).lane l = d.lane l := by simp [Dev.lane]

/-! ## Keeping the lanes -/

/-- A lane without the frames that wait on it. -/
def Lane.bringUp (x : Lane) : Lane := { x with wait := [] }

/-- The second state has the lanes of the first, but for the frames that wait on them, and opens no session. -/
structure Dev.KeepsLanes (d e : Dev) : Prop where
  rd : ∀ (f : Fld) (l : Fin 55), f.ofLane = true → e.rd f l = d.rd f l
  lane : ∀ l, (e.lane l).bringUp = (d.lane l).bringUp
  closed : ∀ n, (d.session n).isOpen = false → (e.session n).isOpen = false

theorem Dev.KeepsLanes.refl (d : Dev) : d.KeepsLanes d := ⟨fun _ _ _ => rfl, fun _ => rfl, fun _ h => h⟩

theorem Dev.KeepsLanes.trans {a b c : Dev} (h : a.KeepsLanes b) (k : b.KeepsLanes c) : a.KeepsLanes c :=
  ⟨fun f l q => (k.rd f l q).trans (h.rd f l q), fun l => (k.lane l).trans (h.lane l), fun n q => k.closed n (h.closed n q)⟩

theorem Dev.KeepsLanes.ite {p : Prop} [Decidable p] {a b b' : Dev} (h : a.KeepsLanes b) (k : a.KeepsLanes b') :
    a.KeepsLanes (if p then b else b') := by
  split <;> assumption

theorem Dev.KeepsLanes.foldl {α : Type} (f : Dev → α → Dev) (xs : List α) (d : Dev)
    (each : ∀ (d : Dev) x, d.KeepsLanes (f d x)) : d.KeepsLanes (xs.foldl f d) := by
  induction xs generalizing d with
  | nil => exact .refl d
  | cons x t ih => exact (each d x).trans (ih (f d x))

/-- Lanes that differ at most in the frames that wait agree in every other field. -/
theorem Lane.field_of_bringUp {α : Type} {x y : Lane} (h : x.bringUp = y.bringUp) (g : Lane → α)
    (own : ∀ z : Lane, g z.bringUp = g z) : g x = g y := by
  rw [← own x, ← own y, h]

theorem Dev.KeepsLanes.field {α : Type} {d e : Dev} (h : d.KeepsLanes e) (l : Nat) (g : Lane → α)
    (own : ∀ x : Lane, g x.bringUp = g x) : g (e.lane l) = g (d.lane l) := Lane.field_of_bringUp (h.lane l) g own

/-- What has the same words, lanes and sessions. -/
theorem Dev.keepsLanes_of_eq {d e : Dev} (regs : e.regs = d.regs) (lanes : e.lanes = d.lanes) (sessions : e.sessions = d.sessions) :
    d.KeepsLanes e :=
  ⟨fun f l _ => Dev.rd_congr regs f l, fun l => by rw [Dev.lane, Dev.lane, lanes], fun n h => by rwa [Dev.session, sessions]⟩

/-- A near state with the same frames waiting. -/
theorem Dev.Near.keepsLanes {d e : Dev} (h : d.Near e) (lanes : e.lanes = d.lanes) : d.KeepsLanes e := by
  have sessions : e.sessions = d.sessions := by simp only [h.keeps]
  exact ⟨fun f l q => h.rd f l (Fld.quiet_ofLane q l), fun l => by rw [Dev.lane, Dev.lane, lanes],
    fun n k => by rwa [Dev.session, sessions]⟩

theorem Dev.keepsLanes_wr (d : Dev) {f : Fld} (v : Nat) {i : Nat} (h : f.key i / 65536 ∉ laneObjects) :
    d.KeepsLanes (d.wr f v i) := by
  refine ⟨fun g l q => Dev.rd_wr_key d f g v i l fun same => h ?_, fun _ => by rw [Dev.lane_wr],
    fun _ k => by rwa [Dev.session_wr]⟩
  rw [same]
  exact Fld.key_ofLane q l

/-- A write in an object after those of the lanes. -/
theorem Dev.keepsLanes_wr_after (d : Dev) {f : Fld} (v i : Nat) (h : 0x0211 < f.so) : d.KeepsLanes (d.wr f v i) :=
  d.keepsLanes_wr v (Fld.key_after_lanes h i)

theorem Dev.keepsLanes_bump_after (d : Dev) {f : Fld} (i : Nat) (h : 0x0211 < f.so) : d.KeepsLanes (d.bump f i) := by
  obtain same | more := d.bump_cases f i
  · rw [same]
    exact .refl d
  · rw [more]
    exact d.keepsLanes_wr_after _ i h

theorem Dev.keepsLanes_fault (d : Dev) (cls src data : Nat) : d.KeepsLanes (d.fault cls src data) :=
  Dev.keepsLanes_of_eq rfl rfl rfl

theorem Dev.keepsLanes_queueFrame (d : Dev) (l : Nat) (x : TxItem) : d.KeepsLanes (d.queueFrame l x) := by
  refine ⟨fun _ _ _ => rfl, fun m => ?_, fun _ h => h⟩
  unfold Dev.queueFrame
  rw [Dev.lane_setLane]
  split
  · rename_i same
    rw [same]
    rfl
  · rfl

/-! ## Raises (R416 to R419) -/

theorem Dev.lanes_acqLatch (d : Dev) (at_ : Nat) (hit : Nat → Option Nat) : (d.acqLatch at_ hit).lanes = d.lanes := by
  unfold Dev.acqLatch
  split <;> rfl

theorem Dev.lanes_commitInput (d : Dev) : d.commitInput.lanes = d.lanes := by
  unfold Dev.commitInput
  split
  · simp [Dev.arm, Dev.wr64]
  · rfl

theorem Dev.lanes_spill (d : Dev) (q : Nat) : (d.spill q).lanes = d.lanes := by
  unfold Dev.spill
  dsimp only
  split
  · rfl
  · split
    · simp [Dev.dramUsed, Dev.writePage]
    · split
      · simp [Dev.dramUsed, Dev.writePage]
      · rfl

theorem Dev.lanes_putPacket (d : Dev) (q : Nat) (p : Bytes) : (d.putPacket q p).lanes = d.lanes := by
  unfold Dev.putPacket
  refine foldl_keeps (·.lanes) _ _ d fun d e => ?_
  unfold Dev.putEntry
  dsimp only
  split
  · rfl
  · split
    · exact Dev.lanes_spill ..
    · rfl

theorem Dev.lanes_netSend (d : Dev) (mac : Nat) (b : NetBody) : (d.netSend mac b).lanes = d.lanes := by
  unfold Dev.netSend Dev.netSendTag
  split <;> rfl

theorem Dev.lanes_arpAsk (d : Dev) (ip : Nat) : (d.arpAsk ip).lanes = d.lanes := by
  unfold Dev.arpAsk
  dsimp only
  split
  · rfl
  · exact Dev.lanes_netSend ..

theorem Dev.lanes_drainSession (fuel n : Nat) (d : Dev) : (Dev.drainSession fuel n d).lanes = d.lanes := by
  induction fuel generalizing d with
  | zero => rfl
  | succ fuel ih =>
    unfold Dev.drainSession
    dsimp only
    split
    · rfl
    · split
      · rename_i taken
        obtain ⟨x, rfl⟩ := Dev.takePacket_eq taken
        rw [ih, Dev.lanes_netSend]
        rfl
      · exact Dev.lanes_arpAsk ..
      · rfl

theorem Dev.keepsLanes_raiseBase (d : Dev) (e : EvRec) : d.KeepsLanes (d.raiseBase e) := by
  unfold Dev.raiseBase
  extract_lets s noted pending latched up item twin
  have hNoted : d.KeepsLanes noted := Dev.keepsLanes_of_eq rfl rfl rfl
  have hPending : noted.KeepsLanes pending := noted.keepsLanes_wr_after _ _ (by decide)
  have hLatched : pending.KeepsLanes latched := (Dev.near_acqLatch pending _ _).keepsLanes (Dev.lanes_acqLatch ..)
  have hUp : latched.KeepsLanes up := .ite (latched.keepsLanes_queueFrame _ _) (.refl latched)
  have hTwin : up.KeepsLanes twin := .ite (up.keepsLanes_queueFrame _ _) (.refl up)
  refine hNoted.trans (hPending.trans (hLatched.trans (hUp.trans (hTwin.trans (.ite ?_ (.refl twin))))))
  exact (Dev.near_commitInput twin).keepsLanes (Dev.lanes_commitInput twin)

theorem Dev.keepsLanes_notice (d : Dev) (s : Nat) (e : EvRec) : d.KeepsLanes (d.notice s e) := by
  unfold Dev.notice
  extract_lets host q limit p queued
  have hQueued : d.KeepsLanes queued := (Dev.near_putPacket d q p (sessionQueue_lt s)).keepsLanes (Dev.lanes_putPacket ..)
  refine .ite (hQueued.trans (.ite ?_ (.ite ?_ (.refl queued)))) (d.keepsLanes_bump_after 0 (by decide))
  · exact queued.keepsLanes_raiseBase _
  · exact (Dev.near_drainSession _ _ _).keepsLanes (Dev.lanes_drainSession ..)

/-- A raise may queue frames on lanes, and changes nothing else of them. -/
theorem Dev.keepsLanes_raise (d : Dev) (source data : Nat) : d.KeepsLanes (d.raise source data) :=
  (d.keepsLanes_raiseBase _).trans (.foldl _ _ _ fun d s => d.keepsLanes_notice s _)

/-! ## The loss of a reference, of time and of the tree (R69, R76, R203, R368, R370) -/

theorem Dev.keepsLanes_legUpdate (d : Dev) (n : Nat) : d.KeepsLanes (d.legUpdate n) := by
  unfold Dev.legUpdate Dev.legShow
  obtain ⟨x, driven⟩ := Dev.drive2_eq (d.legShow n) n
  have shown : d.KeepsLanes (d.legShow n) := d.keepsLanes_wr_after _ n (by decide)
  have held : (d.legShow n).KeepsLanes ((d.legShow n).setLeg n x) := Dev.keepsLanes_of_eq rfl rfl rfl
  exact driven ▸ shown.trans (held.trans
    ((Dev.keepsLanes_wr_after _ _ n (by decide)).trans (Dev.keepsLanes_wr_after _ _ n (by decide))))

theorem Dev.keepsLanes_legRefresh (d : Dev) (n : Nat) : d.KeepsLanes (d.legRefresh n) := by
  unfold Dev.legRefresh
  have anew (x : Leg) : d.KeepsLanes ((d.setLeg n x).wr F.legP 0 n) :=
    Dev.KeepsLanes.trans (b := d.setLeg n x) (Dev.keepsLanes_of_eq rfl rfl rfl) (Dev.keepsLanes_wr_after _ _ n (by decide))
  refine .ite (.ite (d.keepsLanes_legUpdate n) ((anew _).trans (Dev.keepsLanes_legUpdate _ n))) ?_
  exact (anew _).trans ((Dev.keepsLanes_wr_after _ _ n (by decide)).trans (Dev.keepsLanes_legUpdate _ n))

theorem Dev.keepsLanes_brakeOff (d : Dev) : d.KeepsLanes d.brakeOff := by
  unfold Dev.brakeOff
  dsimp only
  refine .ite (Dev.KeepsLanes.trans ?_ (Dev.keepsLanes_wr_after _ _ 0 (by decide))) (.refl d)
  exact Dev.keepsLanes_of_eq rfl rfl rfl

theorem Dev.keepsLanes_brakeUpdate (d : Dev) : d.KeepsLanes d.brakeUpdate := by
  unfold Dev.brakeUpdate
  refine .ite d.keepsLanes_brakeOff (.ite (.ite d.keepsLanes_brakeOff (.refl d)) (.ite ?_ (.refl d)))
  refine Dev.KeepsLanes.trans (b := { d with brake := { d.brake with onAt := d.now } }) (Dev.keepsLanes_of_eq rfl rfl rfl) ?_
  exact (Dev.keepsLanes_wr_after _ _ 0 (by decide)).trans
    ((Dev.keepsLanes_bump_after _ 0 (by decide)).trans (Dev.keepsLanes_raise ..))

theorem Dev.keepsLanes_loadBand (d : Dev) (entry : Option (Nat × Nat)) : d.KeepsLanes (d.loadBand entry) := by
  unfold Dev.loadBand
  extract_lets clk loaded
  have hLoaded : d.KeepsLanes loaded := Dev.keepsLanes_of_eq rfl rfl rfl
  split
  · exact hLoaded.trans (loaded.keepsLanes_wr _ (by decide))
  · exact hLoaded

theorem Dev.keepsLanes_pllLost (d : Dev) : d.KeepsLanes d.pllLost := by
  unfold Dev.pllLost
  extract_lets table entry clk twin off low stopped
  have hOff : d.KeepsLanes off := Dev.keepsLanes_of_eq rfl rfl rfl
  have hLow : off.KeepsLanes low := (off.keepsLanes_wr _ (by decide)).trans
    ((Dev.keepsLanes_wr _ _ (by decide)).trans (Dev.keepsLanes_loadBand _ entry))
  have hStopped : low.KeepsLanes stopped := (Dev.KeepsLanes.foldl _ _ low fun d n => d.keepsLanes_legRefresh n).trans
    ((Dev.keepsLanes_brakeUpdate _).trans (Dev.keepsLanes_fault ..))
  have all := hOff.trans (hLow.trans hStopped)
  exact .ite (.refl d) (.ite (all.trans (stopped.keepsLanes_raise ..)) all)

theorem Dev.keepsLanes_refFallback (d : Dev) : d.KeepsLanes d.refFallback := by
  unfold Dev.refFallback
  extract_lets back
  have hBack : d.KeepsLanes back := (d.keepsLanes_wr _ (by decide)).trans
    ((Dev.keepsLanes_wr _ _ (by decide)).trans (Dev.keepsLanes_fault ..))
  exact .ite (.refl d) (.ite (hBack.trans back.keepsLanes_pllLost) hBack)

theorem Dev.keepsLanes_closeSession (d : Dev) (s : Nat) : d.KeepsLanes (d.closeSession s) := by
  have closed : d.KeepsLanes (d.setSession s {}) := by
    refine ⟨fun _ _ _ => rfl, fun _ => rfl, fun n h => ?_⟩
    rw [Dev.session_setSession]
    split
    · rfl
    · exact h
  unfold Dev.closeSession
  exact .ite (closed.trans (Dev.keepsLanes_wr _ _ (by decide))) closed

/-- A receiver that loses block lock changes of its lane that bit alone (R148). -/
theorem Dev.keepsLanes_unlock (d : Dev) (l : Nat) : (d.wr F.laneLocked 0 l).KeepsLanes (d.unlock l) := by
  unfold Dev.unlock
  refine .ite (Dev.KeepsLanes.trans (.ite ?_ ?_) (Dev.keepsLanes_refFallback _)) (.refl _)
  · exact Dev.keepsLanes_closeSession ..
  · exact .refl _

theorem Dev.keepsLanes_sourceGone (d : Dev) : d.KeepsLanes d.sourceGone := by
  unfold Dev.sourceGone Dev.sourceLost
  refine .ite (.refl d) (.ite (.refl d) ?_)
  exact (d.keepsLanes_wr_after _ 0 (by decide)).trans ((Dev.keepsLanes_wr_after _ _ 0 (by decide)).trans
    ((Dev.keepsLanes_wr_after _ _ 0 (by decide)).trans
      ((Dev.keepsLanes_raise ..).trans (Dev.keepsLanes_fault ..))))

theorem Dev.keepsLanes_parentGone (d : Dev) : d.KeepsLanes d.parentGone := by
  unfold Dev.parentGone
  extract_lets group noted
  have hNoted : d.KeepsLanes noted := Dev.keepsLanes_of_eq rfl rfl rfl
  refine .ite (hNoted.trans ?_) (.refl d)
  exact (Dev.keepsLanes_wr_after _ _ 0 (by decide)).trans ((Dev.keepsLanes_wr_after _ _ 0 (by decide)).trans
    ((Dev.keepsLanes_fault ..).trans (Dev.keepsLanes_raise ..)))

theorem Dev.keepsLanes_childLost (d : Dev) (n : Nat) : d.KeepsLanes (d.childLost n) := by
  unfold Dev.childLost
  dsimp only
  have forgotten (x : Child) : d.KeepsLanes (d.setChild n x) := Dev.keepsLanes_of_eq rfl rfl rfl
  exact .ite ((forgotten _).trans ((Dev.keepsLanes_wr_after _ _ n (by decide)).trans
    ((Dev.keepsLanes_bump_after _ n (by decide)).trans
      ((Dev.keepsLanes_fault ..).trans (Dev.keepsLanes_raise ..))))) (.refl d)

theorem Dev.keepsLanes_treeDown (d : Dev) (l : Nat) : d.KeepsLanes (d.treeDown l) := by
  unfold Dev.treeDown
  exact .ite d.keepsLanes_parentGone (.ite (d.keepsLanes_childLost _) (.refl d))

theorem Dev.keepsLanes_treeUp (d : Dev) (l : Nat) : d.KeepsLanes (d.treeUp l) := by
  unfold Dev.treeUp
  dsimp only
  have heard (x : Group) : d.KeepsLanes { d with group := x } := Dev.keepsLanes_of_eq rfl rfl rfl
  have reported (n : Nat) (x : Child) : d.KeepsLanes (d.setChild n x) := Dev.keepsLanes_of_eq rfl rfl rfl
  refine .ite (.ite ((heard _).trans (Dev.keepsLanes_wr_after _ _ 0 (by decide))) (heard _)) (.ite (.ite ?_ (.refl d)) (.refl d))
  exact (reported _ _).trans (Dev.keepsLanes_wr_after _ _ _ (by decide))

end Sys2Proof.Machine
end

section
/-!
PROOFS. The family 06_tabward_phy: bring-up (R147 to R149, R151 to R153). Each step of it is said once, as an equation or as the
words it leaves, read through `Dev.KeepsLanes` where it raises events, closes a session or tells the tree.
-/
namespace Sys2Proof.Machine

/-! ## DETECT (R150, R153) -/

/-- A lane in DETECT, at rate 0x0 and without lock. -/
def Dev.detects (d : Dev) (l : Nat) : Prop := d.rd F.laneState l = 1 ∧ d.rd F.laneRate l = 0 ∧ d.rd F.laneLocked l = 0

theorem Dev.KeepsLanes.detects {d e : Dev} (h : d.KeepsLanes e) {l : Fin 55} (k : d.detects l) : e.detects l := by
  obtain ⟨state, rate, locked⟩ := k
  exact ⟨(h.rd _ l rfl).trans state, (h.rd _ l rfl).trans rate, (h.rd _ l rfl).trans locked⟩

/-- A receiver that loses block lock reads as its bit written. -/
theorem Dev.rd_unlock (d : Dev) {f : Fld} (l : Fin 55) (h : f.ofLane = true) :
    (d.unlock l).rd f l = (d.wr F.laneLocked 0 l).rd f l := (d.keepsLanes_unlock l).rd f l h

/-- Entering DETECT writes the state, the rate and the lock of the lane's words. -/
theorem Dev.rd_enterDetect (d : Dev) {f : Fld} (l : Fin 55) (cut : Nat) (h : f.ofLane = true) (state : F.laneState.clear f = true)
    (rate : F.laneRate.clear f = true) (locked : F.laneLocked.clear f = true) (loopback : F.laneLoopback.clear f = true) :
    (d.enterDetect l cut).rd f l = d.rd f l := by
  have own := Fld.perLane_of_ofLane h
  unfold Dev.enterDetect
  dsimp only
  rw [(Dev.keepsLanes_sourceGone _).rd f l h, Dev.rd_wr_lane _ _ _ rfl own loopback, Dev.rd_unlock _ _ h,
    Dev.rd_wr_lane _ _ _ rfl own locked, Dev.rd_wr_lane _ _ _ rfl own rate, Dev.rd_wr_lane _ _ _ rfl own state, Dev.rd_setLane]

theorem Dev.enterDetect_detects (d : Dev) (l : Fin 55) (cut : Nat) : (d.enterDetect l cut).detects l := by
  refine (Dev.keepsLanes_sourceGone _).detects ?_
  refine ⟨?state, ?rate, ?locked⟩
  all_goals rw [Dev.rd_wr_lane _ _ _ rfl rfl rfl, Dev.rd_unlock _ _ rfl]
  case state =>
    rw [Dev.rd_wr_lane _ _ _ rfl rfl rfl, Dev.rd_wr_lane _ _ _ rfl rfl rfl]
    exact Dev.rd_wr_fits _ _ rfl (by decide)
  case rate =>
    rw [Dev.rd_wr_lane _ _ _ rfl rfl rfl]
    exact Dev.rd_wr_fits _ _ rfl (by decide)
  case locked => exact Dev.rd_wr_fits _ _ rfl (by decide)

theorem Dev.restartLane_detects (d : Dev) (l : Fin 55) : (d.restartLane l).detects l := by
  unfold Dev.restartLane
  dsimp only
  split
  · exact (Dev.keepsLanes_treeDown _ _).detects (Dev.enterDetect_detects ..)
  · exact Dev.enterDetect_detects ..

/-! ## Attempts that fail (R153) -/

/-- A lane that carries no frames leaves nothing behind. -/
theorem Dev.leaveUp_unlinked {d : Dev} {l : Nat} (unlinked : d.laneLinked l = false) : d.leaveUp l = d :=
  if_neg (by rw [unlinked]; decide)

/-- A lane back in DETECT with its failed attempt counted. -/
def Dev.attemptCounted (d : Dev) (l : Nat) : Dev :=
  ((d.leaveUp l).wr F.laneAttempts (min 15 (d.rd F.laneAttempts l + 1)) l).enterDetect l (d.lane l).cut

theorem Dev.rd_attempts_attemptCounted (d : Dev) (l : Fin 55) :
    (d.attemptCounted l).rd F.laneAttempts l = min 15 (d.rd F.laneAttempts l + 1) := by
  unfold Dev.attemptCounted
  rw [Dev.rd_enterDetect _ l _ rfl rfl rfl rfl rfl]
  exact Dev.rd_wr_fits _ _ rfl (Nat.lt_of_le_of_lt (Nat.min_le_left ..) (by decide))

theorem Dev.rd_state_attemptCounted (d : Dev) (l : Fin 55) : (d.attemptCounted l).rd F.laneState l = 1 := by
  obtain ⟨state, -, -⟩ := Dev.enterDetect_detects ((d.leaveUp l).wr F.laneAttempts _ l) l (d.lane l).cut
  exact state

/-- The first two failed attempts in a row lead back to DETECT. -/
theorem Dev.attemptFails_again {d : Dev} {l : Nat} (few : d.rd F.laneAttempts l + 1 < 3) : d.attemptFails l = d.attemptCounted l :=
  if_neg (by omega)

/-- The third one leads to FAILED (log entry 24). -/
theorem Dev.attemptFails_third {d : Dev} {l : Nat} (third : ¬ d.rd F.laneAttempts l + 1 < 3) :
    ∃ x, d.attemptFails l = (((d.attemptCounted l).setLane l x).wr F.laneState lsFailed l).wr F.laneRate 7 l :=
  ⟨_, if_pos (by omega)⟩

theorem Dev.rd_attemptFails (d : Dev) (l : Fin 55) :
    (d.attemptFails l).rd F.laneAttempts l = min 15 (d.rd F.laneAttempts l + 1)
      ∧ (d.attemptFails l).rd F.laneState l = if d.rd F.laneAttempts l + 1 < 3 then 1 else 11 := by
  split
  next few =>
    rw [Dev.attemptFails_again few]
    exact ⟨d.rd_attempts_attemptCounted l, d.rd_state_attemptCounted l⟩
  next third =>
    obtain ⟨x, failed⟩ := Dev.attemptFails_third third
    rw [failed, Dev.rd_wr_lane _ _ _ rfl rfl rfl, Dev.rd_wr_lane _ _ _ rfl rfl rfl, Dev.rd_setLane,
      Dev.rd_wr_lane _ _ _ rfl rfl rfl]
    exact ⟨d.rd_attempts_attemptCounted l, Dev.rd_wr_fits _ _ rfl (by decide)⟩

/-! ## Lock (R148, R149) -/

/-- A lane with block lock; U then opens session 32 for the parent, but in a loopback (R103, log entry 16). -/
def Dev.withLock (d : Dev) (l : Nat) : Dev :=
  let e := d.wr F.laneLocked 1 l
  if l = laneU && d.laneState l != lsLoopback then
    { e with clk := { e.clk with refGoodFrom := e.up } }.setSession 32
      { e.session 32 with isOpen := true, auth := e.rd F.cmdParentMaxAuth }
  else e

theorem Dev.rd_withLock (d : Dev) (l : Nat) (f : Fld) (i : Nat) : (d.withLock l).rd f i = (d.wr F.laneLocked 1 l).rd f i := by
  unfold Dev.withLock
  dsimp only
  split <;> rfl

/-- The lock of U opens session 32 with the authority that CMD.PARENT_MAX_AUTH gives. -/
theorem Dev.session_withLock {d : Dev} (notLoop : d.laneState laneU ≠ lsLoopback) :
    ((d.withLock laneU).session 32).isOpen = true ∧ ((d.withLock laneU).session 32).auth = d.rd F.cmdParentMaxAuth := by
  have auth : (d.wr F.laneLocked 1 laneU).rd F.cmdParentMaxAuth = d.rd F.cmdParentMaxAuth :=
    Dev.rd_wr_key _ _ _ _ _ _ (by decide)
  unfold Dev.withLock
  dsimp only
  rw [if_pos (by simp [notLoop]), Dev.session_setSession, if_pos rfl]
  exact ⟨rfl, auth⟩

/-- The state in which a lane waits for lock and that to which lock leads it: EXCHANGE at rate 0x0, VERIFY at a new rate, and UP
from a REHUNT of at most 20 µs (R148, R149). -/
def Dev.lockLeads (d : Dev) (l after : Nat) : Prop :=
  (d.laneState l = 2 ∧ (d.lane l).atNew = false ∧ after = 3) ∨ (d.laneState l = 2 ∧ (d.lane l).atNew = true ∧ after = 5)
    ∨ (d.laneState l = 9 ∧ d.up ≤ (d.lane l).rehuntAt + 20 * ticksUs ∧ after = 7)

theorem Dev.lockLeads.small {d : Dev} {l after : Nat} (h : d.lockLeads l after) : after < F.laneState.size := by
  obtain ⟨-, -, rfl⟩ | ⟨-, -, rfl⟩ | ⟨-, -, rfl⟩ := h <;> decide

theorem Dev.lockLeads.notLoop {d : Dev} {l after : Nat} (h : d.lockLeads l after) : d.laneState l ≠ lsLoopback := by
  obtain ⟨st, -, -⟩ | ⟨st, -, -⟩ | ⟨st, -, -⟩ := h <;> rw [st] <;> decide

/-- Lock completes the step that waits for it. -/
theorem Dev.blockLock_leads {d : Dev} {l after : Nat} (sends : (d.lane l).quiet = false) (climbs : (d.lane l).fallback = false)
    (leads : d.lockLeads l after) :
    ∃ e : Dev, d.blockLock l = e.wr F.laneState after l ∧ e.regs = (d.withLock l).regs
      ∧ e.sessions = (d.withLock l).sessions := by
  unfold Dev.blockLock Dev.withLock
  obtain ⟨st, hunt, rfl⟩ | ⟨st, hunt, rfl⟩ | ⟨st, early, rfl⟩ := leads
  · simp only [st, sends, climbs, hunt]
    exact ⟨_, rfl, rfl, rfl⟩
  · simp only [st, sends, climbs, hunt]
    exact ⟨_, rfl, rfl, rfl⟩
  · have inTime : ¬ (d.lane l).rehuntAt + 20 * ticksUs < d.up := Nat.not_lt.mpr early
    simp only [st, sends, inTime]
    exact ⟨_, rfl, rfl, rfl⟩

/-- A lock later than 20 µs into REHUNT is none: the lane restarts (R149). -/
theorem Dev.blockLock_late {d : Dev} {l : Nat} (sends : (d.lane l).quiet = false) (hunts : d.laneState l = 9)
    (late : (d.lane l).rehuntAt + 20 * ticksUs < d.up) : d.blockLock l = d.restartLane l := by
  unfold Dev.blockLock
  simp only [hunts, sends, late]
  rfl

theorem Dev.session_setLane (d : Dev) (l n : Nat) (x : Lane) : (d.setLane l x).session n = d.session n := rfl

theorem Dev.session_bump (d : Dev) (f : Fld) (i n : Nat) : (d.bump f i).session n = d.session n := by simp [Dev.session]

theorem Dev.unlock_closes {d : Dev} (held : d.on F.laneLocked laneU = true) : ((d.unlock laneU).session 32).isOpen = false := by
  unfold Dev.unlock
  dsimp only
  rw [held, if_pos (by decide)]
  refine (Dev.keepsLanes_refFallback _).closed 32 ?_
  split
  · exact Dev.closeSession_not_open _ 32
  · rename_i shut
    simpa [Dev.session32] using shut

/-- A lock lost in UP leads to REHUNT (R149). -/
theorem Dev.lockLost_rehunts {d : Dev} {l : Fin 55} (up : d.laneUp l = true) :
    ∃ x, d.lockLost l =
      ((((d.unlock l).setLane l x).wr F.laneState lsRehunt l).bump F.laneLockLosses l).sourceGone := by
  have still : (d.unlock l).laneUp l = true := by
    rw [Dev.laneUp, Dev.laneState, d.rd_unlock l rfl, Dev.rd_wr_lane _ _ _ rfl rfl rfl]
    exact up
  exact ⟨_, if_pos (by rw [still]; rfl)⟩

theorem Dev.rd_lockLost {d : Dev} {l : Fin 55} (up : d.laneUp l = true) :
    (d.lockLost l).rd F.laneState l = 9 ∧ (d.lockLost l).rd F.laneLocked l = 0 := by
  obtain ⟨x, lost⟩ := Dev.lockLost_rehunts up
  rw [lost, (Dev.keepsLanes_sourceGone _).rd _ l rfl, (Dev.keepsLanes_sourceGone _).rd _ l rfl, Dev.rd_bump_lane _ _ rfl rfl rfl,
    Dev.rd_bump_lane _ _ rfl rfl rfl, Dev.rd_wr_lane (g := F.laneLocked) _ _ _ rfl rfl rfl, Dev.rd_setLane, d.rd_unlock l rfl]
  exact ⟨Dev.rd_wr_fits _ _ rfl (by decide), Dev.rd_wr_fits _ _ rfl (by decide)⟩

/-- U without lock has no session of the parent (R103). -/
theorem Dev.lockLost_closes {d : Dev} {l : Fin 55} (isU : l.val = laneU) (up : d.laneUp l = true)
    (held : d.on F.laneLocked l = true) : ((d.lockLost l).session 32).isOpen = false := by
  obtain ⟨x, lost⟩ := Dev.lockLost_rehunts up
  rw [lost]
  refine (Dev.keepsLanes_sourceGone _).closed 32 ?_
  rw [isU] at held ⊢
  rw [Dev.session_bump, Dev.session_wr, Dev.session_setLane]
  exact Dev.unlock_closes held

/-! ## TRAIN (R147, R152) -/

/-- A TRAIN block counts for HEARD, and changes nothing else. -/
theorem Dev.noteTrain_counts (d : Dev) (l ph : Nat) :
    (d.noteTrain l ph).regs = d.regs ∧ (d.noteTrain l ph).clock = d.clock
      ∧ ∃ r, (d.noteTrain l ph).lane l = { d.lane l with run := r } := by
  unfold Dev.noteTrain
  dsimp only
  split
  · exact ⟨rfl, rfl, _, rfl⟩
  · exact ⟨rfl, rfl, _, by rw [Dev.lane_setLane, if_pos rfl]⟩

theorem Dev.rd_noteTrain (d : Dev) (l ph : Nat) (f : Fld) (i : Nat) : (d.noteTrain l ph).rd f i = d.rd f i :=
  have ⟨regs, _⟩ := d.noteTrain_counts l ph
  Dev.rd_congr regs f i

/-- A lane in UP whose far end trains anew restarts (R153). -/
theorem Dev.trainBlock_restarts {d : Dev} {l phase caps rate role port : Nat} (valid : trainValid phase caps role = true)
    (up : d.laneUp l = true) (anew : phase % 16 = 1) : d.trainBlock l phase caps rate role port = d.restartLane l := by
  have st : d.laneState l = lsUp := beq_iff_eq.mp up
  unfold Dev.trainBlock
  simp [valid, st, anew]

/-- A lane in EXCHANGE after a TRAIN block that is heard: what the far end states is kept, and the block counted. -/
def Dev.exchangeCounted (d : Dev) (l phase caps role : Nat) : Dev :=
  let y := d.noteTrain l (phase % 16)
  ((y.wr F.laneFarCaps caps l).wr F.laneFarRole role l).setLane l { y.lane l with seen := (d.lane l).seen + 1 }

section
variable {d : Dev} {l phase caps rate role port : Nat}

/-- The eighth TRAIN block heard ends EXCHANGE (R152 step 2). -/
theorem Dev.trainBlock_exchange (valid : trainValid phase caps role = true) (st : d.laneState l = 3) (heard : phase = 17) :
    d.trainBlock l phase caps rate role port =
      if 8 ≤ (d.lane l).seen + 1 then (d.exchangeCounted l phase caps role).exchangeDone l port
      else d.exchangeCounted l phase caps role := by
  subst heard
  obtain ⟨-, -, r, noted⟩ := d.noteTrain_counts l 1
  unfold Dev.trainBlock Dev.exchangeCounted
  simp [valid, st, noted, lsExchange, lsUp]

/-- A valid TRAIN block of a lane in SWITCH that proposes the same rate counts toward its end (R152 step 3). -/
theorem Dev.trainBlock_switch (valid : trainValid phase caps role = true) (st : d.laneState l = 4)
    (sends : (d.lane l).quiet = false) (switch : phase % 16 = 2) (agreed : rate = (d.lane l).target) :
    d.trainBlock l phase caps rate role port =
      let y := d.noteTrain l (phase % 16)
      (y.setLane l { y.lane l with seen := (d.lane l).seen + 1 }).switchDone l := by
  obtain ⟨-, -, r, noted⟩ := d.noteTrain_counts l 2
  unfold Dev.trainBlock
  simp [valid, st, noted, sends, switch, agreed, lsExchange, lsSwitch, lsUp]

/-- A valid TRAIN block states rates of five codes and a ROLE of 0 to 4 (R147). -/
theorem trainValid_bounds (valid : trainValid phase caps role = true) : caps < 32 ∧ role ≤ 4 := by
  simp only [trainValid, Bool.and_eq_true, decide_eq_true_eq] at valid
  obtain ⟨⟨-, caps⟩, role⟩ := valid
  exact ⟨caps, role⟩

theorem Dev.lane_exchangeCounted (d : Dev) (l phase caps role : Nat) :
    ∃ r, (d.exchangeCounted l phase caps role).lane l = { d.lane l with run := r, seen := (d.lane l).seen + 1 } := by
  obtain ⟨-, -, r, noted⟩ := d.noteTrain_counts l (phase % 16)
  exact ⟨r, by simp [Dev.exchangeCounted, noted]⟩

end

/-- A TRAIN block in EXCHANGE writes of the lane's words what the far end states. -/
theorem Dev.rd_exchangeCounted (d : Dev) {l : Fin 55} (phase caps role : Nat) {f : Fld} (own : f.perLane = true)
    (clearCaps : F.laneFarCaps.clear f = true) (clearRole : F.laneFarRole.clear f = true) :
    (d.exchangeCounted l phase caps role).rd f l = d.rd f l := by
  unfold Dev.exchangeCounted
  dsimp only
  rw [Dev.rd_setLane, Dev.rd_wr_lane _ _ _ rfl own clearRole, Dev.rd_wr_lane _ _ _ rfl own clearCaps, Dev.rd_noteTrain]

theorem Dev.far_exchangeCounted (d : Dev) {l : Fin 55} {phase caps role : Nat} (valid : trainValid phase caps role = true) :
    (d.exchangeCounted l phase caps role).rd F.laneFarCaps l = caps
      ∧ (d.exchangeCounted l phase caps role).rd F.laneFarRole l = role := by
  obtain ⟨fitsCaps, fitsRole⟩ := trainValid_bounds valid
  unfold Dev.exchangeCounted
  dsimp only
  rw [Dev.rd_setLane, Dev.rd_setLane, Dev.rd_wr_lane _ _ _ rfl rfl rfl]
  exact ⟨Dev.rd_wr_fits _ _ rfl fitsCaps, Dev.rd_wr_fits _ _ rfl (Nat.lt_of_le_of_lt fitsRole (by decide))⟩

/-! ## The end of EXCHANGE (R152 step 2, R187) -/

/-- A far end of the wrong ROLE fails the attempt. -/
theorem Dev.exchangeDone_mismatch {d : Dev} {l port : Nat} (wrong : d.rd F.laneFarRole l ≠ farRole l) :
    d.exchangeDone l port = ((d.wr F.laneRoleMismatch 1 l).raise 0x13).attemptFails l := if_pos wrong

/-- A lane that carries no frames keeps its other words through a failed attempt. -/
theorem Dev.rd_attemptCounted {d : Dev} {l : Fin 55} (unlinked : d.laneLinked l = false) {f : Fld} (h : f.ofLane = true)
    (attempts : F.laneAttempts.clear f = true) (state : F.laneState.clear f = true) (rate : F.laneRate.clear f = true)
    (locked : F.laneLocked.clear f = true) (loopback : F.laneLoopback.clear f = true) :
    (d.attemptCounted l).rd f l = d.rd f l := by
  unfold Dev.attemptCounted
  rw [Dev.rd_enterDetect _ l _ h state rate locked loopback, Dev.rd_wr_lane _ _ _ rfl (Fld.perLane_of_ofLane h) attempts,
    Dev.leaveUp_unlinked unlinked]

/-- A wrong ROLE shows, and counts as a failed attempt (R187). -/
theorem Dev.rd_exchangeDone_mismatch {d : Dev} {l : Fin 55} {port : Nat} (wrong : d.rd F.laneFarRole l ≠ farRole l)
    (st : d.laneState l = 3) (few : d.rd F.laneAttempts l + 1 < 3) :
    (d.exchangeDone l port).rd F.laneState l = 1 ∧ (d.exchangeDone l port).rd F.laneRoleMismatch l = 1
      ∧ (d.exchangeDone l port).rd F.laneAttempts l = d.rd F.laneAttempts l + 1 := by
  rw [Dev.exchangeDone_mismatch wrong]
  have raised := Dev.keepsLanes_raise (d.wr F.laneRoleMismatch 1 l) 0x13 0
  have attempts : ((d.wr F.laneRoleMismatch 1 l).raise 0x13).rd F.laneAttempts l = d.rd F.laneAttempts l :=
    (raised.rd _ l rfl).trans (Dev.rd_wr_lane _ _ _ rfl rfl rfl)
  have unlinked : ((d.wr F.laneRoleMismatch 1 l).raise 0x13).laneLinked l = false := by
    rw [Dev.laneLinked, Dev.laneState, raised.rd _ l rfl, Dev.rd_wr_lane _ _ _ rfl rfl rfl, ← Dev.laneState, st]
    rfl
  obtain ⟨counted, state⟩ := Dev.rd_attemptFails ((d.wr F.laneRoleMismatch 1 l).raise 0x13) l
  rw [attempts] at counted state
  refine ⟨state.trans (if_pos few), ?_, counted.trans (by omega)⟩
  rw [Dev.attemptFails_again (by omega), Dev.rd_attemptCounted unlinked rfl rfl rfl rfl rfl rfl, raised.rd _ l rfl]
  exact Dev.rd_wr_fits _ _ rfl (by decide)

/-- A lane under the mask of rates that both ends and this attempt allow (R152 step 2). -/
def Dev.masked (d : Dev) (l : Nat) : Dev :=
  d.setLane l { d.lane l with mask := d.rd F.laneFarCaps l &&& d.rd F.laneRateEn l &&& (d.lane l).cut }

/-- A lane noted as crossed with another keeps its rate and its bring-up. -/
theorem Dev.crossed_keeps (d : Dev) (l : Fin 55) (crossed : Bool) :
    let e := if crossed then (d.wr F.frmPortCrossed 1 l).raise 0x17 else d
    e.rd F.laneRate l = d.rd F.laneRate l ∧ (e.lane l).bringUp = (d.lane l).bringUp := by
  dsimp only
  split
  · have raised := Dev.keepsLanes_raise (d.wr F.frmPortCrossed 1 l) 0x17 0
    exact ⟨(raised.rd _ l rfl).trans (Dev.rd_wr_lane _ _ _ rfl rfl rfl), raised.lane l⟩
  · exact ⟨rfl, rfl⟩

/-- A far end of the right ROLE leads to the next step of bring-up. -/
theorem Dev.exchangeDone_agrees {d : Dev} {l : Fin 55} (port : Nat) (right : d.rd F.laneFarRole l = farRole l) :
    ∃ e : Dev, d.exchangeDone l port = e.stepUp l ∧ e.rd F.laneRate l = d.rd F.laneRate l
      ∧ (e.lane l).bringUp = ((d.masked l).lane l).bringUp := by
  obtain ⟨rate, lane⟩ := (d.masked l).crossed_keeps l
    (decide (l.val < 48) && port != if (d.masked l).hasTwin then (d.masked l).rd F.twinIndex else 0)
  exact ⟨_, if_neg fun wrong => wrong right, rate, lane⟩

/-! ## SWITCH and VERIFY (R152 steps 3 and 4) -/

/-- A higher rate of the mask is proposed in SWITCH with 16 blocks. -/
theorem Dev.stepUp_switches {d : Dev} {l : Fin 55} {r : Nat} (climbs : (d.lane l).fallback = false)
    (higher : nextRate (d.lane l).mask (d.rd F.laneRate l) = some r) :
    let e := d.stepUp l
    e.rd F.laneState l = 4 ∧ (e.lane l).target = r ∧ (e.lane l).toSend = 16 ∧ (e.lane l).seen = 0
      ∧ (e.lane l).verified = (d.lane l).verified := by
  have state (e : Dev) : (e.wr F.laneState lsSwitch l).rd F.laneState l = 4 := Dev.rd_wr_fits _ _ rfl (by decide)
  unfold Dev.stepUp
  simp [climbs, higher, state]

/-- With no higher rate the lane sends 8 READY blocks. -/
theorem Dev.stepUp_ready {d : Dev} {l : Fin 55} (climbs : (d.lane l).fallback = false)
    (top : nextRate (d.lane l).mask (d.rd F.laneRate l) = none) :
    let e := d.stepUp l
    e.rd F.laneState l = 5 ∧ (e.lane l).ready = true ∧ (e.lane l).toSend = 8 ∧ (e.lane l).verified = (d.lane l).verified := by
  have state (e : Dev) : (e.wr F.laneState lsVerify l).rd F.laneState l = 5 := Dev.rd_wr_fits _ _ rfl (by decide)
  unfold Dev.stepUp
  simp [climbs, top, state]

/-- VERIFY that passes, and that the far end has shown passed, makes the rate the last verified one and is left for the next
step. -/
theorem Dev.verifyDone_steps {d : Dev} {l : Nat} (st : d.laneState l = 5) (unready : (d.lane l).ready = false)
    (heard : (d.lane l).farHeard = true) :
    ∃ e : Dev, (d.setLane l { d.lane l with passed := true }).verifyDone l = e.stepUp l ∧ e.regs = d.regs
      ∧ e.lane l = { d.lane l with passed := true, verified := d.rd F.laneRate l, atNew := false } := by
  have state (x : Lane) : (d.setLane l x).laneState l = 5 := st
  exact ⟨_, if_pos (by simp [state, unready, heard, lsVerify]), rfl, by simp⟩

/-- The quiet time: no lock, the serialiser at the rate it goes to; the state and the FALLBACK stand. -/
theorem Dev.goQuiet_leaves (d : Dev) (l : Fin 55) (rate : Nat) :
    ((d.goQuiet l rate).lane l).quiet = true ∧ ((d.goQuiet l rate).lane l).quietAt = d.up
      ∧ ((d.goQuiet l rate).lane l).fallback = (d.lane l).fallback ∧ (d.goQuiet l rate).rd F.laneLocked l = 0
      ∧ (d.goQuiet l rate).rd F.laneRate l = rate % 8 ∧ (d.goQuiet l rate).rd F.laneState l = d.rd F.laneState l := by
  unfold Dev.goQuiet
  extract_lets x e
  have lane : e.lane l = { d.lane l with quiet := true, quietAt := d.up, run := 0, sending := none } := by simp [e, x]
  have unlocked := Dev.keepsLanes_unlock (e.wr F.laneRate rate l) l
  rw [unlocked.field l (·.quiet) fun _ => rfl, unlocked.field l (·.quietAt) fun _ => rfl,
    unlocked.field l (·.fallback) fun _ => rfl, Dev.lane_wr, Dev.lane_wr, lane, unlocked.rd _ l rfl, unlocked.rd _ l rfl,
    unlocked.rd _ l rfl, Dev.rd_wr_lane (g := F.laneRate) _ _ _ rfl rfl rfl, Dev.rd_wr_lane (g := F.laneState) _ _ _ rfl rfl rfl,
    Dev.rd_wr_lane (g := F.laneState) _ _ _ rfl rfl rfl]
  exact ⟨rfl, rfl, rfl, Dev.rd_wr_fits _ _ rfl (by decide), Dev.rd_wr_same _ _ _ _ rfl, Dev.rd_setLane ..⟩

/-- SWITCH ends in the quiet time once 16 blocks are sent and 4 of the far end's have come. -/
theorem Dev.switchDone_quiet {d : Dev} {l : Nat} (st : d.laneState l = 4) (sends : (d.lane l).quiet = false)
    (sent : (d.lane l).toSend = 0) (heard : 4 ≤ (d.lane l).seen) : d.switchDone l = d.goQuiet l (d.lane l).target :=
  if_pos (by simp [st, sends, sent, heard, lsSwitch])

theorem Dev.switchDone_waits {d : Dev} {l : Nat} (waits : (d.lane l).seen < 4 ∨ (d.lane l).toSend ≠ 0) :
    d.switchDone l = d := by
  refine if_neg ?_
  simp only [Bool.and_eq_true, decide_eq_true_eq]
  omega

/-! ## READY and UP (R152 step 4, R153, R176) -/

/-- Entering UP writes the state, the attempts and the SEQs of the lane's words, and LANE.RATE_LIMITED where a FALLBACK keeps the
rate down. -/
theorem Dev.rd_enterUp (d : Dev) {f : Fld} (l : Fin 55) (h : f.ofLane = true) (limited : F.laneRateLimited.clear f = true)
    (fill : F.frmReplayFill.clear f = true) : (d.enterUp l).rd f l =
      (((((d.wr F.laneState lsUp l).wr F.laneAttempts 0 l).wr F.frmTxNext 0 l).wr F.frmTxAcked 0xFF l).wr F.frmRxExpect 0 l).rd
        f l := by
  have own := Fld.perLane_of_ofLane h
  have tree (e : Dev) : ((e.raise 0x10).treeUp l).rd f l = e.rd f l :=
    ((Dev.keepsLanes_raise e 0x10 0).trans (Dev.keepsLanes_treeUp _ l)).rd f l h
  have started (e : Dev) : (e.startFrames l).rd f l =
      (((e.wr F.frmTxNext 0 l).wr F.frmTxAcked 0xFF l).wr F.frmRxExpect 0 l).rd f l :=
    Dev.rd_wr_lane _ 0 l rfl own fill
  unfold Dev.enterUp
  dsimp only
  split
  · rw [(Dev.keepsLanes_raise _ 0x12 0).rd f l h, Dev.rd_wr_lane _ _ _ rfl own limited, tree, started]
    rfl
  · rw [tree, started]
    rfl

/-- The words of a lane that has come UP, with its frame layer anew. -/
theorem Dev.enterUp_leaves (d : Dev) (l : Fin 55) :
    let e := d.enterUp l
    e.rd F.laneState l = 7 ∧ e.rd F.laneAttempts l = 0 ∧ e.rd F.laneRate l = d.rd F.laneRate l ∧ e.rd F.frmTxNext l = 0
      ∧ e.rd F.frmTxAcked l = 255 ∧ e.rd F.frmRxExpect l = 0 := by
  have reads {f : Fld} (h : f.ofLane = true) (limited : F.laneRateLimited.clear f = true) (fill : F.frmReplayFill.clear f = true) :=
    d.rd_enterUp l h limited fill
  dsimp only
  rw [reads rfl rfl rfl, reads rfl rfl rfl, reads rfl rfl rfl, reads rfl rfl rfl, reads rfl rfl rfl, reads rfl rfl rfl]
  simp (disch := decide) [Dev.rd_wr_lane, Dev.rd_wr_fits]
  decide

/-- A lane that carries no frames takes none from the queues. -/
theorem Dev.drain_unlinked {d : Dev} {l : Nat} (unlinked : d.laneLinked l = false) : d.drain l = d :=
  if_pos (by rw [unlinked]; rfl)

/-- A lane that trains sends a TRAIN block at a free block boundary without Douse. -/
theorem Dev.transmit_trains {d : Dev} {l : Nat} (free : (d.lane l).busyUntil ≤ d.up) (calm : (d.lane l).douseLeft = 0)
    (trains : d.trains l = true) : d.transmit l = d.sendTrain l := by
  unfold Dev.transmit
  simp [calm, Nat.not_lt.mpr free, trains]

/-- The last READY block leads to UP. -/
theorem Dev.sendTrain_lastReady {d : Dev} {l : Nat} (st : d.laneState l = 5) (ready : (d.lane l).ready = true)
    (last : (d.lane l).toSend = 1) : ∃ e : Dev, d.sendTrain l = (e.enterUp l).twinRate l ∧ e.regs = d.regs := by
  have state (x : Lane) (u : TxUnit) (block : Bytes) : ((d.setLane l x).oneBlock l u block).laneState l = 5 := st
  unfold Dev.sendTrain
  dsimp only
  rw [state, last, ready]
  exact ⟨_, rfl, rfl⟩

/-- The rate rule of R156 is one of the twin lanes alone. -/
theorem Dev.twinRate_other {d : Dev} {l : Nat} (other : l < 53) : d.twinRate l = d := by
  have notTwin : (l == 53 || l == 54) = false := by simp; omega
  unfold Dev.twinRate
  simp only [notTwin, Bool.false_and]
  rfl

/-- LANE_FRAME_TRANSMIT of the last READY block (R182, R152 step 4). -/
theorem Dev.drain_transmit_lastReady {d : Dev} {l : Nat} (st : d.laneState l = 5) (ready : (d.lane l).ready = true)
    (last : (d.lane l).toSend = 1) (sends : (d.lane l).quiet = false) (calm : (d.lane l).douseLeft = 0)
    (free : (d.lane l).busyUntil ≤ d.up) (other : l < 53) :
    ∃ e : Dev, (d.drain l).transmit l = e.enterUp l ∧ e.regs = d.regs := by
  have unlinked : d.laneLinked l = false := by rw [Dev.laneLinked, st]; rfl
  have trains : d.trains l = true := by rw [Dev.trains, st, sends]; rfl
  obtain ⟨e, sent, regs⟩ := Dev.sendTrain_lastReady st ready last
  refine ⟨e, ?_, regs⟩
  rw [Dev.drain_unlinked unlinked, Dev.transmit_trains free calm trains, sent, Dev.twinRate_other other]

/-! ## The limits of bring-up (R153) -/

/-- The attempt timer, or 200 µs in EXCHANGE. -/
theorem Dev.attemptTimeout_fails {d : Dev} {l : Nat} (st : d.laneState l = 3)
    (late : d.spent (d.lane l).attemptAt (5 * ticksMs) = true ∨ d.spent (d.lane l).stepAt (200 * ticksUs) = true) :
    d.attemptTimeout l = d.attemptFails l := by
  unfold Dev.attemptTimeout
  by_cases attempt : d.spent (d.lane l).attemptAt (5 * ticksMs) = true
  · simp [st, attempt, lsExchange]
  · have step : d.spent (d.lane l).stepAt (200 * ticksUs) = true := late.resolve_left attempt
    simp [st, step, lsExchange]

/-- 100 µs in VERIFY without READY lead to FALLBACK. -/
theorem Dev.attemptTimeout_fallsBack {d : Dev} {l : Nat} (st : d.laneState l = 5) (unready : (d.lane l).ready = false)
    (inTime : d.spent (d.lane l).attemptAt (5 * ticksMs) = false) (late : d.spent (d.lane l).stepAt (100 * ticksUs) = true) :
    d.attemptTimeout l = d.enterFallback l := by
  unfold Dev.attemptTimeout
  simp [st, unready, inTime, late, lsHunt, lsExchange, lsSwitch, lsVerify, lsFallback]

/-- FALLBACK is the lane's state, whether or not its quiet time begins at once (log entry 150). -/
theorem Dev.enterFallback_leaves (d : Dev) (l : Fin 55) :
    (d.enterFallback l).rd F.laneState l = 6 ∧ ((d.enterFallback l).lane l).fallback = true := by
  unfold Dev.enterFallback
  extract_lets x e
  have state : e.rd F.laneState l = 6 := Dev.rd_wr_fits _ _ rfl (by decide)
  have fallback : (e.lane l).fallback = true := by simp [e]
  split
  · obtain ⟨-, -, kept, -, -, stays⟩ := e.goQuiet_leaves l x.verified
    exact ⟨stays.trans state, kept.trans fallback⟩
  · exact ⟨state, fallback⟩

/-! ## Bring-up as a whole -/

/-- The eighth TRAIN block heard from a far end of the wrong ROLE shows the mismatch and fails the attempt (R187). -/
theorem Dev.trainBlock_wrongRole {d : Dev} {l : Fin 55} {phase caps rate role port : Nat}
    (valid : trainValid phase caps role = true) (st : d.laneState l = 3) (heard : phase = 17) (eighth : 7 ≤ (d.lane l).seen)
    (wrong : role ≠ farRole l) (few : d.rd F.laneAttempts l + 1 < 3) :
    let e := d.trainBlock l phase caps rate role port
    e.rd F.laneState l = 1 ∧ e.rd F.laneRoleMismatch l = 1 ∧ e.rd F.laneAttempts l = d.rd F.laneAttempts l + 1 := by
  have attempts : (d.exchangeCounted l phase caps role).rd F.laneAttempts l = d.rd F.laneAttempts l :=
    d.rd_exchangeCounted phase caps role rfl rfl rfl
  have state : (d.exchangeCounted l phase caps role).laneState l = 3 := (d.rd_exchangeCounted phase caps role rfl rfl rfl).trans st
  have far : (d.exchangeCounted l phase caps role).rd F.laneFarRole l ≠ farRole l := by
    obtain ⟨-, stated⟩ := d.far_exchangeCounted valid
    rw [stated]
    exact wrong
  rw [← attempts] at few ⊢
  rw [Dev.trainBlock_exchange valid st heard, if_pos (by omega)]
  exact Dev.rd_exchangeDone_mismatch far state few

/-- The eighth TRAIN block heard from a far end of the right ROLE proposes the next rate that both ends and this attempt allow. -/
theorem Dev.trainBlock_rightRole {d : Dev} {l : Fin 55} {phase caps rate role port r : Nat}
    (valid : trainValid phase caps role = true) (st : d.laneState l = 3) (heard : phase = 17) (eighth : 7 ≤ (d.lane l).seen)
    (right : role = farRole l) (climbs : (d.lane l).fallback = false)
    (higher : nextRate (caps &&& d.rd F.laneRateEn l &&& (d.lane l).cut) (d.rd F.laneRate l) = some r) :
    let e := d.trainBlock l phase caps rate role port
    e.rd F.laneState l = 4 ∧ (e.lane l).target = r ∧ (e.lane l).toSend = 16 ∧ (e.lane l).seen = 0 := by
  obtain ⟨run, lane⟩ := d.lane_exchangeCounted l phase caps role
  obtain ⟨farCaps, farRole⟩ := d.far_exchangeCounted valid
  obtain ⟨e, done, rate_, bringUp⟩ := Dev.exchangeDone_agrees port (farRole.trans right)
  have mask : (e.lane l).mask = caps &&& d.rd F.laneRateEn l &&& (d.lane l).cut := by
    rw [Lane.field_of_bringUp bringUp (·.mask) fun _ => rfl, Dev.masked, Dev.lane_setLane, if_pos rfl, lane, farCaps,
      d.rd_exchangeCounted phase caps role rfl rfl rfl]
  have fallback : (e.lane l).fallback = false := by
    rw [Lane.field_of_bringUp bringUp (·.fallback) fun _ => rfl, Dev.masked, Dev.lane_setLane, if_pos rfl, lane]
    exact climbs
  rw [← mask, ← d.rd_exchangeCounted phase caps role rfl rfl rfl, ← rate_] at higher
  obtain ⟨state, target, toSend, seen, -⟩ := Dev.stepUp_switches fallback higher
  rw [Dev.trainBlock_exchange valid st heard, if_pos (by omega), done]
  exact ⟨state, target, toSend, seen⟩

/-- The fourth SWITCH block of the far end, once the own 16 are sent, begins the quiet time at the rate proposed. -/
theorem Dev.trainBlock_switchEnds {d : Dev} {l : Fin 55} {phase caps rate role port : Nat}
    (valid : trainValid phase caps role = true) (st : d.laneState l = 4) (sends : (d.lane l).quiet = false)
    (switch : phase % 16 = 2) (agreed : rate = (d.lane l).target) (fits : (d.lane l).target ≤ 4) (heard : 3 ≤ (d.lane l).seen)
    (sent : (d.lane l).toSend = 0) :
    let e := d.trainBlock l phase caps rate role port
    (e.lane l).quiet = true ∧ (e.lane l).quietAt = d.up ∧ e.rd F.laneRate l = (d.lane l).target
      ∧ e.rd F.laneLocked l = 0 := by
  obtain ⟨regs, clock, r, noted⟩ := d.noteTrain_counts l (phase % 16)
  let y := d.noteTrain l (phase % 16)
  let e := y.setLane l { y.lane l with seen := (d.lane l).seen + 1 }
  have lane : e.lane l = { d.lane l with run := r, seen := (d.lane l).seen + 1 } := by simp [e, y, noted]
  have state : e.laneState l = 4 := (Dev.rd_congr regs _ _).trans st
  have now : e.up = d.up := by show y.up = d.up; simp only [Dev.up, y, clock]
  have done : e.switchDone l = e.goQuiet l (d.lane l).target := by
    rw [Dev.switchDone_quiet state (by rw [lane]; exact sends) (by rw [lane]; exact sent)
      (by rw [lane]; exact Nat.succ_le_succ heard), lane]
  obtain ⟨quiet, quietAt, -, unlocked, rate_, -⟩ := e.goQuiet_leaves l (d.lane l).target
  rw [Dev.trainBlock_switch valid st sends switch agreed]
  dsimp only
  rw [done]
  exact ⟨quiet, quietAt.trans now, rate_.trans (Nat.mod_eq_of_lt (by omega)), unlocked⟩

/-- A device that the event leads to DETECT. -/
theorem event_detects {t : Nat} {s : State} {f : Dev → Dev} {e : Dev} {l : Nat} (acts : f (s.dev.advance t) = e)
    (k : e.detects l) : ∃ e : Dev, event t s f = .next { s with dev := e } ∧ e.detects l :=
  ⟨e, event_dev acts, k⟩

/-- Settles O39: each event by the step of bring-up that it takes. -/
theorem lanesComeUp : Obligations.LanesComeUp := by
  unfold Obligations.LanesComeUp
  intro s t n d l x next detect
  refine ⟨?signal, ?lock, ?late, ?lost, ?rehunt, ?train, ?quietEnd, ?verify, ?up, ?fallback, ?fails, ?hold⟩
  case signal =>
    intro st
    exact (exec_laneSignalDetect t n s).trans (event_dev (if_pos (beq_iff_eq.mpr st)))
  case lock =>
    intro sends climbs after leads
    have small := Dev.lockLeads.small leads
    obtain ⟨e, locked, regs, sessions⟩ := Dev.blockLock_leads sends climbs leads
    refine ⟨_, (exec_laneBlockLock t n s).trans (event_dev locked), Dev.rd_wr_fits _ _ rfl small, ?_, fun isU => ?_⟩
    · rw [Dev.rd_wr_lane _ _ _ rfl rfl rfl, Dev.rd_congr regs, Dev.rd_withLock]
      exact Dev.rd_wr_fits _ _ rfl (by decide)
    · have notLoop := Dev.lockLeads.notLoop leads
      rw [Dev.session_wr, Dev.session, sessions, isU]
      rw [isU] at notLoop
      exact Dev.session_withLock notLoop
  case late =>
    intro sends st late
    rw [exec_laneBlockLock, execLaneBlockLock]
    exact event_detects (Dev.blockLock_late sends st late) (Dev.restartLane_detects _ n)
  case lost =>
    intro up locked
    obtain ⟨state, unlocked⟩ := Dev.rd_lockLost up
    exact ⟨_, (exec_laneLockLost t n s).trans (event_dev (if_pos locked)), state, unlocked,
      fun isU => Dev.lockLost_closes isU up locked⟩
  case rehunt =>
    intro st late
    rw [exec_rehuntTimeout, execRehuntTimeout]
    exact event_detects (if_pos (by rw [st, late]; rfl)) (Dev.restartLane_detects _ n)
  case train =>
    intro phase caps rate role port count valid y
    have acts {e : Dev} (h : d.trainBlock n phase.toNat caps.toNat rate.toNat role.toNat port.toNat = e) :
        exec (.train t n phase caps rate role port count) s = next e := (exec_train ..).trans (event_dev h)
    refine ⟨fun up anew => ?_, fun st heard more => ?_, fun st heard eighth wrong few => ?_,
      fun r st heard eighth right climbs higher => ?_,
      fun st sends switch agreed fits => ⟨fun ⟨four, sent⟩ => ?_, fun waits => ?_⟩⟩
    · exact ⟨_, acts (Dev.trainBlock_restarts valid up anew), Dev.restartLane_detects _ n⟩
    · exact acts ((Dev.trainBlock_exchange valid st heard).trans (if_neg (Nat.not_le.mpr more)))
    · exact ⟨_, acts rfl, Dev.trainBlock_wrongRole valid st heard eighth wrong few⟩
    · exact ⟨_, acts rfl, Dev.trainBlock_rightRole valid st heard eighth right climbs higher⟩
    · exact ⟨_, acts rfl, Dev.trainBlock_switchEnds valid st sends switch agreed fits four sent⟩
    · obtain ⟨-, -, run, lane⟩ := d.noteTrain_counts l (phase.toNat % 16)
      refine acts ((Dev.trainBlock_switch valid st sends switch agreed).trans (Dev.switchDone_waits ?_))
      rw [Dev.lane_setLane, if_pos rfl, lane]
      exact waits.imp Nat.succ_lt_succ id
  case quietEnd =>
    intro st quiet late
    refine (exec_laneQuietEnd t n s).trans (event_dev (if_pos ?_))
    rw [Bool.and_eq_true, Bool.and_eq_true, Bool.or_eq_true, beq_iff_eq, beq_iff_eq]
    exact ⟨⟨quiet, st⟩, late⟩
  case verify =>
    intro st due unready heard climbs
    obtain ⟨e, done, regs, lane⟩ := Dev.verifyDone_steps st unready heard
    have acts : exec (.laneVerifyPassed t n) s = next (e.stepUp n) := by
      refine (exec_laneVerifyPassed t n s).trans (event_dev ((if_pos ?_).trans done))
      rw [Bool.and_eq_true, beq_iff_eq, decide_eq_true_iff]
      exact ⟨st, due⟩
    have fallback : (e.lane n).fallback = false := by rw [lane]; exact climbs
    have rate : e.rd F.laneRate n = d.rd F.laneRate n := Dev.rd_congr regs _ _
    have verified : (e.lane n).verified = d.rd F.laneRate n := by rw [lane]
    refine ⟨fun r higher => ?_, fun top => ?_⟩
    · obtain ⟨state, target, toSend, -, kept⟩ := Dev.stepUp_switches fallback (by rw [lane, rate]; exact higher)
      exact ⟨_, acts, state, target, toSend, kept.trans verified⟩
    · obtain ⟨state, ready, toSend, kept⟩ := Dev.stepUp_ready fallback (by rw [lane, rate]; exact top)
      exact ⟨_, acts, state, ready, toSend, kept.trans verified⟩
  case up =>
    intro runs st ready last sends calm free other
    obtain ⟨e, sent, regs⟩ := Dev.drain_transmit_lastReady st ready last sends calm free other
    refine ⟨e.enterUp n, (exec_laneFrameTransmit t n s).trans (event_dev ((if_pos runs).trans sent)), ?_⟩
    have rate : e.rd F.laneRate n = d.rd F.laneRate n := Dev.rd_congr regs _ _
    rw [← rate]
    exact e.enterUp_leaves n
  case fallback =>
    intro st unready inTime late
    exact ⟨_, (exec_laneAttemptTimeout t n s).trans (event_dev (Dev.attemptTimeout_fallsBack st unready inTime late)),
      Dev.enterFallback_leaves _ n⟩
  case fails =>
    intro st late
    exact ⟨_, (exec_laneAttemptTimeout t n s).trans (event_dev (Dev.attemptTimeout_fails st late)), Dev.rd_attemptFails _ n⟩
  case hold =>
    intro st late
    rw [exec_laneFailedHoldEnd, execLaneFailedHoldEnd]
    exact event_detects (if_pos (by rw [st, late]; rfl)) (Dev.enterDetect_detects _ n 31)

end Sys2Proof.Machine
end

section
/-!
PROOFS. The family 07_tabward_frames: what arrives on a lane (R171, R173, R176, R177). `Dev.receive` is said once, as an equation per
case; each frame row is an instance of it.
-/
namespace Sys2Proof.Machine

/-! ## Lantern looks (R480) -/

/-- The block after Lantern's frame stages have looked at a frame that arrived: not at a VOID one, nor at one of no type listed. -/
def Dev.looked (d : Dev) (l ftype : Nat) (f : RxFrame) : Dev :=
  if f.flags.getLsbD 1 || ftype == 0 then d else d.frameSeen l false d.now (rxBytes ftype f)

section
variable (d : Dev) (l ftype : Nat) (f : RxFrame)

theorem Dev.regs_looked : (d.looked l ftype f).regs = d.regs := by
  unfold Dev.looked
  split
  · rfl
  · exact Dev.regs_acqLatch ..

theorem Dev.clock_looked : (d.looked l ftype f).clock = d.clock := by
  unfold Dev.looked
  split
  · rfl
  · obtain ⟨-, -, -, same, -⟩ := (Dev.near_acqLatch d d.now _).keeps
    exact same

theorem Dev.rd_looked (g : Fld) (i : Nat) : (d.looked l ftype f).rd g i = d.rd g i := Dev.rd_congr (d.regs_looked l ftype f) g i

theorem Dev.up_looked : (d.looked l ftype f).up = d.up := by rw [Dev.up, Dev.up, Dev.clock_looked]

end

/-! ## Reception (R171, R176, R177) -/

/-- A frame of SEQ `expect` accepted: its ACK is due, a NAK no longer, the next SEQ is expected, and a partner is heard. -/
def Dev.accepts (d : Dev) (l expect : Nat) : Dev :=
  let e := (d.setLane l { d.lane l with
    ackDue := some expect, naked := none, nakDue := none, lastFrameAt := d.up }).wr F.frmRxExpect ((expect + 1) % 256) l
  if l = 53 ∨ l = 54 then e.partnerHeard else e

section
variable {d : Dev} {l ftype : Nat} {f : RxFrame} {act : Dev → Dev}

theorem Dev.receive_down (down : d.laneUp l = false) : d.receive l ftype f act = d := by
  unfold Dev.receive
  rw [down]
  rfl

variable (up : d.laneUp l = true)
include up

theorem Dev.receive_badFlags (bad : badFlags l f.flags.toNat = true) :
    d.receive l ftype f act = (d.bump F.frmRxBad l).sendNak l := by
  unfold Dev.receive
  rw [up, bad]
  rfl

variable (good : badFlags l f.flags.toNat = false)
include good

/-- A frame with good flags is sorted by its SEQ. -/
theorem Dev.receive_good :
    d.receive l ftype f act =
      (let seen := d.looked l ftype f
       let expect := d.rd F.frmRxExpect l
       if f.seq.toNat = expect then
         if f.flags.getLsbD 1 then (seen.accepts l expect).bump F.frmRxVoid l else act (seen.accepts l expect)
       else if (expect + 255 - f.seq.toNat) % 256 < 32 then
         seen.setLane l { seen.lane l with ackDue := some ((expect + 255) % 256) }
       else (seen.bump F.frmRxBad l).sendNak l) := by
  have partner : (decide (l = 53) || decide (l = 54)) = true ↔ l = 53 ∨ l = 54 := by simp
  rw [← d.rd_looked l ftype f]
  unfold Dev.receive
  rw [up, good]
  simp only [Dev.accepts, ← partner]
  rfl

theorem Dev.receive_accepted (inSequence : f.seq.toNat = d.rd F.frmRxExpect l) (carries : f.flags.getLsbD 1 = false) :
    d.receive l ftype f act = act ((d.looked l ftype f).accepts l (d.rd F.frmRxExpect l)) := by
  rw [Dev.receive_good up good]
  dsimp only
  rw [if_pos inSequence, carries]
  rfl

theorem Dev.receive_void (inSequence : f.seq.toNat = d.rd F.frmRxExpect l) (void : f.flags.getLsbD 1 = true) :
    d.receive l ftype f act = ((d.looked l ftype f).accepts l (d.rd F.frmRxExpect l)).bump F.frmRxVoid l := by
  rw [Dev.receive_good up good]
  dsimp only
  rw [if_pos inSequence, if_pos void]

theorem Dev.receive_duplicate (other : f.seq.toNat ≠ d.rd F.frmRxExpect l)
    (recent : (d.rd F.frmRxExpect l + 255 - f.seq.toNat) % 256 < 32) :
    d.receive l ftype f act =
      (d.looked l ftype f).setLane l { (d.looked l ftype f).lane l with ackDue := some ((d.rd F.frmRxExpect l + 255) % 256) } := by
  rw [Dev.receive_good up good]
  dsimp only
  rw [if_neg other, if_pos recent]

theorem Dev.receive_outOfSequence (other : f.seq.toNat ≠ d.rd F.frmRxExpect l)
    (far : 32 ≤ (d.rd F.frmRxExpect l + 255 - f.seq.toNat) % 256) :
    d.receive l ftype f act = ((d.looked l ftype f).bump F.frmRxBad l).sendNak l := by
  rw [Dev.receive_good up good]
  dsimp only
  rw [if_neg other, if_neg (Nat.not_lt.mpr far)]

end

/-! ## Frames discarded (R171, R173, R176) -/

section
variable {t : Nat} {n : Fin 55} {s : State}

/-- A frame out of sequence or not listed for its lane is received as one of no type, whose content is of no good. -/
theorem exec_frameDiscarded_received {seq : Byte} {why : Discard} (named : why = .outOfSequence seq ∨ why = .notListed seq) :
    exec (.frameDiscarded t n why) s = event t s fun d =>
      d.receive n 0 { seq := seq, flags := 0, addr := 0, deadline := 0, payload := [] } (·.bump F.frmRxBad n) := by
  rw [exec_frameDiscarded, execFrameDiscarded]
  refine event_dev ?_
  cases up : (s.dev.advance t).laneUp n with
  | true => obtain rfl | rfl := named <;> rfl
  | false => exact (Dev.receive_down up).symm

/-- A damaged frame is counted and answered with a NAK. -/
theorem exec_frameDiscarded_damaged {why : Discard} (up : (s.dev.advance t).laneUp n = true)
    (damaged : why = .badHeader ∨ why = .cutShort ∨ why = .badCrc) :
    exec (.frameDiscarded t n why) s = .next { s with dev := ((s.dev.advance t).bump F.frmRxBad n).sendNak n } := by
  rw [exec_frameDiscarded, execFrameDiscarded]
  refine event_dev ?_
  rw [up]
  obtain rfl | rfl | rfl := damaged <;> rfl

/-- A stray data block is counted and answered with nothing. -/
theorem exec_frameDiscarded_stray (up : (s.dev.advance t).laneUp n = true) :
    exec (.frameDiscarded t n .stray) s = .next { s with dev := (s.dev.advance t).bump F.frmRxBad n } := by
  rw [exec_frameDiscarded, execFrameDiscarded]
  refine event_dev ?_
  rw [up]
  rfl

end

/-- Settles O42: each frame row answers with `Dev.receive` of its type and effect, whose cases are those of the statement. -/
theorem framesArriveInOrder : Obligations.FramesArriveInOrder := by
  unfold Obligations.FramesArriveInOrder
  intro s t n f d l expect next burns taken row
  have arrives (ans : Dev → Host.Outcome State Fault Refusal) (f : RxFrame) (c : Instr) (ftype : Nat) (act : Dev → Dev)
      (receives : exec c s = ans (d.receive l ftype f act)) : taken ans f c ftype act := by
    have acts {e : Dev} (h : d.receive l ftype f act = e) : exec c s = ans e := receives.trans (congrArg ans h)
    have now : (d.looked l ftype f).up = d.up := Dev.up_looked ..
    refine ⟨fun down => ?down, fun up bad => ?bad, fun up good => ⟨fun same carries => ?accepted, fun same void => ?void,
      fun other recent => ?duplicate, fun other far => ?outOfSequence⟩⟩
    case down => exact acts (Dev.receive_down down)
    case bad => exact acts (Dev.receive_badFlags up bad)
    case accepted =>
      refine acts ((Dev.receive_accepted up good same carries).trans ?_)
      rw [Dev.accepts, now]
      rfl
    case void =>
      refine acts ((Dev.receive_void up good same void).trans ?_)
      rw [Dev.accepts, now]
      rfl
    case duplicate => exact acts (Dev.receive_duplicate up good other recent)
    case outOfSequence => exact acts (Dev.receive_outOfSequence up good other far)
  refine ⟨?unitCommand, ?sample, ?unitState, ?wick, ?timeSync, ?timeResp, ?manageReq, ?manageResp, ?health, ?stateCopy, ?digest,
    ?telemetry, ?event, ?discarded, fun up => ⟨fun why => ?damaged, ?stray⟩⟩
  case unitCommand => exact arrives next f _ 0x02 (·.unitCommand l f) (exec_unitCommand t n f s)
  case sample => exact arrives next f _ 0x03 (·.sampleFrame l f) (exec_sample t n f s)
  case unitState => exact arrives next f _ 0x04 (·.unitState l f) (exec_unitState t n f s)
  case wick => exact arrives next f _ 0x05 (·.wickFrame l f) (exec_wick t n f s)
  case timeSync => exact arrives next f _ 0x06 (·.timeSync l f) (exec_timeSync t n f s)
  case timeResp => exact arrives next f _ 0x07 (·.timeResp l f) (exec_timeResp t n f s)
  case manageReq => exact arrives next f _ 0x08 (·.manageReq l f) (exec_manageReq t n f s)
  case manageResp => exact arrives burns f _ 0x09 (·.manageResp l f) (exec_manageResp t n f s)
  case health => exact arrives next f _ 0x0B (·.healthFrame l f) (exec_health t n f s)
  case stateCopy => exact arrives next f _ 0x0C (·.stateCopyFrame l f) (exec_stateCopy t n f s)
  case digest => exact arrives next f _ 0x0D (·.digestContent l f) (exec_digest t n f s)
  case telemetry => exact arrives next f _ 0x0E (·.telemetryFrame l f) (exec_telemetry t n f s)
  case event => exact arrives next f _ 0x0F (·.eventFrame l f) (exec_event t n f s)
  case discarded =>
    intro seq why named
    exact arrives next _ _ 0 (·.bump F.frmRxBad l) (exec_frameDiscarded_received named)
  case damaged => exact exec_frameDiscarded_damaged up
  case stray => exact exec_frameDiscarded_stray up

end Sys2Proof.Machine
end

section
/-!
PROOFS. The family 07_tabward_frames: what cells send (R173, R353, R368, R414). The cells after a SAMPLE are those before it with one
set, because the ledger and the triggers leave them alone.
-/
namespace Sys2Proof.Machine

/-! ## What leaves the cells alone -/

theorem Dev.cell_setCell (d : Dev) (s : Nat) (x : Cell) : (d.setCell s x).cell s = x := by
  rw [Dev.cell, Dev.setCell, tget_tset, if_pos rfl]

theorem Dev.cell_congr {d e : Dev} (h : e.cells = d.cells) (s : Nat) : e.cell s = d.cell s := by rw [Dev.cell, Dev.cell, h]

/-- Of two ways that both leave the cells alone, either does. -/
theorem Dev.cells_ite {c : Prop} [Decidable c] {d a b : Dev} (yes : a.cells = d.cells) (no : b.cells = d.cells) :
    (if c then a else b).cells = d.cells := by
  split
  · exact yes
  · exact no

theorem Dev.cells_raise (d : Dev) (source data : Nat) (listed : source < 256) : (d.raise source data).cells = d.cells := by
  simp only [(Dev.near_raise d source data listed).keeps]

/-- A field written and an event source raised. -/
theorem Dev.cells_wr_raise (d : Dev) (f : Fld) (v i source data : Nat) (listed : source < 256) :
    ((d.wr f v i).raise source data).cells = d.cells := (Dev.cells_raise _ source data listed).trans (by simp)

theorem Dev.cells_wr64 (d : Dev) (lo hi : Fld) (v i : Nat) : (d.wr64 lo hi v i).cells = d.cells := by simp [Dev.wr64]

/-- A half cycle counted writes words and may raise event sources 0x35 and 0x37. -/
theorem Dev.cells_countCycle (d : Dev) (s halves : Nat) (dT tMean2 : Int) : (d.countCycle s halves dT tMean2).cells = d.cells := by
  unfold Dev.countCycle
  extract_lets bin so sum counted full dmg damaged
  have hCounted : counted.cells = d.cells := by simp [counted]
  have hFull : full.cells = d.cells := (Dev.cells_ite (Dev.cells_wr_raise _ _ _ _ _ _ (by decide)) rfl).trans hCounted
  have hDamaged : damaged.cells = d.cells := (Dev.cells_wr64 ..).trans hFull
  exact (Dev.cells_ite (Dev.cells_wr_raise _ _ _ _ _ _ (by decide)) rfl).trans hDamaged

theorem Dev.cells_fourPoint (d : Dev) (s fuel : Nat) (r : List Int) : (d.fourPoint s fuel r).1.cells = d.cells := by
  induction fuel generalizing d r with
  | zero => rfl
  | succ fuel ih =>
    match r with
    | [] | [_] | [_, _] | [_, _, _] => rfl
    | s4 :: s3 :: s2 :: s1 :: rest =>
      rw [Dev.fourPoint]
      split
      · exact (ih _ _).trans (Dev.cells_countCycle ..)
      · rfl

theorem Dev.cells_pushReversal (d : Dev) (s : Nat) (x : Int) : (d.pushReversal s x).cells = d.cells := by
  unfold Dev.pushReversal
  dsimp only
  refine (Dev.cells_fourPoint ..).trans ?_
  split
  · split
    · exact Dev.cells_countCycle ..
    · rfl
  · rfl

theorem Dev.cells_wearSample (d : Dev) (s : Nat) (x : Int) : (d.wearSample s x).cells = d.cells := by
  unfold Dev.wearSample
  dsimp only
  split
  · rfl
  · exact Dev.cells_ite (Dev.cells_pushReversal ..) (Dev.cells_ite (Dev.cells_pushReversal ..) (Dev.cells_ite rfl rfl))

theorem Dev.cells_ledgerSample (d : Dev) (s : Nat) (temp : Int) : (d.ledgerSample s temp).cells = d.cells :=
  Dev.cells_ite (Dev.cells_wearSample ..) rfl

/-! ## SAMPLE (R236, R353) -/

/-- A cell with the values of a SAMPLE and its instant, and with its u if the SAMPLE is of the first marker. -/
def Cell.hears (c : Cell) (at_ : Nat) (first : Bool) (xs : List (Nat × Int)) : Cell :=
  let values := xs.foldl (fun t x => tset (fun _ => 0) t x.1 x.2) c.values
  let c := { c with values := values, sampleAt := at_, sampled := true }
  if first then { c with u := tget (fun _ => 0) values 0, uAt := at_, uFresh := true } else c

theorem Cell.hears_values (c : Cell) (at_ : Nat) (first : Bool) (xs : List (Nat × Int)) :
    (c.hears at_ first xs).sampleAt = at_ ∧ (c.hears at_ first xs).sampled = true ∧ (c.hears at_ first xs).markers = c.markers := by
  cases first <;> exact ⟨rfl, rfl, rfl⟩

/-- The SAMPLE of the first marker gives u of the next expansion (R236). -/
theorem Cell.hears_first (c : Cell) (at_ : Nat) (xs : List (Nat × Int)) :
    (c.hears at_ true xs).u = tget (fun _ => 0) (c.hears at_ true xs).values 0
      ∧ (c.hears at_ true xs).uAt = at_ ∧ (c.hears at_ true xs).uFresh = true := ⟨rfl, rfl, rfl⟩

theorem Cell.hears_later (c : Cell) (at_ : Nat) (xs : List (Nat × Int)) :
    (c.hears at_ false xs).u = c.u ∧ (c.hears at_ false xs).uAt = c.uAt := ⟨rfl, rfl⟩

theorem Dev.cell_sampleValues (d : Dev) (s at_ : Nat) (first : Bool) (xs : List (Nat × Int)) :
    (d.sampleValues s at_ first xs).cell s = (d.cell s).hears at_ first xs := by
  refine (Dev.cell_congr ?_ s).trans (d.cell_setCell s _)
  exact Dev.cells_ledgerSample ..

section
variable {d : Dev} {s at_ : Nat} {vs : List Int}

theorem Dev.sampleMatch_unmarked (holds : d.holdsWick = true) (unmarked : ((d.cell s).markers.find? fun m => m.1 == at_) = none) :
    d.sampleMatch s at_ vs = d.sampleBad := by
  unfold Dev.sampleMatch
  rw [holds]
  dsimp only
  rw [unmarked]
  rfl

variable {m : Nat × Nat × Nat} (holds : d.holdsWick = true) (marked : ((d.cell s).markers.find? fun m => m.1 == at_) = some m)
include holds marked

theorem Dev.sampleMatch_marked :
    d.sampleMatch s at_ vs =
      if vs.length ≠ (d.setIndices m.2.1).length then d.sampleBad
      else (d.setCell s { d.cell s with markers := (d.cell s).markers.erase m }).sampleValues s at_ (m.2.2 != 0)
        ((d.setIndices m.2.1).zip vs) := by
  unfold Dev.sampleMatch
  rw [holds]
  dsimp only
  rw [marked]
  rfl

theorem Dev.cell_sampleMatch (complete : vs.length = (d.setIndices m.2.1).length) :
    (d.sampleMatch s at_ vs).cell s =
      ({ d.cell s with markers := (d.cell s).markers.erase m } : Cell).hears at_ (m.2.2 != 0) ((d.setIndices m.2.1).zip vs) := by
  rw [Dev.sampleMatch_marked holds marked, if_neg (not_not_intro complete), Dev.cell_sampleValues, Dev.cell_setCell]

end

theorem Dev.cell_sampleMatch_standby {d : Dev} {s at_ : Nat} {vs : List Int} (standby : d.holdsWick = false) :
    (d.sampleMatch s at_ vs).cell s = (d.cell s).hears at_ true (vs.zipIdx.map fun x => (x.2, x.1)) := by
  unfold Dev.sampleMatch
  rw [standby]
  exact Dev.cell_sampleValues ..

/-! ## UNIT_STATE, HEALTH and EVENT (R368, R403, R414) -/

theorem Dev.showCell_keeps (d : Dev) (s : Nat) : (d.showCell s).cells = d.cells ∧ (d.showCell s).coll = d.coll := by
  unfold Dev.showCell
  dsimp only
  split <;> exact ⟨rfl, rfl⟩

theorem Dev.unitState_cell {d : Dev} {l s : Nat} {f : RxFrame} {u : UState} (cell : l < 48) (named : d.slotNamed l f = some s)
    (parsed : parseUState f.payload = some u) : d.unitState l f = d.cellState s u := by
  unfold Dev.unitState
  rw [parsed]
  dsimp only
  rw [if_pos cell, named]

theorem Dev.cell_cellState (d : Dev) (s : Nat) (u : UState) :
    ((d.cellState s u).cell s).health = u.health ∧ ((d.cellState s u).cell s).reported = true := by
  unfold Dev.cellState
  extract_lets c stage shown
  have same : shown.cell s = { c with health := u.health, reported := true, stage := stage } :=
    (Dev.cell_congr (Dev.showCell_keeps _ s).1 s).trans (d.cell_setCell s _)
  rw [Dev.cell_congr (Dev.cells_ite (d := shown) (a := shown.fault 10 s) (b := shown) rfl rfl), same]
  exact ⟨rfl, rfl⟩

theorem Dev.cellState_fails {d : Dev} {s : Nat} {u : UState} (failed : u.health = 3) (before : (d.cell s).health ≠ 3) :
    (d.cellState s u).coll.raises = d.coll.raises ++ [{ cls := 10, src := s }] := by
  unfold Dev.cellState
  extract_lets c stage shown
  have same : shown.coll = d.coll := (Dev.showCell_keeps _ s).2
  have appears : (decide (u.health = 3) && decide (c.health ≠ 3)) = true := by simpa [failed] using before
  rw [if_pos appears, Dev.fault, same]

theorem Dev.healthFrame_cell {d : Dev} {l s : Nat} {f : RxFrame} (cell : l < 48) (named : cellAddr l f = some s) (own : s ≠ 127)
    (whole : f.payload.length = 32) (reserved : zeroRange f.payload 30 2 = true) :
    d.healthFrame l f = d.setCell s { d.cell s with healthReport := f.payload } := by
  unfold Dev.healthFrame
  dsimp only
  rw [if_pos cell, named]
  dsimp only
  rw [whole, reserved, if_neg own]
  rfl

/-- A well-formed record of a cell that the lane carries acts by its severity. -/
theorem Dev.cellEvent_wellFormed {d : Dev} {l : Nat} {p : Bytes} (whole : p.length = 20) (zero3 : zeroRange p 3 1 = true)
    (zero15 : zeroRange p 15 1 = true) (known : byteAt p 14 ≤ 2) (own : byteAt p 2 / 2 = l) :
    d.cellEvent l p =
      if byteAt p 14 < 2 then d.raise 0xA3 (leAt p 12 8)
      else if d.populated (byteAt p 2) then d.fault 10 (byteAt p 2) (leAt p 12 8)
      else d.badContent l := by
  unfold Dev.cellEvent
  simp [whole, zero3, zero15, own, Nat.not_lt.mpr known]

/-- Settles O43: a SAMPLE and a report by the cell they leave, a record by its severity. -/
theorem cellsAreHeard : Obligations.CellsAreHeard := by
  unfold Obligations.CellsAreHeard
  intro d l f p cell
  refine ⟨?unnamed, fun slot at_ vs => ⟨?unmarked, fun m holds marked => ⟨?incomplete, ?complete⟩, ?standby⟩, ?unitState, ?health,
    fun whole zero3 zero15 own => ⟨?warns, ?fails⟩⟩
  case unnamed =>
    intro unnamed
    unfold Dev.sampleFrame
    rw [unnamed]
    rfl
  case unmarked => exact Dev.sampleMatch_unmarked
  case incomplete =>
    intro incomplete
    rw [Dev.sampleMatch_marked holds marked, if_pos incomplete]
    rfl
  case complete =>
    intro complete e
    have heard : e.cell slot = _ := Dev.cell_sampleMatch holds marked complete
    rw [heard]
    obtain ⟨sampleAt, sampled, markers⟩ := Cell.hears_values _ at_ (m.2.2 != 0) _
    refine ⟨sampleAt, sampled, markers, fun first => ?_, fun later => ?_⟩
    · rw [bne_iff_ne.mpr first]
      exact Cell.hears_first ..
    · rw [later]
      exact Cell.hears_later ..
  case standby =>
    intro standby
    rw [Dev.cell_sampleMatch_standby standby]
    exact (Cell.hears_values ..).1
  case unitState =>
    intro slot u named parsed
    rw [Dev.unitState_cell cell named parsed]
    obtain ⟨health, reported⟩ := d.cell_cellState slot u
    exact ⟨health, reported, Dev.cellState_fails⟩
  case health => exact fun slot => Dev.healthFrame_cell cell
  case warns =>
    intro mild
    exact ((if_pos cell).trans (Dev.cellEvent_wellFormed whole zero3 zero15 (Nat.le_of_lt mild) own)).trans (if_pos mild)
  case fails =>
    intro severe populated
    refine ((if_pos cell).trans (Dev.cellEvent_wellFormed whole zero3 zero15 (Nat.le_of_eq severe) own)).trans ?_
    rw [if_neg (Nat.not_lt.mpr (Nat.le_of_eq severe.symm)), if_pos populated]

end Sys2Proof.Machine
end

section
/-!
PROOFS. The family 08_time: the servo and its source (R196, R202 to R206). The two numbers that a sample gives the servo are named
once; what TIME.FREQ and TIME.RATE hold, and that they stay within 100 ppm, are facts about those numbers.
-/
namespace Sys2Proof.Machine

/-! ## Clamped and signed numbers -/

/-- A number kept between two bounds is the library's clamp. -/
theorem clampI_eq_max_min {lo hi : Int} (ordered : lo ≤ hi) (z : Int) : clampI lo hi z = max lo (min hi z) := by
  unfold clampI
  split
  · omega
  · split <;> omega

/-- A signed number that fits a word reads back from it. -/
theorem s32_u32 {z : Int} (low : -2147483648 ≤ z) (high : z < 2147483648) : s32 (u32 z) = z := by
  rw [s32, u32, BitVec.ofNat_toNat, BitVec.setWidth_eq, BitVec.toInt_ofInt]
  exact Int.bmod_eq_of_le (by omega) (by omega)

/-! ## An offset sample (R202) -/

/-- The fine ticks from the sample before to the present one. -/
def Dev.sampleGap (d : Dev) : Int := ((d.up - d.clock.lastSampleAt : Nat) : Int)

/-- The number that an offset sample puts into TIME.FREQ (R202). -/
def Dev.servoFreq (d : Dev) (theta : Int) : Int :=
  clampI (-rateLimit) rateLimit (s32 (d.rd F.timeFreq) - Int.tdiv (theta * 2 ^ 32) (16 * d.sampleGap))

/-- The number that an offset sample puts into TIME.RATE (R202). -/
def Dev.servoRate (d : Dev) (theta : Int) : Int :=
  clampI (-rateLimit) rateLimit (d.servoFreq theta - Int.tdiv (theta * 2 ^ 32) (4 * d.sampleGap))

/-- A number clamped to the limit of R196 is within 100 ppm. -/
theorem natAbs_clampI_rateLimit (z : Int) : (clampI (-rateLimit) rateLimit z).natAbs ≤ 429496 := by
  rw [clampI_eq_max_min (by decide), rateLimit]
  omega

/-- A number within 100 ppm reads back from its word. -/
theorem s32_u32_of_natAbs {z : Int} (small : z.natAbs ≤ 429496) : s32 (u32 z % 2 ^ 32) = z := by
  have fits : u32 z < 2 ^ 32 := BitVec.isLt _
  rw [Nat.mod_eq_of_lt fits]
  exact s32_u32 (by omega) (by omega)

/-- The rate and the frequency are different words (R220). -/
theorem Dev.timeFreq_wr_timeRate (d : Dev) (v : Nat) : (d.wr F.timeRate v).rd F.timeFreq = d.rd F.timeFreq :=
  Dev.rd_wr_apart d F.timeRate F.timeFreq v 0 0 rfl rfl (by decide)

section
variable {d : Dev} (theta : Int) (sampled : d.clock.haveSample = true) (later : d.clock.lastSampleAt < d.up)
include sampled later

/-- A sample at a later instant than the one before starts the next interval and writes the two words of the servo (R202). -/
theorem Dev.servo_later :
    d.servo theta = (({ d with clock := { d.clock with lastSampleAt := d.up, haveSample := true } }.wr F.timeFreq
      (u32 (d.servoFreq theta))).wr F.timeRate (u32 (d.servoRate theta))) := by
  have gap : ((d.up - d.clock.lastSampleAt : Nat) : Int) ≠ 0 := by omega
  have notFirst : ¬ ((!d.clock.haveSample || decide (((d.up - d.clock.lastSampleAt : Nat) : Int) = 0)) = true) := by
    simp only [sampled, gap, decide_false, Bool.not_true, Bool.or_false, Bool.false_eq_true, not_false_eq_true]
  exact if_neg notFirst

theorem Dev.timeFreq_servo : s32 ((d.servo theta).rd F.timeFreq) = d.servoFreq theta := by
  rw [Dev.servo_later theta sampled later, Dev.timeFreq_wr_timeRate, Dev.rd_wr_same _ _ _ _ rfl]
  exact s32_u32_of_natAbs (natAbs_clampI_rateLimit _)

theorem Dev.timeRate_servo : s32 ((d.servo theta).rd F.timeRate) = d.servoRate theta := by
  rw [Dev.servo_later theta sampled later, Dev.rd_wr_same _ _ _ _ rfl]
  exact s32_u32_of_natAbs (natAbs_clampI_rateLimit _)

theorem Dev.lastSampleAt_servo : (d.servo theta).clock.lastSampleAt = d.up := by
  rw [Dev.servo_later theta sampled later]
  rfl

end

/-- The servo stands at 0 at Light (R202). -/
theorem Dev.servo_lightClock (d : Dev) : d.lightClock.rd F.timeFreq = 0 ∧ d.lightClock.rd F.timeRate = 0 := by
  unfold Dev.lightClock
  rw [Dev.timeFreq_wr_timeRate, Dev.rd_wr_same _ _ _ _ rfl, Dev.rd_wr_same _ _ _ _ rfl]
  exact ⟨rfl, rfl⟩

/-- Settles O58: the two words hold `Dev.servoFreq` and `Dev.servoRate`, whose clamp is the library's. -/
theorem servoFollowsItsSamples : Obligations.ServoFollowsItsSamples := by
  unfold Obligations.ServoFollowsItsSamples
  refine ⟨fun d theta sampled later => ?_, Dev.servo_lightClock⟩
  intro gap clamp freq rate
  have isFreq : d.servoFreq theta = freq := clampI_eq_max_min (by decide) _
  have isRate : d.servoRate theta = rate := by
    rw [Dev.servoRate, isFreq]
    exact clampI_eq_max_min (by decide) _
  exact ⟨(Dev.timeFreq_servo theta sampled later).trans isFreq, (Dev.timeRate_servo theta sampled later).trans isRate⟩

/-! ## The source lost (R203) -/

/-- A source already lost is not lost again. -/
theorem Dev.sourceLost_held {d : Dev} (held : d.on F.timeHoldover = true) : d.sourceLost = d := by
  simp [Dev.sourceLost, held]

/-- What the loss of the source writes: the rate at the frequency, holdover and its mark. -/
def Dev.heldOver (d : Dev) : Dev := ((d.wr F.timeRate (d.rd F.timeFreq)).wr F.timeHoldover 1).wr F.timeSrcLost 1

/-- A source in use that is lost freezes the servo and raises event source 0x1A and class 8. -/
theorem Dev.sourceLost_once {d : Dev} (used : d.rd F.timeSrc ≠ 0) (free : d.on F.timeHoldover = false) :
    d.sourceLost = (d.heldOver.raise 0x1A).fault 8 0 := by
  simp [Dev.sourceLost, used, free, Dev.heldOver]

/-- A raise of an event source leaves the fault classes that wait alone. -/
theorem Dev.raises_raise (d : Dev) (source data : Nat) (listed : source < 256) :
    (d.raise source data).coll.raises = d.coll.raises := by
  rw [(Dev.near_raise d source data listed).coll]

theorem Dev.rd_heldOver (d : Dev) :
    d.heldOver.rd F.timeRate = d.rd F.timeFreq ∧ d.heldOver.rd F.timeHoldover = 1 ∧ d.heldOver.rd F.timeSrcLost = 1 := by
  have small : d.rd F.timeFreq < F.timeRate.size := d.rd_lt F.timeFreq 0
  unfold Dev.heldOver
  refine ⟨?rate, ?holdover, ?mark⟩
  case rate =>
    rw [Dev.rd_wr_apart _ F.timeSrcLost F.timeRate _ 0 0 rfl rfl (by decide),
      Dev.rd_wr_apart _ F.timeHoldover F.timeRate _ 0 0 rfl rfl (by decide), Dev.rd_wr_fits _ 0 rfl small]
  case holdover =>
    rw [Dev.rd_wr_apart _ F.timeSrcLost F.timeHoldover _ 0 0 rfl rfl (by decide), Dev.rd_wr_fits _ 0 rfl (by decide)]
  case mark => exact Dev.rd_wr_fits _ 0 rfl (by decide)

/-- After the loss the rate stands at the frequency, holdover shows, and class 8 waits for the classifier. -/
theorem Dev.sourceLost_leaves {d : Dev} (used : d.rd F.timeSrc ≠ 0) (free : d.on F.timeHoldover = false) :
    d.sourceLost.rd F.timeRate = d.rd F.timeFreq ∧ d.sourceLost.rd F.timeHoldover = 1 ∧ d.sourceLost.rd F.timeSrcLost = 1
      ∧ d.sourceLost.coll.raises = d.coll.raises ++ [{ cls := 8, src := 0 }] := by
  have reads (f : Fld) (quiet : f.quiet 0 = true) : d.sourceLost.rd f = d.heldOver.rd f := by
    rw [Dev.sourceLost_once used free, Dev.rd_fault, Dev.rd_raise _ _ _ _ _ (by decide) quiet]
  obtain ⟨rate, holdover, mark⟩ := d.rd_heldOver
  refine ⟨(reads _ (by decide)).trans rate, (reads _ (by decide)).trans holdover, (reads _ (by decide)).trans mark, ?_⟩
  rw [Dev.sourceLost_once used free]
  exact congrArg (· ++ _) (Dev.raises_raise _ _ _ (by decide))

/-- TIME_SOURCE_LOST of a source of a lane that has given no sample for its time (R203). -/
theorem exec_timeSourceLost_due {t : Nat} {s : State} (lane : (s.dev.advance t).rd F.timeSrc = 1 ∨ (s.dev.advance t).rd F.timeSrc = 2)
    (due : (s.dev.advance t).spent (max (s.dev.advance t).clock.lastSampleAt (s.dev.advance t).clock.srcFrom)
      (16 * (s.dev.advance t).rd F.timeSyncInt * ticksUs) = true) :
    exec (.timeSourceLost t) s = .next { s with dev := (s.dev.advance t).sourceLost } := by
  rw [exec_timeSourceLost]
  refine event_dev ?_
  simp [lane, due]

/-- Settles O36: the exchanges due, the source lost and the servo, each by the lemma of its own. -/
theorem fabricTimeFollowsItsSource : Obligations.FabricTimeFollowsItsSource := by
  unfold Obligations.FabricTimeFollowsItsSource
  intro s t d next interval
  refine ⟨?exchanges, fun lane due => ?lost, fun x theta sampled later => ?servo⟩
  case exchanges => exact (exec_timeSyncInterval t s).trans (event_eq t s Dev.syncLanes)
  case lost =>
    have acts := exec_timeSourceLost_due lane due
    have used : d.rd F.timeSrc ≠ 0 := by omega
    exact ⟨fun held => by rw [acts, Dev.sourceLost_held held], fun free => ⟨_, acts, Dev.sourceLost_leaves used free⟩⟩
  case servo =>
    refine ⟨?_, ?_, Dev.lastSampleAt_servo theta sampled later⟩
    · rw [Dev.timeFreq_servo theta sampled later]
      exact natAbs_clampI_rateLimit _
    · rw [Dev.timeRate_servo theta sampled later]
      exact natAbs_clampI_rateLimit _

end Sys2Proof.Machine
end

section
/-!
PROOFS. The family 08_time: the PTP port (R208, R210, R211, R213). A message that the port takes acts by its kind, one lemma per kind;
what the port sends at intervals and forgets at the announce timeout turns on one test each.
-/
namespace Sys2Proof.Machine

/-! ## The messages that the port takes (R208) -/

/-- A message that the port takes: the port runs, and the message is of its domain and not its own. -/
structure Dev.PtpTakes (d : Dev) (m : PtpMsg) : Prop where
  runs : d.ptpRuns = true
  domain : m.domain = d.rd F.timePtpDomain
  foreign : m.source ≠ d.ptpSelf

/-- A message of the master that the port follows. -/
def Dev.ptpMine (d : Dev) (m : PtpMsg) : Prop := d.ptp.state.follows = true ∧ m.source = d.ptp.master

theorem Dev.ptpMine.test {d : Dev} {m : PtpMsg} (mine : d.ptpMine m) : (d.ptp.state.follows && m.source == d.ptp.master) = true := by
  obtain ⟨follows, source⟩ := mine
  simp [follows, source]

/-- The time that a message carries, in ns. -/
def ptpTime (m : PtpMsg) : Nat := m.seconds * 1000000000 + m.nanos

/-- The port with a Sync of its master noted, which waits for a Follow_Up or not. -/
def Dev.ptpTook (d : Dev) (m : PtpMsg) (await : Bool) : Dev :=
  { d with ptp := { d.ptp with syncSeq := m.seq, syncRx := m.rxAt, syncCorr := m.correction, awaitFollow := await } }

section
variable {d : Dev} {m : PtpMsg}

/-- A message of another domain or of the port itself, or one that comes while the port does not run, changes nothing. -/
theorem Dev.ptpMessage_passedOver (out : d.ptpRuns = false ∨ m.domain ≠ d.rd F.timePtpDomain ∨ m.source = d.ptpSelf) :
    d.ptpMessage m = d := by
  have test : (!d.ptpRuns || decide (m.domain ≠ d.rd F.timePtpDomain) || decide (m.source = d.ptpSelf)) = true := by
    simpa [or_assoc] using out
  exact if_pos test

/-- The first test of `Dev.ptpMessage` lets a message through that the port takes. -/
theorem Dev.PtpTakes.test (takes : d.PtpTakes m) :
    ¬ (!d.ptpRuns || decide (m.domain ≠ d.rd F.timePtpDomain) || decide (m.source = d.ptpSelf)) = true := by
  obtain ⟨runs, domain, foreign⟩ := takes
  simp [runs, domain, foreign]

variable (takes : d.PtpTakes m)
include takes

/-- A one-step Sync of the master gives an offset at once (R213). -/
theorem Dev.ptpMessage_sync_oneStep (kind : m.kind = .sync) (mine : d.ptpMine m) (oneStep : m.twoStep = false) :
    d.ptpMessage m = (d.ptpTook m false).ptpOffset (ptpTime m) m.correction := by
  refine (if_neg takes.test).trans ?_
  rw [kind]
  dsimp only
  rw [mine.test, oneStep]
  rfl

/-- A two-step Sync of the master is noted and waits for its Follow_Up. -/
theorem Dev.ptpMessage_sync_twoStep (kind : m.kind = .sync) (mine : d.ptpMine m) (twoStep : m.twoStep = true) :
    d.ptpMessage m = d.ptpTook m true := by
  refine (if_neg takes.test).trans ?_
  rw [kind]
  dsimp only
  rw [mine.test, twoStep]
  rfl

/-- The Follow_Up of the Sync that waits for it gives the offset (R213). -/
theorem Dev.ptpMessage_followUp (kind : m.kind = .followUp) (mine : d.ptpMine m) (awaited : d.ptp.awaitFollow = true)
    (same : m.seq = d.ptp.syncSeq) :
    d.ptpMessage m =
      { d with ptp := { d.ptp with awaitFollow := false } }.ptpOffset (ptpTime m) (d.ptp.syncCorr + m.correction) := by
  refine (if_neg takes.test).trans ?_
  rw [kind]
  exact if_pos (by simp [mine.test, awaited, same])

/-- A master without the peer mechanism answers a Delay_Req (R210). -/
theorem Dev.ptpMessage_delayReq (kind : m.kind = .delayReq) (master : d.ptp.state = .master) (endToEnd : d.on F.timePtpP2p = false) :
    d.ptpMessage m = d.ptpDelayResp m := by
  refine (if_neg takes.test).trans ?_
  rw [kind]
  exact if_pos (by simp [master, endToEnd])

/-- The master's answer to the port's own Delay_Req gives the mean delay. -/
theorem Dev.ptpMessage_delayResp (kind : m.kind = .delayResp) (mine : d.ptpMine m) (endToEnd : d.on F.timePtpP2p = false)
    (own : m.requester = d.ptpSelf) (same : m.seq = d.ptp.delaySeq) :
    d.ptpMessage m = d.ptpDelay (Int.tdiv (((d.toNet d.ptp.syncRx : Int) - (d.ptp.syncOrigin + d.ptp.syncCorr))
      + ((ptpTime m : Int) - m.correction - d.toNet d.ptp.delayTx)) 2) := by
  refine (if_neg takes.test).trans ?_
  rw [kind]
  exact if_pos (by simp [mine.test, endToEnd, own, same])

/-- With the peer mechanism a Pdelay_Req is answered in any state (R210). -/
theorem Dev.ptpMessage_pdelayReq (kind : m.kind = .pdelayReq) (peers : d.on F.timePtpP2p = true) :
    d.ptpMessage m = d.ptpPeerResp m := by
  refine (if_neg takes.test).trans ?_
  rw [kind]
  exact if_neg (by simp [peers])

/-- The one-step answer to the port's own Pdelay_Req gives the mean delay. -/
theorem Dev.ptpMessage_pdelayResp_oneStep (kind : m.kind = .pdelayResp) (peers : d.on F.timePtpP2p = true)
    (own : m.requester = d.ptpSelf) (same : m.seq = d.ptp.pdReqSeq) (oneStep : m.twoStep = false) :
    d.ptpMessage m = { d with ptp := { d.ptp with pdT2 := ptpTime m, pdT4 := m.rxAt, pdCorr := m.correction } }.ptpDelay
      (Int.tdiv ((d.toNet m.rxAt : Int) - d.toNet d.ptp.pdT1 - m.correction) 2) := by
  refine (if_neg takes.test).trans ?_
  rw [kind]
  refine (if_neg (by simp [peers, own, same])).trans ?_
  rw [oneStep]
  rfl

theorem Dev.ptpMessage_announce (kind : m.kind = .announce) : d.ptpMessage m = d.ptpAnnounce m := by
  refine (if_neg takes.test).trans ?_
  rw [kind]

end

/-- The first Announce heard names the master, where it is less than 255 steps away (R208). -/
theorem Dev.ptpAnnounce_first {d : Dev} {m : PtpMsg} (near : m.stepsRemoved < 255) (noMaster : d.ptp.masterRank = []) :
    (d.ptpAnnounce m).ptp.master = m.source ∧ (d.ptpAnnounce m).ptp.masterRank = ptpMsgRank m
      ∧ (d.ptpAnnounce m).ptp.announceAt = d.up := by
  have anew : (d.ptp.masterRank.isEmpty || decide (m.source = d.ptp.master) || decide (ptpMsgRank m < d.ptp.masterRank)) = true := by
    simp [noMaster]
  unfold Dev.ptpAnnounce
  dsimp only
  rw [if_neg (Nat.not_le.mpr near), if_pos anew]
  exact ⟨rfl, rfl, rfl⟩

/-! ## What the port sends at intervals (R208, R211) -/

section
variable {d : Dev} (runs : d.ptpRuns = true)
include runs

theorem Dev.ptpInterval_sync (master : d.ptp.state = .master) (due : d.ptpDue d.ptp.syncAt (d.rd F.timePtpLogSync) = true) :
    d.ptpInterval .sync =
      let seq := (d.ptp.txSeq + 1) % 65536
      { d with ptp := { d.ptp with txSeq := seq, syncAt := some d.up } }.ptpSync seq := by
  refine (if_neg (by simp [runs])).trans ?_
  exact if_pos (by simp [master, due])

theorem Dev.ptpInterval_announce (master : d.ptp.state = .master) (due : d.ptpDue d.ptp.annAt (d.rd F.timePtpLogAnn) = true) :
    d.ptpInterval .announce =
      let seq := (d.ptp.annSeq + 1) % 65536
      { d with ptp := { d.ptp with annSeq := seq, annAt := some d.up } }.ptpSend (d.ptpFrame .announce seq) := by
  refine (if_neg (by simp [runs])).trans ?_
  exact if_pos (by simp [master, due])

theorem Dev.ptpInterval_delayReq (follows : d.ptp.state.follows = true) (endToEnd : d.on F.timePtpP2p = false)
    (due : d.ptpDue d.ptp.delayAt (d.rd F.timePtpLogDelay) = true) :
    d.ptpInterval .delayReq =
      let seq := (d.ptp.delaySeq + 1) % 65536
      { d with ptp := { d.ptp with delaySeq := seq, delayTx := d.now, delayAt := some d.up } }.ptpSend
        (d.ptpFrame .delayReq seq) := by
  refine (if_neg (by simp [runs])).trans ?_
  exact if_pos (by simp [follows, endToEnd, due])

/-! ## The announce timeout (R203, R208) -/

/-- A port whose master has been silent too long forgets it; with code 3 that loses the time source. -/
theorem Dev.ptpTimeout_due
    (due : d.spent d.ptp.announceAt (d.rd F.timePtpAnnTo * logTicks (d.rd F.timePtpLogAnn)) = true) :
    d.ptpTimeout =
      let e := { d with ptp := { d.ptp with masterRank := [], master := 0, haveDelay := false, state := d.ptpDecide none } }
      if d.rd F.timeSrc = 3 then e.sourceLost else e := by
  unfold Dev.ptpTimeout
  exact if_pos (by simp [runs, due])

end

/-- Settles O37: a message by its kind, an interval and the timeout by the test of each. -/
theorem ptpPortRuns : Obligations.PtpPortRuns := by
  unfold Obligations.PtpPortRuns
  intro s t m d next time mine own took
  have hears {e : Dev} (acts : d.ptpMessage m = e) : exec (.ptpMessage t m) s = next e :=
    (exec_ptpMessage t m s).trans (event_dev acts)
  have sends {k : PtpKind} {e : Dev} (acts : d.ptpInterval k = e) : exec (.ptpMessageInterval t k) s = next e :=
    (exec_ptpMessageInterval t k s).trans (event_dev acts)
  have forgets {e : Dev} (acts : d.ptpTimeout = e) : exec (.ptpAnnounceTimeout t) s = next e :=
    (exec_ptpAnnounceTimeout t s).trans (event_dev acts)
  refine ⟨fun out => hears (Dev.ptpMessage_passedOver out), fun runs domain foreign => ?messages, fun runs => ?own⟩
  case messages =>
    have takes : d.PtpTakes m := ⟨runs, domain, foreign⟩
    refine ⟨?syncOneStep, ?syncTwoStep, ?followUp, ?delayReq, ?delayResp, ?pdelayReq, ?pdelayResp, ?announce⟩
    case syncOneStep => exact fun kind mine oneStep => hears (Dev.ptpMessage_sync_oneStep takes kind mine oneStep)
    case syncTwoStep => exact fun kind mine twoStep => hears (Dev.ptpMessage_sync_twoStep takes kind mine twoStep)
    case followUp => exact fun kind mine awaited same => hears (Dev.ptpMessage_followUp takes kind mine awaited same)
    case delayReq => exact fun kind master endToEnd => hears (Dev.ptpMessage_delayReq takes kind master endToEnd)
    case delayResp => exact fun kind mine endToEnd own same => hears (Dev.ptpMessage_delayResp takes kind mine endToEnd own same)
    case pdelayReq => exact fun kind peers => hears (Dev.ptpMessage_pdelayReq takes kind peers)
    case pdelayResp =>
      exact fun kind peers own same oneStep => hears (Dev.ptpMessage_pdelayResp_oneStep takes kind peers own same oneStep)
    case announce =>
      exact fun kind near noMaster => ⟨_, hears (Dev.ptpMessage_announce takes kind), Dev.ptpAnnounce_first near noMaster⟩
  case own =>
    refine ⟨?sync, ?announce, ?delayReq, fun due => ?timeout⟩
    case sync => exact fun master due => sends (Dev.ptpInterval_sync runs master due)
    case announce => exact fun master due => sends (Dev.ptpInterval_announce runs master due)
    case delayReq => exact fun follows endToEnd due => sends (Dev.ptpInterval_delayReq runs follows endToEnd due)
    case timeout =>
      have acts := Dev.ptpTimeout_due runs due
      exact ⟨fun other => forgets (acts.trans (if_neg other)), fun network => forgets (acts.trans (if_pos network))⟩

end Sys2Proof.Machine
end

section
/-!
PROOFS. The family 08_time: time pulses and captures (R216 to R218). An output acts by the test of its firing or of its pulse end; the
firings that a pulse has outlasted are skipped by whole periods.
-/
namespace Sys2Proof.Machine

@[simp] theorem Dev.tpo_setTpo (d : Dev) (n k : Nat) (x : Tpo) : (d.setTpo n x).tpo k = if k = n then x else d.tpo k :=
  tget_tset _ d.tpos n x k

@[simp] theorem Dev.rd_setTpo (d : Dev) (n : Nat) (x : Tpo) (f : Fld) (i : Nat) : (d.setTpo n x).rd f i = d.rd f i := rfl

/-! ## Firings (R217) -/

/-- An output whose pulse has just begun. -/
def Dev.tpoFired (d : Dev) (n : Nat) : Tpo := { d.tpo n with level := true, endAt := d.now + d.rd F.timeTpoWidth n }

section
variable {d : Dev} {n : Nat}

/-- An output that is off, in its pulse or not yet due does not fire. -/
theorem Dev.tpoFiring_rests (rests : d.rd F.timeTpoMode n = 0 ∨ (d.tpo n).level = true ∨ d.now < (d.tpo n).next) :
    d.tpoFiring n = d := by
  have test : (decide (d.rd F.timeTpoMode n = 0) || (d.tpo n).level || decide (d.now < (d.tpo n).next)) = true := by
    simpa [or_assoc] using rests
  exact if_pos test

section
variable (low : (d.tpo n).level = false) (due : (d.tpo n).next ≤ d.now)
include low due

/-- A firing that is due begins the pulse and, by the mode, ends the programme or names the next firing. -/
theorem Dev.tpoFiring_fires (armed : d.rd F.timeTpoMode n ≠ 0) :
    d.tpoFiring n =
      let x := d.tpo n
      if d.rd F.timeTpoMode n = 1 then (d.setTpo n { d.tpoFired n with next := 0 }).wr F.timeTpoMode 0 n
      else if d.on F.timeTpoNet n then
        d.setTpo n { d.tpoFired n with nextNet := x.nextNet + x.period, next := d.toFabric (x.nextNet + x.period) }
      else d.setTpo n { d.tpoFired n with next := x.next + x.period } := by
  have test : ¬ (decide (d.rd F.timeTpoMode n = 0) || (d.tpo n).level || decide (d.now < (d.tpo n).next)) = true := by
    simp [armed, low, Nat.not_lt.mpr due]
  exact if_neg test

theorem Dev.tpoFiring_once (mode : d.rd F.timeTpoMode n = 1) :
    d.tpoFiring n = (d.setTpo n { d.tpoFired n with next := 0 }).wr F.timeTpoMode 0 n := by
  rw [Dev.tpoFiring_fires low due (by omega)]
  exact if_pos mode

theorem Dev.tpoFiring_periodic (mode : d.rd F.timeTpoMode n = 2) (fabric : d.on F.timeTpoNet n = false) :
    d.tpoFiring n = d.setTpo n { d.tpoFired n with next := (d.tpo n).next + (d.tpo n).period } := by
  rw [Dev.tpoFiring_fires low due (by omega)]
  exact (if_neg (by omega)).trans (if_neg (by simp [fabric]))

theorem Dev.tpoFiring_periodicNet (mode : d.rd F.timeTpoMode n = 2) (net : d.on F.timeTpoNet n = true) :
    d.tpoFiring n = d.setTpo n { d.tpoFired n with
      nextNet := (d.tpo n).nextNet + (d.tpo n).period, next := d.toFabric ((d.tpo n).nextNet + (d.tpo n).period) } := by
  rw [Dev.tpoFiring_fires low due (by omega)]
  exact (if_neg (by omega)).trans (if_pos net)

end

/-! ## Firings that a pulse has outlasted (R217) -/

/-- An output that is off has no firing to skip. -/
theorem Dev.tpoSkip_off (off : d.rd F.timeTpoMode n = 0) : d.tpoSkip n = d := by
  have test : (!d.on F.timeTpoMode n || decide (d.now ≤ (d.tpo n).next)) = true := by simp [Dev.on, off]
  exact if_pos test

/-- A firing still to come is not skipped. -/
theorem Dev.tpoSkip_ahead (ahead : d.now ≤ (d.tpo n).next) : d.tpoSkip n = d := by
  have test : (!d.on F.timeTpoMode n || decide (d.now ≤ (d.tpo n).next)) = true := by simp [ahead]
  exact if_pos test

/-- The periods of an output that are skipped, so that its next firing is not past. -/
def Dev.tpoSkipped (d : Dev) (n : Nat) : Nat := (d.now - (d.tpo n).next + (d.tpo n).period - 1) / (d.tpo n).period

/-- A periodic firing in fabric timebase that is past moves by whole periods. -/
theorem Dev.next_tpoSkip (mode : d.rd F.timeTpoMode n = 2) (fabric : d.on F.timeTpoNet n = false) (past : (d.tpo n).next < d.now) :
    ((d.tpoSkip n).tpo n).next = (d.tpo n).next + d.tpoSkipped n * (d.tpo n).period := by
  have test : ¬ (!d.on F.timeTpoMode n || decide (d.now ≤ (d.tpo n).next)) = true := by
    simp [Dev.on, mode, Nat.not_le.mpr past]
  have notOnce : ¬ d.rd F.timeTpoMode n = 1 := by omega
  unfold Dev.tpoSkip
  dsimp only
  rw [if_neg test, if_neg notOnce, fabric, Dev.tpo_setTpo, if_pos rfl]
  rfl

/-- As many whole periods as reach a distance pass it by less than one. -/
theorem ceilDiv_periods {gap period : Nat} (periodic : 0 < period) :
    gap ≤ (gap + period - 1) / period * period ∧ (gap + period - 1) / period * period < gap + period := by
  have whole := Nat.div_add_mod (gap + period - 1) period
  have rest := Nat.mod_lt (gap + period - 1) periodic
  rw [Nat.mul_comm] at whole
  omega

/-- The firing after those skipped is the first of its programme that is not past. -/
theorem Dev.tpoSkip_past (mode : d.rd F.timeTpoMode n = 2) (fabric : d.on F.timeTpoNet n = false) (periodic : 0 < (d.tpo n).period)
    (past : (d.tpo n).next < d.now) :
    d.now ≤ ((d.tpoSkip n).tpo n).next ∧ ((d.tpoSkip n).tpo n).next < d.now + (d.tpo n).period
      ∧ (((d.tpoSkip n).tpo n).next - (d.tpo n).next) % (d.tpo n).period = 0 := by
  obtain ⟨reaches, tight⟩ := ceilDiv_periods (gap := d.now - (d.tpo n).next) periodic
  rw [Dev.next_tpoSkip mode fabric past, Nat.add_sub_cancel_left, Nat.mul_mod_left]
  unfold Dev.tpoSkipped
  omega

/-! ## Pulse ends (R217) -/

/-- An output whose pulse has ended. -/
def Dev.tpoLow (d : Dev) (n : Nat) : Dev := d.setTpo n { d.tpo n with level := false }

section
variable (high : (d.tpo n).level = true) (lasted : (d.tpo n).endAt ≤ d.now)
include high lasted

/-- The test of `Dev.tpoEnd` lets a pulse end that has lasted its width. -/
theorem Dev.tpoEnd_test : ¬ (!(d.tpo n).level || decide (d.now < (d.tpo n).endAt)) = true := by
  simp [high, Nat.not_lt.mpr lasted]

/-- A programme that waited takes effect at the end of the pulse, and the firings outlasted are skipped. -/
theorem Dev.tpoEnd_programmed {p : TpoProg} (waits : (d.tpo n).pending = some p) :
    d.tpoEnd n = ((d.tpoLow n).programTpo n p).tpoSkip n := by
  refine (if_neg (Dev.tpoEnd_test high lasted)).trans ?_
  split
  · next q held =>
    obtain rfl := Option.some.inj (held.symm.trans waits)
    rfl
  · next free => exact absurd (free.symm.trans waits) nofun

/-- An output without a programme that waits, whose next firing needs no conversion, only ends its pulse and skips. -/
theorem Dev.tpoEnd_unprogrammed (free : (d.tpo n).pending = none)
    (unconverted : d.rd F.timeTpoMode n = 0 ∨ d.on F.timeTpoNet n = false) : d.tpoEnd n = (d.tpoLow n).tpoSkip n := by
  have kept : ¬ (decide (d.rd F.timeTpoMode n = 2) && d.on F.timeTpoNet n) = true := by
    obtain off | fabric := unconverted
    · simp [off]
    · simp [fabric]
  refine (if_neg (Dev.tpoEnd_test high lasted)).trans ?_
  split
  · next q held => exact absurd (free.symm.trans held) nofun
  · exact congrArg (Dev.tpoSkip · n) (if_neg kept)

end

end

/-! ## Captures (R218) -/

/-- The bit of TIME.TCI_EDGE that enables an edge. -/
def tciBit (rising : Bool) : Nat := if rising then 0 else 1

section
variable {d : Dev} {n : Nat} {rising : Bool}

theorem Dev.tciEdge_disabled (disabled : (d.rd F.timeTciEdge n).testBit (tciBit rising) = false) : d.tciEdge n rising = d := by
  unfold tciBit at disabled
  unfold Dev.tciEdge
  rw [disabled]
  rfl

variable (enabled : (d.rd F.timeTciEdge n).testBit (tciBit rising) = true)
include enabled

/-- An edge is captured with its polarity and instant while the FIFO has room. -/
theorem Dev.tciEdge_captured (room : (d.tci n).length < 16) :
    d.tciEdge n rising = ((d.setTci n (d.tci n ++ [(if rising then 2 ^ 63 else 0) + d.now % 2 ^ 63])).wr F.timeTciFill
      ((d.tci n).length + 1) n).raise 0x1C := by
  unfold tciBit at enabled
  unfold Dev.tciEdge
  dsimp only
  rw [enabled, if_pos room, List.length_append]
  rfl

/-- An edge that finds the FIFO full is counted lost. -/
theorem Dev.tciEdge_lost (full : 16 ≤ (d.tci n).length) :
    d.tciEdge n rising = ((d.raise 0x1C).bump F.timeTciLost n).raise 0x1B := by
  unfold tciBit at enabled
  unfold Dev.tciEdge
  dsimp only
  rw [enabled, if_neg (Nat.not_lt.mpr full)]
  rfl

end

/-! ## SET_TPO (R216, R217) -/

/-- The programme that SET_TPO gives an output, its first firing converted at execution. -/
def Dev.tpoProg (d : Dev) (mode : Byte) (start period : BitVec 64) : TpoProg :=
  let net := mode.toNat.testBit 2
  { mode := mode.toNat % 4, net := net, start := start.toNat, period := period.toNat
    first := if net then d.toFabric start.toNat else start.toNat }

/-- A programme that the block takes for an output (R216, R217): of a mode that exists, with a period longer than the pulse, in a
timebase that is known, and not due before 10 µs. -/
structure Dev.Programmable (d : Dev) (index mode : Byte) (start period : BitVec 64) : Prop where
  output : index.toNat ≤ 7
  unreserved : mode.toNat < 8
  known : mode.toNat % 4 ≠ 3
  spaced : mode.toNat % 4 = 2 → 1000 ≤ tpoTicks (mode.toNat.testBit 2) period.toNat
    ∧ d.rd F.timeTpoWidth index.toNat + 8 < tpoTicks (mode.toNat.testBit 2) period.toNat
  netKnown : mode.toNat.testBit 2 = true → d.on F.timeNetValid = true
  ahead : d.now + 100000 ≤ (d.tpoProg mode start period).first

/-- SET_TPO of a programme that the block takes: an output in its pulse keeps it for the end of the pulse, any other takes it now. -/
theorem hSetTpo_programs {d : Dev} {index mode : Byte} {start period : BitVec 64} (c : Ctx)
    (fine : d.Programmable index mode start period) :
    hSetTpo index mode start period c d = .reply stOk [] (if (d.tpo index.toNat).level then
      d.setTpo index.toNat { d.tpo index.toNat with pending := some (d.tpoProg mode start period) }
      else d.programTpo index.toNat (d.tpoProg mode start period)) := by
  obtain ⟨output, unreserved, known, spaced, netKnown, ahead⟩ := fine
  refine orRefuse_passes _ _ (passes_refuseIf ?mode (passes_refuseIf ?spaced (passes_refuseIf ?reserved (passes_refuseIf ?netKnown
    (passes_refuseIf ?ahead passes_nil)))))
  case mode => simp [known, Nat.not_lt.mpr output]
  case spaced =>
    by_cases periodic : mode.toNat % 4 = 2
    · obtain ⟨long, clear⟩ := spaced periodic
      simp [Nat.not_lt.mpr long, Nat.not_le.mpr clear]
    · simp [periodic]
  case reserved => exact decide_eq_false (Nat.not_le.mpr unreserved)
  case netKnown =>
    cases net : mode.toNat.testBit 2 with
    | false => rfl
    | true => rw [netKnown net]; rfl
  case ahead => exact decide_eq_false (Nat.not_lt.mpr ahead)

/-- Settles O38: an output by the test of its firing and of its pulse end, an input by its edge and its room, SET_TPO by the pulse that
it finds. -/
theorem pulsesAndCapturesAct : Obligations.PulsesAndCapturesAct := by
  unfold Obligations.PulsesAndCapturesAct
  refine ⟨fun s t => ?events, fun d n mode fabric periodic => ?skip, fun s t src h index mode start period => ?setTpo⟩
  case events =>
    intro d next
    refine ⟨fun n => ?outputs, fun n rising => ?inputs⟩
    case outputs =>
      intro x fired
      have fires {e : Dev} (acts : d.tpoFiring n = e) : exec (.tpoFiring t n) s = next e :=
        (exec_tpoFiring t n s).trans (event_dev acts)
      have ends {e : Dev} (acts : d.tpoEnd n = e) : exec (.tpoPulseEnd t n) s = next e :=
        (exec_tpoPulseEnd t n s).trans (event_dev acts)
      refine ⟨fun rests => fires (Dev.tpoFiring_rests rests), fun low due => ⟨?once, ?periodic, ?periodicNet⟩,
        fun high lasted => ?ended⟩
      case once => exact fun mode => fires (Dev.tpoFiring_once low due mode)
      case periodic => exact fun mode fabric => fires (Dev.tpoFiring_periodic low due mode fabric)
      case periodicNet => exact fun mode net => fires (Dev.tpoFiring_periodicNet low due mode net)
      case ended =>
        exact ⟨fun free off => ends ((Dev.tpoEnd_unprogrammed high lasted free (.inl off)).trans (Dev.tpoSkip_off off)),
          fun free fabric => ends (Dev.tpoEnd_unprogrammed high lasted free (.inr fabric)),
          fun p waits => ends (Dev.tpoEnd_programmed high lasted waits)⟩
    case inputs =>
      intro bit
      have captures {e : Dev} (acts : d.tciEdge n rising = e) : exec (.tciEdge t n rising) s = next e :=
        (exec_tciEdge t n rising s).trans (event_dev acts)
      exact ⟨fun disabled => captures (Dev.tciEdge_disabled disabled),
        fun enabled room => captures (Dev.tciEdge_captured enabled room),
        fun enabled full => captures (Dev.tciEdge_lost enabled full)⟩
  case skip => exact ⟨Dev.tpoSkip_ahead, Dev.tpoSkip_past mode fabric periodic⟩
  case setTpo =>
    intro p d n net first ticks prog a output unreserved known spaced netKnown ahead
    have fine : d.Programmable index mode start period := ⟨output, unreserved, known, spaced, netKnown, ahead⟩
    have answered := (exec_setTpo t src h index mode start period s).trans
      (p.opcode_answers s (hSetTpo index mode start period) _ _ _ a (hSetTpo_programs _ fine) (Nat.zero_le _))
    refine ⟨fun low => ?_, fun high => ?_⟩
    · rw [answered, if_neg (Bool.eq_false_iff.mp low)]
      rfl
    · rw [answered, if_pos high]
      rfl

end Sys2Proof.Machine
end

section
/-!
PROOFS. The family 08_time: the reads of time, queues, twin and Lantern (R212, R215, R380, R396, R476, R490 to R492; log entry 170),
and those whose layout is open (log entry 11). Each handler is a list of checks and one reply: its lemma says the reply where no check
refuses.
-/
namespace Sys2Proof.Machine

/-! ## Checks that pass -/

/-- A variant with Lantern refuses no acquisition opcode (R2). -/
theorem passes_noAcq {d : Dev} (lantern : d.acqLevel ≠ 0) : passes [d.noAcq] :=
  passes_refuseIf (beq_eq_false_iff_ne.mpr lantern) passes_nil

/-- The check that HIST_READ and AFTERGLOW_READ share passes a range that is not empty and ends within a unit that exists. -/
theorem rangeBad_false {unit last first n top : Nat} (known : unit ≤ last) (least : 0 < n) (inside : first + n ≤ top) :
    (decide (last < unit) || decide (n = 0) || decide (top < first + n)) = false := by
  simp only [Bool.or_eq_false_iff, decide_eq_false_iff_not]
  omega

/-! ## The replies (R212, R218, R380, R396, R476, R490 to R492) -/

section
variable (c : Ctx) {d : Dev}

theorem hReadTci_reads {index : Byte} (known : index.toNat ≤ 3) :
    hReadTci index c d =
      .reply stOk ((d.tci index.toNat).flatMap (le 8)) ((d.setTci index.toNat []).wr F.timeTciFill 0 index.toNat) :=
  if_neg (Nat.not_lt.mpr known)

theorem hTwinStatus_reads (twin : d.hasTwin = true) : hTwinStatus c d = hReadObject 0x0E01 0 8 c d := orRefuse_noTwin twin _

theorem hPilotReport_reads (twin : d.hasTwin = true) :
    hPilotReport c d = .reply stOk (if d.rd F.twinRole = 1 then d.twin.report else d.twin.ownReport) d := orRefuse_noTwin twin _

theorem hAcqStatus_reads (lantern : d.acqLevel ≠ 0) :
    hAcqStatus c d = .reply stOk (natsBytes (d.readRange 0x1310 0 3 ++ d.readRange 0x1311 0 4)) d :=
  orRefuse_passes _ _ (passes_noAcq lantern)

/-- The bins of a unit, from one on (R491). -/
def Dev.histBins (d : Dev) (unit first count : Nat) : List Nat :=
  (List.range count).map fun i => tget (fun _ => 0) d.acq.bins (unit * 4096 + first + i)

theorem hHistRead_reads {unit : Byte} {first count : BitVec 16} (lantern : d.acqLevel ≠ 0) (known : unit.toNat ≤ 3)
    (least : 0 < count.toNat) (inside : first.toNat + count.toNat ≤ 4096) :
    hHistRead unit first count c d = .reply stOk (natsBytes (d.histBins unit.toNat first.toNat count.toNat)) d :=
  orRefuse_passes _ _ (passes_append (passes_noAcq lantern)
    (passes_refuseIf (rangeBad_false known least inside) passes_nil))

/-- The rows of an afterglow map, from one on (R490). -/
def Dev.glowBytes (d : Dev) (map first rows : Nat) : Bytes :=
  (List.range (256 * rows)).flatMap fun i => le 2 (tget (fun _ => 0) d.acq.bins (2 ^ 20 + map * 65536 + first * 256 + i))

@[simp] theorem Dev.glowBytes_length (d : Dev) (map first rows : Nat) : (d.glowBytes map first rows).length = 512 * rows := by
  rw [Dev.glowBytes, length_flatMap_of _ _ 2 (by simp), List.length_range]
  omega

theorem hAfterglowRead_reads {map : Byte} {first rows : BitVec 16} (level : 2 ≤ d.acqLevel) (known : map.toNat ≤ 1)
    (least : 0 < rows.toNat) (inside : first.toNat + rows.toNat ≤ 256) :
    hAfterglowRead map first rows c d = .reply stOk (d.glowBytes map.toNat first.toNat rows.toNat) d :=
  orRefuse_passes _ _ (passes_refuseIf (decide_eq_false (Nat.not_lt.mpr level))
    (passes_refuseIf (rangeBad_false known least inside) passes_nil))

/-- What QUEUE_STATUS tells of a queue: its two words of SO 0x1201 and HMP.Q_CHUNKS (log entry 170). -/
def Dev.queueFacts (d : Dev) (q : Nat) : List Nat := d.readRange 0x1201 (2 * q) 2 ++ [(d.queue q).chunks.length]

/-- The queues of QUEUE_STATUS, in their order. -/
def Dev.queueWords (d : Dev) (first count : Nat) : List Nat := (List.range count).flatMap fun i => d.queueFacts (first + i)

@[simp] theorem Dev.queueWords_length (d : Dev) (first count : Nat) : (d.queueWords first count).length = 3 * count := by
  have facts : (fun i => (d.queueFacts (first + i)).length) = fun _ => 3 := by
    funext i
    rw [Dev.queueFacts, List.length_append, Dev.readRange_length]
    rfl
  rw [Dev.queueWords, List.length_flatMap, facts, List.map_const', List.sum_replicate_nat, List.length_range, Nat.mul_comm]

theorem hQueueStatus_reads {first count : Byte} (inside : first.toNat + count.toNat ≤ 64) :
    hQueueStatus first count c d = .reply stOk (natsBytes (d.queueWords first.toNat count.toNat)) d := by
  refine (orRefuse_passes _ _ (passes_refuseIf (decide_eq_false (Nat.not_lt.mpr inside)) passes_nil)).trans ?_
  rw [List.flatMap_map]
  rfl

/-! ## Replies of an open layout (log entry 11) -/

/-- A reply of an open layout fits every port. -/
theorem openReply_length_le (op : Nat) (facts : List Nat) : (openReply op facts).length ≤ 1456 := by
  rw [openReply, List.length_map, List.length_range]
  exact Nat.min_le_left ..

/-- UNIT_STATUS is refused for absence only where every slot named is absent, so not over no slot or over one that is present (log
entry 39). -/
theorem Dev.slotsAbsent_false {first count : Byte}
    (asked : count = 0 ∨ ∃ u, first.toNat ≤ u ∧ u < first.toNat + count.toNat ∧ d.slotPresent u = true) :
    (let us := (List.range count.toNat).map (first.toNat + ·)
     !us.isEmpty && us.all fun u => decide (u < 128) && !d.slotPresent u) = false := by
  dsimp only
  obtain rfl | ⟨u, low, high, present⟩ := asked
  · rfl
  · rw [Bool.and_eq_false_iff]
    right
    rw [List.all_eq_false]
    exact ⟨u, List.mem_map.mpr ⟨u - first.toNat, List.mem_range.mpr (by omega), by omega⟩, by simp [present]⟩

theorem hUnitStatus_reads {first count : Byte} (inside : first.toNat + count.toNat ≤ 128)
    (asked : count = 0 ∨ ∃ u, first.toNat ≤ u ∧ u < first.toNat + count.toNat ∧ d.slotPresent u = true) :
    ∃ facts, hUnitStatus first count c d = .reply stOk (openReply 0xA2 facts) d :=
  ⟨_, orRefuse_passes _ _ (passes_refuseIf (Dev.slotsAbsent_false asked)
    (passes_refuseIf (decide_eq_false (Nat.not_lt.mpr inside)) passes_nil))⟩

end

/-- An opcode whose layout is open answers OK with data that fit every port, and leaves the block alone. -/
theorem Pkt.opcode_openReply (p : Pkt) (s : State) (h : Handler) (a : p.Admitted s)
    (reads : ∃ op facts, h (p.ctx s) (p.taken s) = .reply stOk (openReply op facts) (p.taken s)) :
    ∃ data : Bytes, data.length ≤ 1456
      ∧ opcode p.op p.t p.src p.hd p.payload p.need h s = .next (p.answered s (p.taken s) stOk data) := by
  obtain ⟨op, facts, reply⟩ := reads
  have short := openReply_length_le op facts
  exact ⟨_, short, p.opcode_answers s h stOk _ _ a reply (fits_of_le p.src short)⟩

/-- Settles O6: by what each handler reads where its checks pass, and the length of it. -/
theorem unitReadsAnswer : Obligations.UnitReadsAnswer := by
  unfold Obligations.UnitReadsAnswer
  refine ⟨fun s t src h => ?laidOut, fun s t src h => ?openLayout⟩
  case laidOut =>
    intro p d read
    have room := replyLimit_ge src
    refine ⟨fun a => ?getTime, fun index => ?readTci, fun a twin => ?twinStatus, fun a twin => ?pilotReport,
      fun a lantern => ?acqStatus, fun unit first count => ?histRead, fun map first rows => ?afterglowRead,
      fun first count => ?queueStatus⟩
    case getTime =>
      rw [exec_getTime]
      exact (p 0x70).opcode_answers s hGetTime _ _ _ a rfl (fits_of_le src (by simp))
    case readTci =>
      intro p a known fits
      have bytes : (((p.taken s).tci index.toNat).flatMap (le 8)).length = _ := length_flatMap_of _ _ 8 (by simp)
      rw [exec_readTci]
      exact p.opcode_answers s (hReadTci index) _ _ _ a (hReadTci_reads _ known) (by rwa [bytes])
    case twinStatus =>
      rw [exec_twinStatus]
      exact (p 0x90).opcode_readObject s hTwinStatus _ _ _ a (hTwinStatus_reads _ twin) (Nat.le_trans (by decide) room)
    case pilotReport =>
      intro report fits
      rw [exec_pilotReport]
      exact (p 0x92).opcode_answers s hPilotReport _ _ _ a (hPilotReport_reads _ twin) fits
    case acqStatus =>
      rw [exec_acqStatus]
      exact (p 0xC2).opcode_answers s hAcqStatus _ _ _ a (hAcqStatus_reads _ lantern) (fits_of_le src (by simp))
    case histRead =>
      intro p a lantern known least inside
      have fits : (histNeed count).reply ≤ replyLimit src := a.reply_fits
      rw [show (histNeed count).reply = 4 * count.toNat from if_pos (by omega)] at fits
      rw [exec_histRead]
      exact p.opcode_answers s (hHistRead unit first count) _ _ _ a (hHistRead_reads _ lantern known least inside)
        (by simpa [Dev.histBins] using fits)
    case afterglowRead =>
      intro p a level known least inside
      have fits : (glowNeed rows).reply ≤ replyLimit src := a.reply_fits
      rw [show (glowNeed rows).reply = 512 * rows.toNat from if_pos (by omega)] at fits
      rw [exec_afterglowRead]
      exact p.opcode_answers s (hAfterglowRead map first rows) _ _ _ a (hAfterglowRead_reads _ level known least inside)
        (Nat.le_trans (Nat.le_of_eq (Dev.glowBytes_length ..)) fits)
    case queueStatus =>
      intro p a inside
      have words : (natsBytes ((p.taken s).queueWords first.toNat count.toNat)).length = 4 * (3 * count.toNat) := by simp
      rw [exec_queueStatus]
      exact p.opcode_answers s (hQueueStatus first count) _ _ _ a (hQueueStatus_reads _ inside)
        (fits_of_le src (Nat.le_trans (Nat.le_of_eq words) (by omega)))
  case openLayout =>
    intro read
    refine ⟨?ptpStatus, ?imageStatus, fun first count => ?unitStatus⟩
    case ptpStatus =>
      intro p a
      rw [exec_ptpStatus]
      exact p.opcode_openReply s hPtpStatus a ⟨_, _, rfl⟩
    case imageStatus =>
      intro p a
      rw [exec_imageStatus]
      exact p.opcode_openReply s hImageStatus a ⟨_, _, rfl⟩
    case unitStatus =>
      intro p a inside asked
      rw [exec_unitStatus]
      exact (p 0xA2).opcode_openReply s (hUnitStatus first count) a ⟨_, hUnitStatus_reads _ inside asked⟩

end Sys2Proof.Machine
end

section
/-!
PROOFS. The family 09_modulation_edges: the events of cells and of the fast path (R245, R247, R249, R270). Each row of a cell turns on
one test; a trigger turns on whether one waits for its slot.
-/
namespace Sys2Proof.Machine

section
variable {s : State} {t : Nat}

/-! ## The events of a cell (R245, R247, R249) -/

section
variable {slot : Fin 96}

/-- A slot held for as many epochs as MOD.HOLD_MAX allows raises class 11 (R245). -/
theorem exec_cellSamplesLost_held
    (held : (s.dev.advance t).rd F.modCHeld slot = max 1 ((s.dev.advance t).rd F.modHoldMax)) :
    exec (.cellSamplesLost t slot) s = .next { s with dev := (s.dev.advance t).fault 11 slot } :=
  (exec_cellSamplesLost t slot s).trans (event_dev (if_pos held))

/-- A bypass that no cell has confirmed within eight epochs is warned of, where that has not been done (R247). -/
theorem exec_bypassUnconfirmed_warns {c : Cell} (cell : (s.dev.advance t).cell slot = c) (bypassing : c.stage = 2)
    (late : 8 ≤ c.epochs) (unwarned : c.warned = false) :
    exec (.bypassUnconfirmed t slot) s =
      .next { s with dev := ((s.dev.advance t).setCell slot { c with warned := true }).raise 0x23 } := by
  subst cell
  refine (exec_bypassUnconfirmed t slot s).trans (event_dev (if_pos ?_))
  rw [Bool.and_eq_true, Bool.and_eq_true, decide_eq_true_iff, decide_eq_true_iff, Bool.not_eq_true']
  exact ⟨⟨bypassing, late⟩, unwarned⟩

/-- A cell whose reinsertion ramp has run its epochs is active, and shown so (R249). -/
theorem exec_reinsertRampEnd_activates {c : Cell} (cell : (s.dev.advance t).cell slot = c) (reinserted : c.stage = 4)
    (ran : (s.dev.advance t).rd F.modReinsertRamp ≤ c.ramp) :
    exec (.reinsertRampEnd t slot) s =
      .next { s with dev := ((s.dev.advance t).setCell slot { c with stage := 1, ramp := 0, causes := 0 }).showCell slot } := by
  subst cell
  refine (exec_reinsertRampEnd t slot s).trans (event_dev (if_pos ?_))
  rw [Bool.and_eq_true, decide_eq_true_iff, decide_eq_true_iff]
  exact ⟨reinserted, ran⟩

end

/-! ## The triggers of a fast-path slot (R270) -/

section
variable {slot : Fin 256}

/-- A unit that holds the Wick takes the first trigger that waits for the slot; the control engine then does what falls due
(R270). -/
theorem exec_fastPathTrigger_waiting {x : Nat × Nat}
    (waiting : ((s.dev.advance t).engines.triggers.find? fun y => y.1 == slot.val) = some x)
    (own : (s.dev.advance t).rd F.twinRole ≤ 1) :
    exec (.fastPathTrigger t slot) s =
      let d := s.dev.advance t
      let e := { d with engines := { d.engines with triggers := d.engines.triggers.erase x } }.fastTrigger slot x.2
      .next { s with dev := e.engineTo e.now } := by
  refine (exec_fastPathTrigger t slot s).trans (event_dev ?_)
  rw [waiting]
  exact if_neg (by omega)

/-- Where no trigger waits for the slot nothing happens. -/
theorem exec_fastPathTrigger_none
    (idle : ((s.dev.advance t).engines.triggers.find? fun y => y.1 == slot.val) = none) :
    exec (.fastPathTrigger t slot) s = .next { s with dev := s.dev.advance t } := by
  refine (exec_fastPathTrigger t slot s).trans (event_dev ?_)
  rw [idle]

end

end

/-- Settles O27: each event of a cell by the test of its row, a trigger by whether one waits for the slot. -/
theorem cellAndTriggerEventsAct : Obligations.CellAndTriggerEventsAct := by
  unfold Obligations.CellAndTriggerEventsAct
  intro s t d next
  refine ⟨fun slot => ?cell, fun slot x waiting => ?trigger, fun slot => exec_fastPathTrigger_none⟩
  case cell =>
    intro c
    exact ⟨exec_cellSamplesLost_held, exec_bypassUnconfirmed_warns rfl, exec_reinsertRampEnd_activates rfl⟩
  case trigger => exact exec_fastPathTrigger_waiting waiting

end Sys2Proof.Machine
end

section
/-!
PROOFS. The family 10_control_engine: live tuning (R274, R275) and the regular slots of a cycle (R264). A tuning row is one handler
over a list of entries; a failure of CHECK reaches its report whatever the order the report is put in.
-/
namespace Sys2Proof.Machine

/-! ## Live tuning (R274, R275) -/

/-- A tuning write that nothing refuses makes its entries in order and answers the evaluation counts. -/
theorem hTune_tunes {entries : List (Nat × Nat × Word)} (c : Ctx) {d : Dev} (unrefused : passes (d.tuneRefusals entries)) :
    hTune entries c d = .reply stOk (natsBytes (tuneAll entries d).1) (tuneAll entries d).2 :=
  orRefuse_passes _ _ unrefused

/-- Each entry of a tuning write has one evaluation count in the reply (R275). -/
@[simp] theorem tuneAll_counts_length (entries : List (Nat × Nat × Word)) (d : Dev) :
    (tuneAll entries d).1.length = entries.length := by
  induction entries generalizing d with
  | nil => rfl
  | cons e rest ih => simp [tuneAll, ih]

/-- The counts of at most 8 entries fit the reply of every port (R94). -/
theorem tuneReply_fits {entries : List (Nat × Nat × Word)} (d : Dev) (src : Src) (few : entries.length ≤ 8) :
    (natsBytes (tuneAll entries d).1).length ≤ replyLimit src :=
  fits_of_le src (by rw [natsBytes_length, tuneAll_counts_length]; omega)

/-- An opcode that tunes at most 8 entries, admitted and unrefused, makes them and answers OK with their counts. -/
theorem Pkt.opcode_tunes (p : Pkt) (s : State) {entries : List (Nat × Nat × Word)} (few : entries.length ≤ 8)
    (fine : p.Admitted s ∧ passes ((p.taken s).tuneRefusals entries)) :
    opcode p.op p.t p.src p.hd p.payload p.need (hTune entries) s =
      let r := tuneAll entries (p.taken s)
      .next (p.answered s r.2 stOk (natsBytes r.1)) := by
  obtain ⟨admitted, unrefused⟩ := fine
  exact p.opcode_answers s (hTune entries) _ _ _ admitted (hTune_tunes (p.ctx s) unrefused) (tuneReply_fits _ _ few)

/-- TUNE_WORDS with 1 to 8 entries has the length that R114 gives. -/
theorem execTuneWords_fits {entries : List (BitVec 16 × BitVec 16 × Word)} (t : Nat) (src : Src) (h : Hdr) (s : State)
    (nonempty : entries ≠ []) (few : entries.length ≤ 8) :
    execTuneWords t src h entries s =
      opcode 0x51 t src h (entries.flatMap fun e => le 2 e.1.toNat ++ le 2 e.2.1.toNat ++ wordBytes e.2.2) { auth := authC }
        (hTune (entries.map fun e => (e.1.toNat, e.2.1.toNat, e.2.2))) s := by
  have fits : (!entries.isEmpty && decide (entries.length ≤ 8)) = true := by simp [nonempty, few]
  unfold execTuneWords
  rw [fits, opcodeLen_eq]

/-- Settles O8: both rows are `Pkt.opcode_tunes`, of one entry and of 1 to 8. -/
theorem tuningChangesTheSlot : Obligations.TuningChangesTheSlot := by
  unfold Obligations.TuningChangesTheSlot
  intro s t src h entries p es fine tuned
  refine ⟨?tuneWord, ?tuneWords⟩
  case tuneWord =>
    intro slot word v one ok
    subst one
    have payload : (p 0x50).payload = le 2 slot.toNat ++ le 2 word.toNat ++ wordBytes v := List.append_nil _
    have tunes := (p 0x50).opcode_tunes s (entries := es) (show 1 ≤ 8 by decide) ok
    rw [payload] at tunes
    exact (exec_tuneWord t src h slot word v s).trans tunes
  case tuneWords =>
    intro nonempty few ok
    rw [exec_tuneWords, execTuneWords_fits t src h s nonempty few]
    exact (p 0x51).opcode_tunes s (by rw [List.length_map]; exact few) ok

/-! ## When a slot is due (R264) -/

theorem Dev.due_iff {d : Dev} {s : Nat} (k : Nat) (regular : d.regular s = true) :
    d.due s k = true ↔ k % (d.rd F.loopDiv s + 1) = d.rd F.loopPhase s := by
  rw [Dev.due, regular, Bool.true_and, decide_eq_true_iff]

/-! ## Failures on the way to the report of CHECK (R125, R126) -/

@[simp] theorem mem_insertBy {α : Type} {key : α → Int} {x a : α} {l : List α} : a ∈ insertBy key x l ↔ a = x ∨ a ∈ l := by
  induction l with
  | nil => simp [insertBy]
  | cons y rest ih =>
    unfold insertBy
    split
    · exact List.mem_cons
    · rw [List.mem_cons, ih, List.mem_cons, or_left_comm]

theorem mem_foldl_insertBy {α : Type} {key : α → Int} {a : α} (l acc : List α) :
    a ∈ l.foldl (fun acc x => insertBy key x acc) acc ↔ a ∈ l ∨ a ∈ acc := by
  induction l generalizing acc with
  | nil => simp
  | cons x rest ih => rw [List.foldl_cons, ih, mem_insertBy, List.mem_cons, or_left_comm, or_assoc]

/-- Sorting keeps the members of a list. -/
@[simp] theorem mem_sortBy {α : Type} {key : α → Int} {a : α} {l : List α} : a ∈ sortBy key l ↔ a ∈ l :=
  (mem_foldl_insertBy l []).trans (or_iff_left List.not_mem_nil)

/-- Dropping repeats keeps the members of a list. -/
@[simp] theorem mem_dedup {α : Type} [DecidableEq α] {a : α} {l : List α} : a ∈ dedup l ↔ a ∈ l := by
  induction l with
  | nil => rfl
  | cons x rest ih =>
    cases rest with
    | nil => rfl
    | cons y rest =>
      unfold dedup
      dsimp only
      split
      · next same => simp [ih, same]
      · rw [List.mem_cons, ih, ← List.mem_cons]

theorem mem_overAll {n : Nat} {f : Nat → List CkEntry} {e : CkEntry} : e ∈ overAll n f ↔ ∃ i < n, e ∈ f i := by
  simp [overAll]

/-- A condition that holds gives its entry, at the lowest bit of its field (log entry 34). -/
theorem Fld.mem_fails {f : Fld} {i rule : Nat} {bad : Bool} (holds : bad = true) :
    (f.soAt i, f.wordAt i, f.lo, rule) ∈ f.fails i rule bad := by
  rw [Fld.fails, if_pos holds]
  exact List.mem_singleton_self _

theorem Dev.mem_enabledSlots {d : Dev} {s : Nat} : s ∈ d.enabledSlots ↔ s < d.loopSlots ∧ d.on F.loopEn s = true := by
  rw [Dev.enabledSlots, List.mem_filter, List.mem_range]

/-- The report holds every failure of the merged view. -/
theorem Dev.mem_ckReport {d : Dev} {auth : Nat} {e : CkEntry} : e ∈ d.ckReport auth ↔ e ∈ d.ckAll d.merged auth := by
  rw [Dev.ckReport, mem_dedup, mem_sortBy]

/-- A slot whose LOOP.PHASE is above its LOOP.DIV fails by rule 0x02 (R264). -/
theorem Dev.phase_mem_ckLoopWords {m : Dev} {s : Nat} (above : m.rd F.loopDiv s < m.rd F.loopPhase s) :
    (F.loopPhase.soAt s, F.loopPhase.wordAt s, F.loopPhase.lo, 2) ∈ m.ckLoopWords s := by
  have fails := Fld.mem_fails (f := F.loopPhase) (i := s) (rule := 2) (decide_eq_true above)
  simp only [Dev.ckLoopWords, List.mem_append, fails, or_true, true_or]

/-- What the words of a present slot fail is among the failures of CHECK; fifteen lists of failures follow it there. -/
theorem Dev.ckLoopWords_mem_ckAll {d m : Dev} {s auth : Nat} {e : CkEntry} (present : s < m.loopSlots)
    (fails : e ∈ m.ckLoopWords s) : e ∈ d.ckAll m auth := by
  have listed : e ∈ overAll m.loopSlots fun s => m.ckLoopWords s := mem_overAll.mpr ⟨s, present, fails⟩
  unfold Dev.ckAll
  iterate 15 apply List.mem_append_left
  exact List.mem_append_right _ listed

/-- CHECK passes exactly when its report is empty (R126). -/
theorem Dev.rd_stgCkPass_runCheck (d : Dev) (auth : Nat) :
    (d.runCheck auth).rd F.stgCkPass = flag (d.ckReport auth).isEmpty := by
  unfold Dev.runCheck
  dsimp only
  split <;> simp (disch := decide) only [Dev.rd_wr_apart, Dev.rd_wr_same] <;> exact flag_mod_two _

/-- A CHECK with a failure to report does not pass. -/
theorem Dev.runCheck_fails {d : Dev} {auth : Nat} {e : CkEntry} (reported : e ∈ d.ckReport auth) :
    (d.runCheck auth).rd F.stgCkPass = 0 := by
  have nonempty : (d.ckReport auth).isEmpty = false := List.isEmpty_eq_false_iff.mpr (List.ne_nil_of_mem reported)
  rw [Dev.rd_stgCkPass_runCheck, nonempty]
  rfl

/-- Settles O59: by the definition of due; and a phase above the divisor is a failure of the slot's words, which CHECK reports. -/
theorem regularSlotsFallDue : Obligations.RegularSlotsFallDue := by
  unfold Obligations.RegularSlotsFallDue
  refine ⟨fun d s k regular => Dev.due_iff k regular, ?check⟩
  case check =>
    intro d s auth enabled above
    obtain ⟨present, -⟩ := Dev.mem_enabledSlots.mp enabled
    have reported := Dev.mem_ckReport.mpr
      (Dev.ckLoopWords_mem_ckAll (d := d) (auth := auth) present (Dev.phase_mem_ckLoopWords above))
    exact ⟨reported, Dev.runCheck_fails reported⟩

end Sys2Proof.Machine
end

section
/-!
PROOFS. The family 17_safety_functions, its opcodes (R432 to R437, R442): what each handler of the safety island answers once nothing
refuses it.
-/
namespace Sys2Proof.Machine

section
variable {d : Dev} (c : Ctx)

/-! ## The handlers of the safety opcodes (R433, R435, R437, R442) -/

theorem hSafeTest_held (held : d.mode = .held) : hSafeTest c d = .reply stAccepted [] d.startTests := if_neg (not_not_intro held)

theorem hSafeAck_leaves (snuffed : d.mode = .snuffed) (edge : d.edgeValid = true) (free : d.snuffHolds = 0) :
    hSafeAck c d = .reply stOk (le 4 (d.leaveSnuffed.word 0x0002 0)) d.leaveSnuffed := by
  simp [hSafeAck, snuffed, edge, free]

/-- Nothing of R435 stands against the close pulse. -/
structure Dev.mayClose (d : Dev) : Prop where
  rests : d.mode = .held ∨ d.mode = .precharge
  role : d.rd F.twinRole ≤ 1
  guard : d.on F.sysGuardPend = false
  noTrip : d.on F.safeTripActive = false
  noTest : d.on F.safeTestRun = false
  noDemand : d.on F.fltSet 28 = false
  noSafetyFault : d.on F.fltSet 29 = false
  switches : d.rd F.safeSwOk = 15
  isOpen : d.on F.safeBkrClosed = false
  noPulse : d.on F.safeCloseActive = false

theorem hBreakerClose_pulses (may : d.mayClose) :
    hBreakerClose c d = .reply stAccepted []
      ((({ d with island := { d.island with closeSeen := false, closeAt := d.up } }.wr F.safeCloseActive 1).driveSwitches
        (switchBit 2 + switchBit 3))) := by
  obtain ⟨rests, role, guard, noTrip, noTest, noDemand, noSafetyFault, switches, isOpen, noPulse⟩ := may
  have away : (decide (d.mode ≠ .held) && decide (d.mode ≠ .precharge) || decide (1 < d.rd F.twinRole)) = false := by
    obtain held | precharge := rests
    · simp [held, role]
    · simp [precharge, role]
  unfold hBreakerClose
  dsimp only
  rw [away]
  simp [guard, noTrip, noTest, noDemand, noSafetyFault, switches, isOpen, noPulse]

theorem hBreakerTrip_switching (switching : d.mode.switching = true) :
    hBreakerTrip c d = .reply stAccepted [] (d.fault 28 1).safeState := if_pos switching

theorem hBreakerTrip_active (rests : d.mode.switching = false) (active : d.on F.safeTripActive = true) :
    hBreakerTrip c d = .reply stAccepted [] d := by
  simp [hBreakerTrip, rests, active]

theorem hBreakerTrip_demands (rests : d.mode.switching = false) (idle : d.on F.safeTripActive = false) :
    hBreakerTrip c d = .reply stAccepted [] (d.tripDemand (decide (d.mode = .snuffed))) := by
  simp [hBreakerTrip, rests, idle]

end

/-- Settles O11: by what each handler answers in the mode that its clause names. -/
theorem safetyOpcodesAct : Obligations.SafetyOpcodesAct := by
  unfold Obligations.SafetyOpcodesAct
  intro s t src h
  refine ⟨?test, ?ack, ?close, ?trip⟩
  case test =>
    intro switch p a held
    exact (exec_safeTest t src h switch s).trans (p.opcode_answers s hSafeTest _ _ _ a (hSafeTest_held _ held) (Nat.zero_le _))
  case ack =>
    intro p d a snuffed edge free
    exact (exec_safeAck t src h s).trans
      (p.opcode_answers s hSafeAck _ _ _ a (hSafeAck_leaves _ snuffed edge free) (fits_of_le src (by simp)))
  case close =>
    intro p d a rests role guard noTrip noTest noDemand noSafetyFault switches isOpen noPulse
    exact (exec_breakerClose t src h s).trans (p.opcode_answers s hBreakerClose _ _ _ a
      (hBreakerClose_pulses _ ⟨rests, role, guard, noTrip, noTest, noDemand, noSafetyFault, switches, isOpen, noPulse⟩)
      (Nat.zero_le _))
  case trip =>
    intro p d
    refine ⟨fun a switching => ?_, fun a rests active => ?_, fun a rests idle => ?_⟩
    all_goals rw [exec_breakerTrip]
    · exact p.opcode_answers s hBreakerTrip _ _ _ a (hBreakerTrip_switching _ switching) (Nat.zero_le _)
    · exact p.opcode_answers s hBreakerTrip _ _ _ a (hBreakerTrip_active _ rests active) (Nat.zero_le _)
    · exact p.opcode_answers s hBreakerTrip _ _ _ a (hBreakerTrip_demands _ rests idle) (Nat.zero_le _)

end Sys2Proof.Machine
end

section
/-!
PROOFS. The family 17_safety_functions, its events (R428 to R440): the door guard's change said once as what is seen and what follows
from it; every other event is one condition and what it does once the condition holds.
-/
namespace Sys2Proof.Machine

/-- What an event does to the block at its instant. -/
theorem event_at {s : State} {t : Nat} {d e : Dev} {f : Dev → Dev} (now : s.dev.advance t = d) (acts : f d = e) :
    event t s f = .next { s with dev := e } := event_dev (now ▸ acts)

/-! ## The door guard (R429 to R431) -/

section
variable (d : Dev) (a b : Bool)

/-- The block once the guard's channels are seen, given whether they read closed, open and at odds (R429, R431). -/
def Dev.guardMarked (closed opened atOdds : Bool) : Dev :=
  let seen := ((d.wr F.safeGuardA (flag a)).wr F.safeGuardB (flag b)).wr F.safeGuardClosed (flag closed)
  { seen with island := { d.island with
    guardTest := guardNext d.island.guardTest d.island.startTest closed opened
    discrepancy := d.island.discrepancy && atOdds, guardFrom := d.up
    discFrom := if d.guardDiscrepant then d.island.discFrom else d.up } }

/-- The block once the guard's channels are seen. -/
def Dev.guardSeen : Dev := d.guardMarked a b (a && !b) (!a && b) (decide (a = b))

/-- What follows from a guard seen to open or to close (R430, R445). -/
def Dev.guardFollows (was closed : Bool) : Dev :=
  if was && !closed then
    let x := d.raise 0x70
    if !x.mode.guardMayOpen then (x.fault 28 0).safeState
    else if x.mode = .held && !x.on F.sysGuardPend then
      { x.wr F.sysGuardPend 1 with island := { x.island with guardTest := .waitClose, startTest := false } }
    else x
  else if !was && closed then d.raise 0x71
  else d

theorem Dev.up_wr (f : Fld) (v i : Nat) : (d.wr f v i).up = d.up := rfl

theorem flag_mod_size (b : Bool) {f : Fld} (bit : f.size = 2) : flag b % f.size = flag b := by rw [bit, flag_mod_two]

theorem Dev.guardClosed_wr : ((d.wr F.safeGuardA (flag a)).wr F.safeGuardB (flag b)).guardClosed = (a && !b) := by
  simp (disch := decide) only [Dev.guardClosed, Dev.on, Dev.rd_wr_same, Dev.rd_wr_apart, flag_mod_size, flag_bne_zero]

theorem Dev.guardOpen_wr (v : Nat) :
    (((d.wr F.safeGuardA (flag a)).wr F.safeGuardB (flag b)).wr F.safeGuardClosed v).guardOpen = (!a && b) := by
  simp (disch := decide) only [Dev.guardOpen, Dev.on, Dev.rd_wr_same, Dev.rd_wr_apart, flag_mod_size, flag_bne_zero]

theorem Dev.guardDiscrepant_wr (v : Nat) :
    (((d.wr F.safeGuardA (flag a)).wr F.safeGuardB (flag b)).wr F.safeGuardClosed v).guardDiscrepant = decide (a = b) := by
  simp (disch := decide) only [Dev.guardDiscrepant, Dev.guardClosed, Dev.guardOpen, Dev.on, Dev.rd_wr_same, Dev.rd_wr_apart,
    flag_mod_size, flag_bne_zero]
  cases a <;> cases b <;> rfl

theorem Dev.guardChange_eq : d.guardChange a b = (d.guardSeen a b).guardFollows d.guardClosed (a && !b) := by
  unfold Dev.guardChange
  extract_lets was wasBad marked closed shown before seen
  have closedNow : closed = (a && !b) := Dev.guardClosed_wr d a b
  have openNow : shown.guardOpen = (!a && b) := Dev.guardOpen_wr d a b _
  have atOdds : shown.guardDiscrepant = decide (a = b) := Dev.guardDiscrepant_wr d a b _
  have seenNow : seen = d.guardMarked a b closed shown.guardOpen shown.guardDiscrepant := by
    simp only [seen, before, shown, marked, wasBad, Dev.guardMarked, Dev.wr_frame, Dev.up_wr]
  rw [openNow, atOdds, closedNow] at seenNow
  calc _ = seen.guardFollows was closed := rfl
    _ = _ := by rw [seenNow, closedNow]; rfl

/-- The raise that follows a guard that opens leaves the mode and the pending start-up test as they were. -/
theorem Dev.rd_guardOpened {f : Fld} (quiet : f.quiet 0 = true) (ok : f.ok = true) (apartA : F.safeGuardA.apart 0 f 0 = true)
    (apartB : F.safeGuardB.apart 0 f 0 = true) (apartClosed : F.safeGuardClosed.apart 0 f 0 = true) :
    ((d.guardSeen a b).raise 0x70).rd f = d.rd f := by
  have raised := Dev.rd_raise (d.guardSeen a b) 0x70 0 f 0 (by decide) quiet
  have seen : (d.guardSeen a b).rd f =
    (((d.wr F.safeGuardA (flag a)).wr F.safeGuardB (flag b)).wr F.safeGuardClosed (flag (a && !b))).rd f := by
    simp only [Dev.guardSeen, Dev.guardMarked, Dev.rd]
  exact raised.trans <| seen.trans <| (Dev.rd_wr_apart _ _ _ _ _ _ (by decide) ok apartClosed).trans ((Dev.rd_wr_apart _ _ _ _ _ _ (by decide) ok apartB).trans
    (Dev.rd_wr_apart _ _ _ _ _ _ (by decide) ok apartA))

theorem Dev.mode_guardOpened : ((d.guardSeen a b).raise 0x70).mode = d.mode := by
  simp (disch := decide) only [Dev.mode, Dev.rd_guardOpened]

theorem Dev.guardPend_guardOpened : ((d.guardSeen a b).raise 0x70).on F.sysGuardPend = d.on F.sysGuardPend := by
  simp (disch := decide) only [Dev.on, Dev.rd_guardOpened]

variable {d a b}

theorem Dev.guardChange_same (same : d.guardClosed = (a && !b)) : d.guardChange a b = d.guardSeen a b := by
  rw [Dev.guardChange_eq, same]
  cases (a && !b) <;> rfl

theorem Dev.guardChange_closes (was : d.guardClosed = false) (now : (a && !b) = true) :
    d.guardChange a b = (d.guardSeen a b).raise 0x71 := by
  rw [Dev.guardChange_eq, was, now]
  rfl

theorem Dev.guardChange_opens (was : d.guardClosed = true) (now : (a && !b) = false) (closed : d.mode.guardMayOpen = false) :
    d.guardChange a b = (((d.guardSeen a b).raise 0x70).fault 28 0).safeState := by
  rw [Dev.guardChange_eq, was, now]
  simp [Dev.guardFollows, Dev.mode_guardOpened, closed]

theorem Dev.guardChange_opens_held (was : d.guardClosed = true) (now : (a && !b) = false) (held : d.mode = .held)
    (unpended : d.on F.sysGuardPend = false) : d.guardChange a b =
      (let x := ((d.guardSeen a b).raise 0x70).wr F.sysGuardPend 1
       { x with island := { x.island with guardTest := .waitClose, startTest := false } }) := by
  rw [Dev.guardChange_eq, was, now]
  simp [Dev.guardFollows, Dev.mode_guardOpened, Dev.guardPend_guardOpened, held, unpended, Mode.guardMayOpen]

end

/-! ## The events at their instant -/

section
variable {s : State} {t : Nat} {d : Dev} (now : s.dev.advance t = d)
include now

theorem exec_guardDiscrepancy_lasts (bad : d.guardDiscrepant = true) (new : d.island.discrepancy = false)
    (due : d.islandSpent d.island.discFrom (1000 * d.rd F.safeDiscMs) = true) :
    let e := { d with island := { d.island with discrepancy := true } }.fault 29 0
    exec (.guardDiscrepancy t) s = .next { s with dev := e } := by
  intro e
  rw [exec_guardDiscrepancy]
  exact event_at now (if_pos (by simp [bad, new, due]))

theorem exec_guardHoldExpiry_opening (due : d.islandSpent d.island.guardFrom (10000 * d.rd F.safeGuardHold) = true)
    (opening : d.island.guardTest = .opening) :
    let e := { d with island := { d.island with guardTest := .waitClose } }
    exec (.guardHoldExpiry t) s = .next { s with dev := e } := by
  intro e
  rw [exec_guardHoldExpiry]
  exact event_at now (by dsimp only; rw [due, opening]; rfl)

theorem exec_guardHoldExpiry_closing (due : d.islandSpent d.island.guardFrom (10000 * d.rd F.safeGuardHold) = true)
    (closing : d.island.guardTest = .closing) :
    let e := ({ d with island := { d.island with guardTest := .idle, startTest := false } }.wr F.sysGuardPend 0).raise 0x72
    exec (.guardHoldExpiry t) s = .next { s with dev := e } := by
  intro e
  rw [exec_guardHoldExpiry]
  exact event_at now (by dsimp only; rw [due, closing]; rfl)

/-! ### The reset button and the watchdog (R428, R432) -/

/-- A press that ends in Light is shown to be over, and one of 50 ms to 5 s that was not stuck is a valid edge. -/
theorem exec_safeRstRelease_light (ticks : Nat) (light : d.boot.stage = .light) :
    let valid := !d.island.stuckActive && decide (50000 ≤ ticks) && decide (ticks < 5000000)
    let ended := { d.wr F.safeRstIn 0 with island := { d.island with stuckActive := false } }
    let e := if valid then
        ((ended.wrPair F.safeEdgeAt ended.now).wr F.safeEdgeValid (flag (decide (ended.mode = .snuffed)))).raise 0x73
      else ended
    exec (.safeRstRelease t ticks) s = .next { s with dev := e } := by
  intro valid ended e
  rw [exec_safeRstRelease]
  exact event_at now (if_neg (not_not_intro light))

theorem exec_resetInputStuck_light (light : d.boot.stage = .light) (new : d.island.stuckActive = false) :
    let e := ({ d with island := { d.island with stuckActive := true } }.wr F.safeRstIn 1).fault 29 1
    exec (.resetInputStuck t) s = .next { s with dev := e } := by
  intro e
  rw [exec_resetInputStuck]
  exact event_at now (if_neg (by simp [light, new]))

theorem exec_watchdogExpiry_first (first : d.island.watchdogLate = false) :
    let e := ({ d with island := { d.island with watchdogLate := true, lateAt := d.up } }.fault 28 2).safeState
    exec (.watchdogExpiry t) s = .next { s with dev := e } := by
  intro e
  rw [exec_watchdogExpiry]
  exact event_at now (if_neg (by simp [first]))

/-! ### The breaker (R433 to R435) -/

theorem exec_bkrAuxChange_opens (was : d.on F.safeBkrClosed = true) :
    let seen := d.wr F.safeBkrClosed (flag false)
    let e := if d.island.tripWait then { seen with island := { d.island with tripWait := false, openAt := d.up } }.raise 0x77
      else seen
    exec (.bkrAuxChange t false) s = .next { s with dev := e } := by
  intro seen e
  rw [exec_bkrAuxChange]
  refine event_at now ((if_neg (by simp [was])).trans ?_)
  simp only [e, seen, Dev.wr_frame, Dev.up_wr]
  rfl

theorem exec_bkrAuxChange_closes (was : d.on F.safeBkrClosed = false) :
    let seen := d.wr F.safeBkrClosed (flag true)
    let e := if d.on F.safeCloseActive && !d.island.closeSeen then
        { seen with island := { d.island with closeSeen := true, closedAt := d.up } }.raise 0x78
      else seen
    exec (.bkrAuxChange t true) s = .next { s with dev := e } := by
  intro seen e
  rw [exec_bkrAuxChange]
  have pulse : seen.on F.safeCloseActive = d.on F.safeCloseActive := by
    simp (disch := decide) only [seen, Dev.on, Dev.rd_wr_apart]
  refine event_at now ((if_neg (by simp [was])).trans ?_)
  simp only [e, ← pulse, seen, Dev.wr_frame, Dev.up_wr]
  rfl

section
variable (active : d.on F.safeTripActive = true) (may : d.island.tripSnuffed = false ∨ d.rd F.safeTripMax ≠ 0)
include active may

omit now in
/-- A demand in force is released but for one of SNUFFED without SAFE.TRIP_MAX. -/
theorem Dev.tripMayEnd : ¬ (!d.on F.safeTripActive || (d.island.tripSnuffed && decide (d.rd F.safeTripMax = 0))) = true := by
  obtain other | limited := may
  · simp [active, other]
  · simp [active, limited]

theorem exec_tripRelease_held (isOpen : d.island.tripWait = false)
    (due : d.islandSpent d.island.openAt (1000 * d.rd F.safeTripHold) = true) :
    exec (.tripRelease t false) s = .next { s with dev := d.tripEnd } := by
  rw [exec_tripRelease]
  exact event_at now ((if_neg (Dev.tripMayEnd active may)).trans ((if_pos rfl).trans (if_neg (by rw [isOpen, due]; decide))))

section
variable (due : d.islandSpent d.island.tripAt (1000 * d.tripMax) = true)
include due

theorem exec_tripRelease_atMax :
    let failed := ({ d.tripEnd with island := { d.tripEnd.island with tripFailed := true, failedAt := d.up } }).fault 29 6
    exec (.tripRelease t true) s = .next { s with dev := if d.on F.safeBkrClosed then failed else d.tripEnd } := by
  rw [exec_tripRelease]
  exact event_at now ((if_neg (Dev.tripMayEnd active may)).trans
    ((if_neg (by decide)).trans (if_neg (by rw [due]; decide))))

theorem exec_tripRelease_atMax_open (isOpen : d.on F.safeBkrClosed = false) :
    exec (.tripRelease t true) s = .next { s with dev := d.tripEnd } := by
  rw [exec_tripRelease_atMax now active may due, if_neg (Bool.eq_false_iff.mp isOpen)]

theorem exec_tripRelease_atMax_closed (closed : d.on F.safeBkrClosed = true) :
    let e := ({ d.tripEnd with island := { d.tripEnd.island with tripFailed := true, failedAt := d.up } }).fault 29 6
    exec (.tripRelease t true) s = .next { s with dev := e } := by
  rw [exec_tripRelease_atMax now active may due, if_pos closed]

end

end

theorem exec_tripRepeat_due (snuffed : d.mode = .snuffed) (failed : d.island.tripFailed = true)
    (closed : d.on F.safeBkrClosed = true) (idle : d.on F.safeTripActive = false)
    (due : d.islandSpent d.island.failedAt 10000000 = true) :
    exec (.tripRepeat t) s = .next { s with dev := d.tripDemand true } := by
  rw [exec_tripRepeat]
  exact event_at now (if_pos (by simp [snuffed, failed, closed, idle, due]))

theorem exec_closePulseEnd_closed (active : d.on F.safeCloseActive = true) (seen : d.island.closeSeen = true)
    (due : d.islandSpent d.island.closedAt 20000 = true) :
    exec (.closePulseEnd t) s = .next { s with dev := (d.wr F.safeCloseActive 0).driveSwitches 0 } := by
  rw [exec_closePulseEnd]
  exact event_at now ((if_pos (by simp [active, Dev.closeOver, seen, due])).trans (if_pos seen))

theorem exec_closePulseEnd_failed (active : d.on F.safeCloseActive = true) (unseen : d.island.closeSeen = false)
    (due : d.islandSpent d.island.closeAt (10000 * d.rd F.safeCloseMs) = true) :
    exec (.closePulseEnd t) s = .next { s with dev := ((d.wr F.safeCloseActive 0).driveSwitches 0).fault 29 7 } := by
  rw [exec_closePulseEnd]
  exact event_at now ((if_pos (by simp [active, Dev.closeOver, due])).trans (if_neg (Bool.eq_false_iff.mp unseen)))

/-! ### Switch tests and contactors (R436 to R440) -/

theorem exec_switchFeedbackMismatch_fails (switch : Fin 4) (noTest : d.on F.safeTestRun = false) :
    let e := (d.wr F.safeSwFb (if d.rd F.safeSwOut &&& switchBit switch = 0 then d.rd F.safeSwFb ||| switchBit switch
        else d.rd F.safeSwFb &&& (15 ^^^ switchBit switch))).switchFails switch
    exec (.switchFeedbackMismatch t switch) s = .next { s with dev := e } := by
  intro e
  rw [exec_switchFeedbackMismatch]
  exact event_at now (if_neg (by simp [noTest]))

theorem exec_periodicSwitchTest_due (light : d.boot.stage = .light) (set : d.rd F.safeTestHours ≠ 0)
    (due : d.island.periodFrom + d.rd F.safeTestHours * 3600 * ticksSec ≤ d.up) :
    let e := { d with island := { d.island with periodFrom := d.up } }.startTests
    exec (.periodicSwitchTest t) s = .next { s with dev := e } := by
  intro e
  rw [exec_periodicSwitchTest]
  exact event_at now (if_pos (by simp [light, set, due]))

theorem exec_contactorMismatch_due (contactor : Fin 4) (wrong : d.contactorWrong contactor = true)
    (new : d.island.lvcMismatch.testBit contactor = false)
    (due : d.islandSpent (d.island.lvcAt.getD contactor 0) (10000 * d.rd F.safeLvcMs) = true) :
    let e := { d with island := { d.island with lvcMismatch := d.island.lvcMismatch ||| 2 ^ contactor.val } }.fault 29 (8 + contactor)
    exec (.contactorMismatch t contactor) s = .next { s with dev := e } := by
  intro e
  rw [exec_contactorMismatch]
  exact event_at now (if_pos (by simp only [wrong, new, due]; rfl))

end

/-! ## The test of a switch (R437) -/

section
variable {d : Dev}

/-- The block once the test of a switch is judged. -/
def Dev.testJudged (d : Dev) (k : Nat) (senseOn senseOff : Bool) : Dev :=
  let off := if senseOff then d.driveSwitches 0 else (d.driveSwitches 0).wr F.safeSwFb (switchBit k)
  if senseOn && senseOff then off.switchPasses k else off.switchFails k

theorem Dev.testStep_on {k passed : Nat} (senseOn senseOff : Bool) (test : d.island.test = .on k passed)
    (due : d.islandSpent d.island.testFrom (10 * d.rd F.safeTestUs) = true) : d.testStep senseOn senseOff =
      let judged := d.testJudged k senseOn senseOff
      let passed := if senseOn && senseOff then passed + 1 else passed
      if k < 3 then judged.testGoes (.gap k passed)
      else ((({ judged with island := { judged.island with test := .idle } }.wr F.safeTestRun 0).wrPair F.safeTestAt judged.now).raise
        (if passed = 4 then 0x74 else 0x75)) := by
  unfold Dev.testStep
  rw [test]
  dsimp only
  rw [due]
  rfl

theorem Dev.testStep_gap {k passed : Nat} (senseOn senseOff : Bool) (test : d.island.test = .gap k passed)
    (due : d.islandSpent d.island.testFrom 1000 = true) : d.testStep senseOn senseOff =
      (d.testGoes (.on (k + 1) passed)).driveSwitches (switchBit (k + 1)) := by
  unfold Dev.testStep
  rw [test]
  exact if_pos due

end

/-- Settles O30: row by row, by what the event does once its condition holds. -/
theorem safetyIslandEventsAct : Obligations.SafetyIslandEventsAct := by
  unfold Obligations.SafetyIslandEventsAct
  refine ⟨fun s t => ?guardAndButton, fun s t => ?breakerAndSwitches⟩
  case guardAndButton =>
    intro d next
    have now : s.dev.advance t = d := rfl
    clear_value d
    refine ⟨fun a b => ?guard, exec_guardDiscrepancy_lasts now, fun due => ⟨exec_guardHoldExpiry_opening now due,
      exec_guardHoldExpiry_closing now due⟩, fun ticks light => ?button, exec_watchdogExpiry_first now⟩
    case guard =>
      intro seen e
      rw [exec_guardChange]
      exact ⟨fun same => event_at now (Dev.guardChange_same same), fun was is => event_at now (Dev.guardChange_closes was is),
        fun was is closed => event_at now (Dev.guardChange_opens was is closed),
        fun was is held unpended => event_at now (Dev.guardChange_opens_held was is held unpended)⟩
    case button =>
      intro e
      refine ⟨fun free least most => ?_, fun invalid => ?_, exec_resetInputStuck_light now light⟩
      · exact (exec_safeRstRelease_light now ticks light).trans (congrArg next (if_pos (by simp [free, least, most])))
      · refine (exec_safeRstRelease_light now ticks light).trans (congrArg next (if_neg ?_))
        obtain stuck | short | long := invalid
        · simp [stuck]
        · simp [Nat.not_le.mpr short]
        · simp [Nat.not_lt.mpr long]
  case breakerAndSwitches =>
    intro d next aux
    have now : s.dev.advance t = d := rfl
    clear_value d
    refine ⟨fun was => ?opens, fun was => ?closes, fun active may => ⟨exec_tripRelease_held now active may, fun due =>
        ⟨exec_tripRelease_atMax_open now active may due, exec_tripRelease_atMax_closed now active may due⟩⟩, exec_tripRepeat_due now, fun active =>
        ⟨exec_closePulseEnd_closed now active, exec_closePulseEnd_failed now active⟩,
      fun switch noTest => exec_switchFeedbackMismatch_fails now switch noTest, fun k passed senseOn senseOff test due => ?judged,
      fun k passed senseOn senseOff test due => ?gap, exec_periodicSwitchTest_due now, fun contactor level => ?mirror,
      fun contactor => exec_contactorMismatch_due now contactor⟩
    case opens =>
      have acts := exec_bkrAuxChange_opens now was
      exact ⟨fun waits => acts.trans (congrArg next (if_pos waits)), fun free => acts.trans (congrArg next (if_neg (by simp [free])))⟩
    case closes =>
      have acts := exec_bkrAuxChange_closes now was
      refine ⟨fun active new => acts.trans (congrArg next (if_pos (by simp [active, new]))),
        fun none => acts.trans (congrArg next (if_neg ?_))⟩
      obtain idle | seen := none
      · simp [idle]
      · simp [seen]
    case judged =>
      intro off judged passed'
      rw [exec_switchTestStep]
      exact ⟨fun more => event_at now ((Dev.testStep_on _ _ test due).trans (if_pos more)),
        fun last => event_at now ((Dev.testStep_on _ _ test due).trans (if_neg (Nat.not_lt.mpr last)))⟩
    case gap =>
      rw [exec_switchTestStep]
      exact event_at now (Dev.testStep_gap _ _ test due)
    case mirror =>
      intro bit fb
      rw [exec_lvcFbChange]
      exact ⟨fun changed => event_at now (if_neg changed), fun same => event_at now (if_pos same)⟩

end Sys2Proof.Machine
end

section
/-!
PROOFS. The family 14_hierarchy: commands and reports of the tree (R363 to R371). The statement speaks of GRP.CF.Q with an index
that nothing bounds, and that is where it fails.
-/
namespace Sys2Proof.Machine

/-! ## A parent lost (R370) -/

/-- A node with its parent, and nothing heard from the partner that holds the U lane. -/
def withParent : State := { dev := ({} : Dev).wr F.grpUState 1 }

/-- The index past the eleven of GRP.CF.Q at which the model finds word 3 of FLT.EV_PEND. -/
def pendingWordAsQ : Nat := (0x0F20 - 0x0D11) * 65536 + 3 - 4

theorem key_pendingWordAsQ : F.grpCfQ.key pendingWordAsQ = F.fltEvPend.key 3 := by decide

/-- The loss raises event source 0x62, whose pending bit stands in that word. -/
theorem pendingWord_parentGone :
    withParent.dev.rd F.grpCfQ pendingWordAsQ = 0 ∧ withParent.dev.parentGone.rd F.grpCfQ pendingWordAsQ = 4 := by
  decide +kernel

theorem exec_parentLost_withParent : exec (.parentLost 0) withParent = .next { withParent with dev := withParent.dev.parentGone } := by
  have stopped : withParent.dev.advance 0 = withParent.dev := Dev.advance_stopped _ _ rfl
  have missing : withParent.dev.parentMissing = true := by decide +kernel
  rw [exec_parentLost]
  exact event_at stopped (if_pos missing)

/-- Refutes O46: its clause of the lost parent says of every index of GRP.CF.Q, not only of the eleven of R376, that it
reads as before. The loss raises event source 0x62, and the index `pendingWordAsQ` stands for the word of its pending bit. -/
theorem not_treesCommandAndReport : ¬ Obligations.TreesCommandAndReport := by
  unfold Obligations.TreesCommandAndReport
  rintro ⟨events, -⟩
  have here : withParent.dev.advance 0 = withParent.dev := Dev.advance_stopped _ _ rfl
  obtain ⟨-, lost, -⟩ := events withParent 0
  rw [here] at lost
  obtain ⟨e, leads, -, -, -, -, keeps⟩ := lost (by decide +kernel) (by decide +kernel)
  obtain rfl : e = withParent.dev.parentGone := by
    rw [exec_parentLost_withParent] at leads
    exact (congrArg State.dev (Host.Outcome.next.inj leads)).symm
  obtain ⟨before, after⟩ := pendingWord_parentGone
  have same := keeps pendingWordAsQ
  rw [before, after] at same
  exact absurd same (by decide)

end Sys2Proof.Machine
end

section
/-!
PROOFS. The families 11_hamper_placement to 16_fault_collection: what the operations on legs, lanes and the Wick leave alone. A state
is within another up to some state objects when it differs from it at most in their words, in the legs, and by raises.
-/
namespace Sys2Proof.Machine

/-! ## States that differ in the words of some state objects -/

/-- The block without what a raise may change, and without the legs. -/
def Dev.still (d : Dev) : Dev := { d.core with legs := [] }

/-- e differs from d at most in the words of some state objects, in the legs and by raises, notices and queued packets. -/
structure Dev.Within (objects : List Nat) (d e : Dev) : Prop where
  rd : ∀ f i, f.quiet i = true → f.key i / 65536 ∉ objects → e.rd f i = d.rd f i
  still : e.still = d.still

section
variable {objects : List Nat} {d e : Dev}

theorem Dev.Within.refl (d : Dev) : d.Within objects d := ⟨fun _ _ _ _ => rfl, rfl⟩

theorem Dev.Within.trans {c : Dev} (h : d.Within objects e) (k : e.Within objects c) : d.Within objects c :=
  ⟨fun f i q out => (k.rd f i q out).trans (h.rd f i q out), k.still.trans h.still⟩

theorem Dev.Within.ite {c : Prop} [Decidable c] {e' : Dev} (h : d.Within objects e) (k : d.Within objects e') :
    d.Within objects (if c then e else e') := by
  split <;> assumption

theorem Dev.Within.foldl {α : Type} {f : Dev → α → Dev} {l : List α} (d : Dev) (h : ∀ (d : Dev), ∀ x ∈ l, d.Within objects (f d x)) :
    d.Within objects (l.foldl f d) := by
  induction l generalizing d with
  | nil => exact .refl d
  | cons x t ih =>
    exact (h d x List.mem_cons_self).trans (ih (f d x) fun d y there => h d y (List.mem_cons_of_mem _ there))

/-- Within fewer objects is within more. -/
theorem Dev.Within.mono {more : List Nat} (h : d.Within objects e) (sub : objects ⊆ more) : d.Within more e :=
  ⟨fun f i q out => h.rd f i q fun mem => out (sub mem), h.still⟩

theorem Dev.Near.within (h : d.Near e) : d.Within objects e :=
  ⟨fun f i q _ => h.rd f i q, congrArg (fun x : Dev => ({ x with legs := [] } : Dev)) h.core⟩

/-- What states within each other share. -/
theorem Dev.Within.keeps (h : d.Within objects e) :
    e.boot = d.boot ∧ e.clock = d.clock ∧ e.sessions = d.sessions ∧ e.parked = d.parked ∧ e.modes = d.modes ∧ e.cells = d.cells ∧
    e.sched = d.sched ∧ e.loops = d.loops ∧ e.engines = d.engines ∧ e.wear = d.wear ∧ e.ledger = d.ledger ∧ e.brake = d.brake ∧
    e.chans = d.chans ∧ e.group = d.group ∧ e.twin = d.twin ∧ e.coll.raises = d.coll.raises ∧ e.coll.history = d.coll.history := by
  have c := h.still
  simp only [Dev.still, Dev.core, Dev.mk.injEq, Collector.mk.injEq] at c
  simp only [c, and_self]

theorem Dev.Within.twin (h : d.Within objects e) : e.twin = d.twin := by obtain ⟨-, -, -, -, -, -, -, -, -, -, -, -, -, -, k, -⟩ := h.keeps; exact k
theorem Dev.Within.raises (h : d.Within objects e) : e.coll.raises = d.coll.raises := by
  obtain ⟨-, -, -, -, -, -, -, -, -, -, -, -, -, -, -, k, -⟩ := h.keeps; exact k

theorem Dev.within_wr (d : Dev) {f : Fld} (v : Nat) {i : Nat} (inside : f.key i / 65536 ∈ objects) : d.Within objects (d.wr f v i) :=
  ⟨fun _ _ _ out => Dev.rd_wr_key d _ _ v _ _ fun same => out (same ▸ inside), rfl⟩

theorem Dev.within_raise (d : Dev) {source : Nat} (data : Nat) (listed : source < 256) : d.Within objects (d.raise source data) :=
  (Dev.near_raise d source data listed).within

/-- Writing a whole word leaves the fields of every other word alone. -/
theorem Dev.rd_setWord_key (d : Dev) (so w v : Nat) {f : Fld} {i : Nat} (other : f.key i ≠ wordKey so w) :
    (d.setWord so w v).rd f i = d.rd f i := by
  simp only [Dev.rd, Dev.setWord, regGet, regSetWord, tget_tset]
  rw [if_neg other]

theorem wordKey_div (so : Nat) {w : Nat} (short : w < 65536) : wordKey so w / 65536 = so := by
  unfold wordKey
  omega

theorem Dev.within_setWord (d : Dev) {so w : Nat} (v : Nat) (inside : so ∈ objects) (short : w < 65536) :
    d.Within objects (d.setWord so w v) :=
  ⟨fun _ _ _ out => Dev.rd_setWord_key d so w v fun same => out (same ▸ (wordKey_div so short).symm ▸ inside), rfl⟩

theorem Dev.within_bumpWord (d : Dev) {so w : Nat} (inside : so ∈ objects) (short : w < 65536) : d.Within objects (d.bumpWord so w) :=
  .ite (d.within_setWord _ inside short) (.refl d)

theorem Dev.within_setLeg (d : Dev) (n : Nat) (x : Leg) : d.Within objects (d.setLeg n x) := ⟨fun _ _ _ _ => rfl, rfl⟩

theorem Dev.within_setLane (d : Dev) (l : Nat) (x : Lane) : d.Within objects (d.setLane l x) := (Dev.near_setLane d l x).within

end

/-! ## The legs brought up to date (R315, R322, R324, R341) -/

section
variable (d : Dev) {n : Nat} (leg : n < 12)
include leg

omit leg in
/-- The words of LEG.STATUS hold one leg each. -/
theorem legStatus_inside {f : Fld} (status : f.so = 0x0802) (one : f.soN = 1) (first : f.word = 0) (step : f.stride = 1) (leg : n < 12) :
    f.key n / 65536 ∈ [0x0802] := by
  rw [Fld.key_so f n one (by rw [first, step]; omega), status]
  exact List.mem_singleton_self _

theorem Dev.within_legUpdate : d.Within [0x0802] (d.legUpdate n) := by
  unfold Dev.legUpdate Dev.legShow
  obtain ⟨x, driven⟩ := Dev.drive2_eq (d.legShow n) n
  have shown : d.Within [0x0802] (d.legShow n) := d.within_wr _ (legStatus_inside rfl rfl rfl rfl leg)
  exact driven ▸ shown.trans ((Dev.within_setLeg _ n x).trans
    ((Dev.within_wr _ _ (legStatus_inside rfl rfl rfl rfl leg)).trans (Dev.within_wr _ _ (legStatus_inside rfl rfl rfl rfl leg))))

theorem Dev.within_legRefresh : d.Within [0x0802] (d.legRefresh n) := by
  unfold Dev.legRefresh
  have anew (x : Leg) : d.Within [0x0802] ((d.setLeg n x).wr F.legP 0 n) :=
    (d.within_setLeg n x).trans (Dev.within_wr _ _ (legStatus_inside rfl rfl rfl rfl leg))
  refine .ite (.ite (d.within_legUpdate leg) ((anew _).trans (Dev.within_legUpdate _ leg))) ?_
  exact (anew _).trans ((Dev.within_wr _ _ (legStatus_inside rfl rfl rfl rfl leg)).trans (Dev.within_legUpdate _ leg))

end

theorem Dev.within_legsRefresh (d : Dev) : d.Within [0x0802] d.legsRefresh :=
  .foldl d fun d _ leg => d.within_legRefresh (List.mem_range.mp leg)

/-! ## The Wick released (R384, R391) -/

theorem Dev.within_dropControl (d : Dev) {l : Nat} (lane : l < 55) : d.Within [0x0212] (d.dropControl l) := by
  unfold Dev.dropControl
  extract_lets x dropped voided held wait left
  have waits : d.Within [0x0212] left := d.within_setLane l _
  exact waits.trans (.foldl left fun d _ _ => d.within_bumpWord List.mem_cons_self (by omega))

section
variable (d : Dev)

/-- The block once its control frames are dropped. -/
def Dev.controlDropped : Dev := (List.range 55).foldl (fun d l => d.dropControl l) d

theorem Dev.within_controlDropped : d.Within [0x0212] d.controlDropped :=
  .foldl d fun d _ lane => d.within_dropControl (List.mem_range.mp lane)

/-- Role 6 as a release shows it, before the legs follow. -/
def Dev.roleReleased : Dev :=
  let twin := { d.controlDropped.twin with released := true, finalCopy := true, leaseOut := false }
  (({ d.controlDropped with twin := twin }).wr F.twinRole 6).wr F.twinEligible 0

theorem Dev.releaseWick_eq : d.releaseWick = d.roleReleased.legsRefresh.raise 0x69 := by
  simp only [Dev.releaseWick, Dev.roleReleased, Dev.controlDropped]

theorem Dev.within_releaseWick : d.roleReleased.Within [0x0802] d.releaseWick := by
  rw [Dev.releaseWick_eq]
  exact (Dev.within_legsRefresh _).trans (Dev.within_raise _ 0 (by decide))

theorem Dev.twin_releaseWick : d.releaseWick.twin = { d.twin with released := true, finalCopy := true, leaseOut := false } := by
  rw [d.within_releaseWick.twin, ← d.within_controlDropped.twin]
  simp only [Dev.roleReleased, Dev.wr_frame]

theorem Dev.raises_releaseWick : d.releaseWick.coll.raises = d.coll.raises := by
  rw [d.within_releaseWick.raises, ← d.within_controlDropped.raises]
  simp only [Dev.roleReleased, Dev.wr_frame]

theorem Dev.twinRole_releaseWick : d.releaseWick.rd F.twinRole = 6 := by
  rw [d.within_releaseWick.rd F.twinRole 0 (by decide) (by decide)]
  simp (disch := decide) only [Dev.roleReleased, Dev.rd_wr_apart, Dev.rd_wr_same]
  decide

theorem Dev.selftestOk_releaseWick : d.releaseWick.rd F.twinSelftestOk = d.rd F.twinSelftestOk := by
  rw [d.within_releaseWick.rd F.twinSelftestOk 0 (by decide) (by decide), ← d.within_controlDropped.rd F.twinSelftestOk 0 (by decide) (by decide)]
  simp (disch := decide) only [Dev.roleReleased, Dev.rd_wr_apart]
  simp only [Dev.rd]

end

end Sys2Proof.Machine
end

section
/-!
PROOFS. The family 15_twin, its self-check and standby health (R378, R391, R394, R396 to R398).
-/
namespace Sys2Proof.Machine

/-! ## A self-check that fails (R391, R398) -/

section
variable (d : Dev)

theorem Dev.within_markUnfit : ((d.wr F.twinRole 5).wr F.twinEligible 0).Within [0x0802] d.markUnfit := Dev.within_legsRefresh _

theorem Dev.twin_markUnfit : d.markUnfit.twin = d.twin := by simpa only [Dev.wr_frame] using d.within_markUnfit.twin

theorem Dev.raises_markUnfit : d.markUnfit.coll.raises = d.coll.raises := by simpa only [Dev.wr_frame] using d.within_markUnfit.raises

theorem Dev.twinRole_markUnfit : d.markUnfit.rd F.twinRole = 5 := by
  rw [d.within_markUnfit.rd F.twinRole 0 (by decide) (by decide)]
  simp (disch := decide) only [Dev.rd_wr_apart, Dev.rd_wr_same]
  decide

theorem Dev.selftestOk_markUnfit : d.markUnfit.rd F.twinSelftestOk = d.rd F.twinSelftestOk := by
  rw [d.within_markUnfit.rd F.twinSelftestOk 0 (by decide) (by decide)]
  simp (disch := decide) only [Dev.rd_wr_apart]

/-- What a failed self-check leads to: Flame releases, another unit of a pair becomes unfit, and one that is neither only raises. -/
theorem Dev.checkFailed_cases (src : Nat) :
    (d.rd F.twinRole = 1 ∧ d.checkFailed src = (d.fault 25 src).releaseWick)
    ∨ (d.rd F.twinRole ≠ 1 ∧ (d.checkFailed src = (d.fault 25 src).markUnfit
        ∨ ¬ (d.paired = true ∧ d.rd F.twinRole ≠ 6) ∧ d.checkFailed src = d.fault 25 src)) := by
  unfold Dev.checkFailed
  dsimp only
  by_cases flame : d.rd F.twinRole = 1
  · exact .inl ⟨flame, if_pos flame⟩
  · refine .inr ⟨flame, ?_⟩
    rw [if_neg (by rwa [Dev.rd_fault])]
    split
    · exact .inl rfl
    · rename_i other
      exact .inr ⟨fun both => other (by simpa [Dev.paired, Dev.on] using both), rfl⟩

/-- A failed self-check raises class 25 and nothing else. -/
theorem Dev.raises_checkFailed (src : Nat) : (d.checkFailed src).coll.raises = d.coll.raises ++ [{ cls := 25, src := src }] := by
  obtain ⟨-, leads⟩ | ⟨-, leads | ⟨-, leads⟩⟩ := d.checkFailed_cases src <;> rw [leads]
  · exact Dev.raises_releaseWick _
  · exact Dev.raises_markUnfit _
  · rfl

/-- What a failed self-check leaves of the twin's hidden part. -/
theorem Dev.twin_checkFailed (src : Nat) : ∃ released final out,
    (d.checkFailed src).twin = { d.twin with released := released, finalCopy := final, leaseOut := out } := by
  obtain ⟨-, leads⟩ | ⟨-, leads | ⟨-, leads⟩⟩ := d.checkFailed_cases src <;> rw [leads]
  · exact ⟨_, _, _, Dev.twin_releaseWick _⟩
  · exact ⟨_, _, _, Dev.twin_markUnfit _⟩
  · exact ⟨_, _, _, rfl⟩

theorem Dev.selftestOk_checkFailed (src : Nat) : (d.checkFailed src).rd F.twinSelftestOk = d.rd F.twinSelftestOk := by
  obtain ⟨-, leads⟩ | ⟨-, leads | ⟨-, leads⟩⟩ := d.checkFailed_cases src <;> rw [leads]
  · exact Dev.selftestOk_releaseWick _
  · exact Dev.selftestOk_markUnfit _
  · rfl

theorem Dev.twinRole_checkFailed_flame {d : Dev} (src : Nat) (flame : d.rd F.twinRole = 1) : (d.checkFailed src).rd F.twinRole = 6 := by
  obtain ⟨-, leads⟩ | ⟨other, -⟩ := d.checkFailed_cases src
  · rw [leads, Dev.twinRole_releaseWick]
  · exact absurd flame other

theorem Dev.twinRole_checkFailed_pilot {d : Dev} (src : Nat) (pilot : d.rd F.twinRole = 2) (paired : d.paired = true) :
    (d.checkFailed src).rd F.twinRole = 5 := by
  obtain ⟨flame, -⟩ | ⟨-, leads | ⟨other, -⟩⟩ := d.checkFailed_cases src
  · exact absurd (pilot.symm.trans flame) (by decide)
  · rw [leads, Dev.twinRole_markUnfit]
  · exact absurd ⟨paired, by rw [pilot]; decide⟩ other

/-! ## Eligibility (R394) -/

/-- Eligibility shows in three fields of one word of the twin, and by event source 0x6E. -/
theorem Dev.within_eligibility : d.Within [0x0E01] d.eligibility := by
  have shown (d : Dev) (v : Nat) : d.Within [0x0E01] (d.wr F.twinEligible v) := d.within_wr v (by decide)
  have matched (d : Dev) (v : Nat) : d.Within [0x0E01] (d.wr F.twinGenMatch v) := d.within_wr v (by decide)
  have role (d : Dev) (v : Nat) : d.Within [0x0E01] (d.wr F.twinRole v) := d.within_wr v (by decide)
  unfold Dev.eligibility
  extract_lets r sums marked ok yes no
  exact .ite (shown d 0) (.ite
    (.ite (((matched d _).trans (shown _ 1)).trans ((role _ 2).trans (Dev.within_raise _ 0 (by decide)))) ((matched d _).trans (shown _ 1)))
    (.ite (((matched d _).trans (shown _ 0)).trans (role _ 3)) ((matched d _).trans (shown _ 0))))

theorem Dev.selftestOk_eligibility : d.eligibility.rd F.twinSelftestOk = d.rd F.twinSelftestOk := by
  unfold Dev.eligibility
  extract_lets r sums marked ok yes no
  have raised (d : Dev) : (d.raise 0x6E).rd F.twinSelftestOk = d.rd F.twinSelftestOk :=
    d.rd_raise 0x6E 0 F.twinSelftestOk 0 (by decide) (by decide)
  split_ifs <;> simp (disch := decide) only [raised, yes, no, marked, Dev.rd_wr_apart]

theorem Dev.twinRole_eligibility {d : Dev} (out : d.rd F.twinRole ≠ 2 ∧ d.rd F.twinRole ≠ 3) :
    d.eligibility.rd F.twinRole = d.rd F.twinRole := by
  obtain ⟨notPilot, notStandby⟩ := out
  unfold Dev.eligibility
  rw [if_pos (by simp [notPilot, notStandby])]
  simp (disch := decide) only [Dev.rd_wr_apart]

end

/-! ## The end of a self-check (R391, R394) -/

section
variable {s : State} {t : Nat} {d : Dev} (now : s.dev.advance t = d)

/-- The block once the result of a self-check is shown. -/
def Dev.checkShown (d : Dev) (passed : Bool) : Dev :=
  ({ d with twin := { d.twin with checking := false, checkResult := if passed then 1 else 2 } }.wr F.twinSelftestOk (flag passed)).raise 0x6C

theorem Dev.checkShown_keeps (d : Dev) (passed : Bool) :
    (d.checkShown passed).twin = { d.twin with checking := false, checkResult := if passed then 1 else 2 }
      ∧ (d.checkShown passed).coll.raises = d.coll.raises ∧ (d.checkShown passed).rd F.twinSelftestOk = flag passed
      ∧ (d.checkShown passed).rd F.twinRole = d.rd F.twinRole ∧ (d.checkShown passed).paired = d.paired := by
  let e := { d with twin := { d.twin with checking := false, checkResult := if passed then 1 else 2 } }.wr F.twinSelftestOk (flag passed)
  have raised : e.Within [] (d.checkShown passed) := Dev.within_raise e 0 (by decide)
  refine ⟨raised.twin.trans ?twin, raised.raises.trans ?raises, (raised.rd F.twinSelftestOk 0 (by decide) (by decide)).trans ?shown,
    (raised.rd F.twinRole 0 (by decide) (by decide)).trans ?role, ?paired⟩
  case twin => simp only [e, Dev.wr_frame]
  case raises => simp only [e, Dev.wr_frame]
  case shown =>
    simp (disch := decide) only [e, Dev.rd_wr_same, flag_mod_size]
  case role =>
    simp (disch := decide) only [e, Dev.rd_wr_apart]
    simp only [Dev.rd]
  case paired =>
    rw [Dev.paired, Dev.on, raised.rd F.twinPaired 0 (by decide) (by decide)]
    simp (disch := decide) only [e, Dev.rd_wr_apart]
    simp only [Dev.paired, Dev.on, Dev.rd]

/-- Where no divergence waits, a self-check that ends is shown, may fail, and eligibility follows. -/
theorem exec_selftestDone_ends (now : s.dev.advance t = d) (passed : Bool) (checking : d.twin.checking = true)
    (none : d.twin.divPending = false) :
    exec (.selftestDone t passed) s = .next { s with dev :=
      (if passed then d.checkShown true else (d.checkShown false).checkFailed 0).eligibility } := by
  have shown := (d.checkShown_keeps passed).1
  have unresolved (e : Dev) (pending : e.twin.divPending = false) : e.divergenceResolve = e := by
    unfold Dev.divergenceResolve
    rw [pending]
    rfl
  rw [exec_selftestDone]
  refine event_at now ((if_neg (by simp [checking])).trans ?_)
  have sends : (if (d.checkShown passed).twin.divPending = true then (d.checkShown passed).sendReport else d.checkShown passed)
      = d.checkShown passed := if_neg (by rw [shown]; simp [none])
  show (if passed = true then (if (d.checkShown passed).twin.divPending = true then (d.checkShown passed).sendReport
      else d.checkShown passed) else (if (d.checkShown passed).twin.divPending = true then (d.checkShown passed).sendReport
      else d.checkShown passed).checkFailed 0).divergenceResolve.eligibility = _
  rw [sends]
  cases passed with
  | false =>
    obtain ⟨released, final, out, twin⟩ := (d.checkShown false).twin_checkFailed 0
    have free := unresolved ((d.checkShown false).checkFailed 0) (by rw [twin, shown]; exact none)
    simp only [Bool.false_eq_true, if_false, free]
  | true =>
    have free := unresolved (d.checkShown true) (by rw [shown]; exact none)
    simp only [if_true, free]

/-! ## Standby health (R378, R396, R397) -/

section
variable (standby : (d.paired && !d.holdsWick) = true)
include standby

theorem exec_testSlice_passes (now : s.dev.advance t = d) :
    let e := { d with twin := { d.twin with slices := d.twin.slices + 1, nextSlice := (d.twin.nextSlice + 1) % 64 } }
    exec (.testSlice t true) s = .next { s with dev := e } := by
  intro e
  rw [exec_testSlice]
  exact event_at now ((if_pos standby).trans (if_pos rfl))

/-- The block once a failed slice is counted (R396). -/
def Dev.sliceFailed (d : Dev) : Dev :=
  let e := { d with twin := { d.twin with slices := d.twin.slices + 1, nextSlice := (d.twin.nextSlice + 1) % 64 } }
  { e.bumpWord 0x0E02 5 with twin := { e.twin with sliceFails := e.twin.sliceFails + 1 } }

theorem exec_testSlice_fails (now : s.dev.advance t = d) :
    exec (.testSlice t false) s = .next { s with dev := d.sliceFailed.checkFailed 1 } := by
  rw [exec_testSlice]
  exact event_at now ((if_pos standby).trans (if_neg (by decide)))

theorem exec_standbyLoopbackTest_standby (now : s.dev.advance t = d) (failed : BitVec 55) :
    let n := ((List.range 55).filter fun l => d.lanePresent l && !d.on F.laneEn l && failed.getLsbD l).length
    let e := { d with twin := { d.twin with repLoopback := d.twin.repLoopback + n } }
    exec (.standbyLoopbackTest t failed) s = .next { s with dev := e } := by
  intro n e
  rw [exec_standbyLoopbackTest]
  exact event_at now (if_pos standby)

/-- A Pilot report is kept as sent, and its counts start again at 0. -/
theorem Dev.twin_sendReport : d.sendReport.twin = { d.twin with
    ownReport := d.pilotReport, reportSeq := (d.twin.reportSeq + 1) % 2 ^ 32, repCompared := 0, repMismatch := 0
    repUnverified := 0, repCorrected := 0, repLoopback := 0 } := by
  unfold Dev.sendReport
  rw [if_pos standby]
  extract_lets p before tw e
  have queued : (e.queueFrame e.twinLane { ftype := 0x0B, addr := 0xFFFF, rank := 4, payload := p }).twin = e.twin := rfl
  exact queued.trans (by simp only [e, tw, before, p, Dev.wr_frame])

end

theorem exec_twinLinkLost_once (now : s.dev.advance t = d) (paired : d.paired = true) (first : d.twin.linkLost = false)
    (silent : d.laneUp 53 = false ∧ d.laneUp 54 = false ∨ within d.twin.frameAt d.now d.leaseWait = false) :
    exec (.twinLinkLost t) s = .next { s with dev := d.linkLost } := by
  rw [exec_twinLinkLost]
  refine event_at now (if_pos ?_)
  obtain ⟨down0, down1⟩ | unheard := silent
  · simp [paired, first, down0, down1]
  · simp [paired, first, unheard]

theorem exec_leaseExpiry_out (now : s.dev.advance t = d) (out : d.twin.leaseOut = true)
    (due : d.rd64 F.twinExpiryLo F.twinExpiryHi ≤ d.now) :
    let e := { d with twin := { d.twin with leaseOut := false } }
    exec (.leaseExpiry t) s = .next { s with dev := e } := by
  intro e
  rw [exec_leaseExpiry]
  exact event_at now (if_pos (by simp [out, due]))

end

/-- Settles O47: the end of a self-check by its result, every other row by its one condition. -/
theorem twinHealthIsWatched : Obligations.TwinHealthIsWatched := by
  unfold Obligations.TwinHealthIsWatched
  intro s t d next
  have now : s.dev.advance t = d := rfl
  clear_value d
  refine ⟨fun passed checking free => ?ends, fun passed idle => ?idle, fun pending silent passed due => ?timeout,
    fun paired standby => ?standby, exec_twinLinkLost_once now, fun out => ⟨exec_leaseExpiry_out now out, fun early => ?lease⟩⟩
  case ends =>
    refine ⟨_, exec_selftestDone_ends now passed checking free, ?_⟩
    obtain ⟨twin, raises, ok, role, paired⟩ := d.checkShown_keeps passed
    cases passed with
    | false =>
      simp only [Bool.false_eq_true, if_false]
      have after := ((d.checkShown false).checkFailed 0).within_eligibility
      obtain ⟨released, final, out, failed⟩ := (d.checkShown false).twin_checkFailed 0
      refine ⟨?_, ?_, ?_, fun no => absurd no (by decide), fun _ => ⟨?_, fun flame => ?_, fun pilot inPair => ?_⟩⟩
      · rw [after.twin, failed, twin]
      · rw [after.twin, failed, twin]; rfl
      · rw [Dev.selftestOk_eligibility, Dev.selftestOk_checkFailed, ok]
      · rw [after.raises, Dev.raises_checkFailed, raises]
      · have shows := Dev.twinRole_checkFailed_flame 0 (role.trans flame)
        rw [Dev.twinRole_eligibility (by rw [shows]; decide), shows]
      · have shows := Dev.twinRole_checkFailed_pilot 0 (role.trans pilot) (paired.trans inPair)
        rw [Dev.twinRole_eligibility (by rw [shows]; decide), shows]
    | true =>
      simp only [if_true]
      have after := (d.checkShown true).within_eligibility
      refine ⟨?_, ?_, ?_, fun _ => after.raises.trans raises, fun no => absurd no (by decide)⟩
      · rw [after.twin, twin]
      · rw [after.twin, twin]; rfl
      · rw [Dev.selftestOk_eligibility, ok]
  case idle =>
    rw [exec_selftestDone]
    exact event_at now (if_pos (by simp [idle]))
  case timeout =>
    rw [exec_flameSelftestTimeout]
    exact event_at now (if_pos (by simp [pending, silent, passed, due]))
  case standby =>
    have both : (d.paired && !d.holdsWick) = true := by rw [paired, standby]; rfl
    refine ⟨exec_testSlice_passes both now, ⟨_, exec_testSlice_fails both now, ?fails, ?raises⟩,
      exec_standbyLoopbackTest_standby both now, ⟨d.sendReport, event_at now rfl, ?report⟩⟩
    case fails =>
      obtain ⟨released, final, out, failed⟩ := d.sliceFailed.twin_checkFailed 1
      rw [failed]
      rfl
    case raises =>
      rw [Dev.raises_checkFailed]
      have counted (e : Dev) : (e.bumpWord 0x0E02 5).coll.raises = e.coll.raises :=
        (e.within_bumpWord (objects := [0x0E02]) (by decide) (by decide)).raises
      exact congrArg (· ++ _) (counted _)
    case report =>
      rw [Dev.twin_sendReport both]
      exact ⟨rfl, rfl, rfl, rfl, rfl, rfl, rfl⟩
  case lease =>
    rw [exec_leaseExpiry]
    exact event_at now (if_neg (by simp [out, Nat.not_le.mpr early]))

end Sys2Proof.Machine
end

section
/-!
PROOFS. The family 15_twin, the frames of the partner (R385, R387, R390, R391, R396), once per frame type.
-/
namespace Sys2Proof.Machine

/-! ## Numbers in payloads -/

theorem unle_lt (bs : Bytes) : unle bs < 256 ^ bs.length := by
  induction bs with
  | nil => decide
  | cons b t ih =>
    have byte : b.toNat < 256 := b.isLt
    rw [unle, List.length_cons, Nat.pow_succ]
    omega

theorem leAt_lt (bs : Bytes) (i n : Nat) : leAt bs i n < 256 ^ n :=
  Nat.lt_of_lt_of_le (unle_lt _) (Nat.pow_le_pow_right (by decide) (List.length_take_le _ _))

/-! ## WICK (R385, R400) -/

section
variable {d : Dev} {l : Nat} {f : RxFrame}

theorem twinLaneNo_of (partner : l = 53 ∨ l = 54) : twinLaneNo l = true := by
  obtain rfl | rfl := partner <;> rfl

/-- The block once a WICK has given its instant, expiry and epoch. -/
def Dev.wickHeard (d : Dev) (p : Bytes) : Dev :=
  { d with twin := { d.twin with wickAt := some d.now, wickExpiry := leAt p 4 8, wickEpoch := leAt p 0 4 } }.wr F.twinPartnerRole 1

theorem Dev.rd_wickHeard (d : Dev) (p : Bytes) {g : Fld} (ok : g.ok = true) (apart : F.twinPartnerRole.apart 0 g 0 = true) :
    (d.wickHeard p).rd g = d.rd g := by
  rw [Dev.wickHeard, Dev.rd_wr_apart _ _ _ _ _ _ (by decide) ok apart]
  simp only [Dev.rd]

theorem Dev.wickFrame_heard (partner : l = 53 ∨ l = 54) (whole : f.payload.length = 24) (index : byteAt f.payload 14 ≤ 1)
    (least : 1 ≤ byteAt f.payload 15) (most : byteAt f.payload 15 ≤ 64) : d.wickFrame l f =
      let w := d.wickHeard f.payload
      (if w.rd F.twinRole = 1 && decide (w.rd F.twinEpoch < leAt f.payload 0 4) then w.superseded 1 else w).sawEpoch
        (leAt f.payload 0 4) := by
  refine if_neg ?_
  have known : twinLaneNo l = true := twinLaneNo_of partner
  have some_ : byteAt f.payload 15 ≠ 0 := by omega
  simp [known, whole, index, some_, most]

/-- A WICK of a higher epoch ends the unit's own holding (R385). -/
theorem Dev.superseded_leaves (d : Dev) (src : Nat) :
    (d.superseded src).rd F.twinRole = 6 ∧ (d.superseded src).twin.leaseOut = false := by
  refine ⟨Dev.twinRole_releaseWick _, ?_⟩
  rw [Dev.superseded, Dev.twin_releaseWick]

/-- A unit without the Wick keeps the largest epoch seen (R400). -/
theorem Dev.twinEpoch_sawEpoch {epoch : Nat} (without : d.holdsWick = false) (small : epoch < 2 ^ 32) :
    (d.sawEpoch epoch).rd F.twinEpoch = max (d.rd F.twinEpoch) epoch := by
  have held : d.rd F.twinEpoch < 2 ^ 32 := d.rd_lt F.twinEpoch 0
  rw [Dev.sawEpoch, without, if_neg (by decide)]
  exact Dev.rd_wr_fits _ 0 (by decide) (Nat.max_lt.mpr ⟨held, small⟩)

/-! ## STATE_COPY and DIGEST (R387, R390) -/

theorem Dev.stateCopyFrame_placed (partner : l = 53 ∨ l = 54) (without : d.holdsWick = false) (least : 17 ≤ f.payload.length)
    (most : f.payload.length ≤ 256) (reserved : zeroRange f.payload 12 4 = true) (inside : leAt f.payload 8 2 < leAt f.payload 10 2) :
    d.stateCopyFrame l f = d.copyChunk f.payload := by
  refine if_neg ?_
  have known : twinLaneNo l = true := twinLaneNo_of partner
  simp only [known, without, reserved]
  simp [least, most, inside]

/-- A chunk stands in the copy of its cycle, at its number. -/
theorem Dev.copy_copyChunk (d : Dev) (p : Bytes) : ∃ c, (d.copyChunk p).twin.copy = some c ∧ c.cycle = leAt p 0 4
    ∧ tget (fun _ => []) c.got (leAt p 8 2) = p.drop 16 := by
  unfold Dev.copyChunk
  extract_lets cycle c placed
  refine ⟨placed, rfl, ?_, (tget_tset _ _ _ _ _).trans (if_pos rfl)⟩
  show c.cycle = cycle
  unfold c
  cases d.twin.copy with
  | none => rfl
  | some c =>
    dsimp only
    split
    · assumption
    · rfl

theorem Dev.digestContent_placed (partner : l = 53 ∨ l = 54) (without : d.holdsWick = false) (least : 1 ≤ byteAt f.payload 5)
    (most : byteAt f.payload 5 ≤ 31) (whole : f.payload.length = 8 + 8 * byteAt f.payload 5) (reserved : zeroRange f.payload 6 2 = true) :
    d.digestContent l f = d.digestFrame f.payload := by
  refine if_neg ?_
  have known : twinLaneNo l = true := twinLaneNo_of partner
  have some_ : byteAt f.payload 5 ≠ 0 := by omega
  simp only [known, without, reserved]
  simp [some_, most, whole]

/-- Values written at consecutive keys from a first one on all stand in the table. -/
theorem tget_foldl_tset {α : Type} [DecidableEq α] (dflt : Nat → α) (first : Nat) (v : Nat → α) (n : Nat) (t : List (Nat × α)) :
    ∀ i < n, tget dflt ((List.range n).foldl (fun t i => tset dflt t (first + i) (v i)) t) (first + i) = v i := by
  induction n with
  | zero => exact fun i none => absurd none (Nat.not_lt_zero i)
  | succ n ih =>
    intro i below
    rw [List.range_succ, List.foldl_append, List.foldl_cons, List.foldl_nil, tget_tset]
    split
    · rename_i same
      rw [Nat.add_left_cancel same]
    · exact ih i (by omega)

theorem Dev.digestCycle_digestFrame (d : Dev) (p : Bytes) : (d.digestFrame p).twin.digestCycle = leAt p 0 4 := by
  unfold Dev.digestFrame
  extract_lets cycle old new
  rfl

/-- The digests of a frame stand at consecutive lanes. -/
theorem Dev.digests_digestFrame (d : Dev) (p : Bytes) : ∀ i < byteAt p 5,
    tget (fun _ => 2 ^ 64) (d.digestFrame p).twin.digests (byteAt p 4 + i) = leAt p (8 + 8 * i) 8 := by
  unfold Dev.digestFrame
  extract_lets cycle old new
  exact tget_foldl_tset _ _ (fun i => leAt p (8 + 8 * i) 8) _ _

/-! ## Pilot reports (R391, R396) -/

theorem Dev.healthFrame_report (partner : l = 53 ∨ l = 54) (whole : f.payload.length = 52) (reserved : zeroRange f.payload 15 1 = true) :
    d.healthFrame l f = d.partnerReport f.payload := by
  have lane : ¬ l < 48 := by omega
  unfold Dev.healthFrame
  dsimp only
  rw [if_neg lane, if_pos (by simp [twinLaneNo_of partner, whole, reserved])]

/-- The block once a Pilot report is kept. -/
def Dev.reportKept (d : Dev) (p : Bytes) : Dev :=
  ({ d with twin := { d.twin with report := p, reportAt := some d.now } }.wr F.twinPartnerRole (byteAt p 12)).wr F.twinPilotAt (leAt p 0 4)

theorem Dev.twin_reportKept (d : Dev) (p : Bytes) :
    (d.reportKept p).twin = { d.twin with report := p, reportAt := some d.now } ∧ (d.reportKept p).now = d.now := by
  simp only [Dev.reportKept, Dev.wr_frame, Dev.now, and_self]

theorem Dev.rd_reportKept (d : Dev) (p : Bytes) :
    (d.reportKept p).rd F.twinRole = d.rd F.twinRole ∧ (d.reportKept p).rd F.twinPartnerRole = byteAt p 12 % 8 := by
  simp (disch := decide) only [Dev.reportKept, Dev.rd_wr_apart, Dev.rd_wr_same]
  exact ⟨by simp only [Dev.rd], rfl⟩

/-- A report of a unit that gives no U lane away: it is kept, and one with a divergence pending starts Flame's self-check. -/
theorem Dev.partnerReport_kept {p : Bytes} (ownU : (byteAt p 13).testBit 6 = false) : d.partnerReport p =
    let e := d.reportKept p
    if e.rd F.twinRole = 1 && (byteAt p 13).testBit 5 && !e.twin.checking then
      { e with twin := { e.twin with checking := true, checkResult := 0, checkAt := e.now } }
    else e := by
  unfold Dev.partnerReport
  extract_lets b src heard kept src2 opened src3
  have stays : opened = kept := if_neg (Bool.eq_false_iff.mp ownU)
  clear_value opened
  subst stays
  rfl

end

/-- Settles O44: by what each frame of the partner leads to once its content is as laid out. -/
theorem partnerFramesAreTaken : Obligations.PartnerFramesAreTaken := by
  unfold Obligations.PartnerFramesAreTaken
  intro d l f p partner
  have known : twinLaneNo l = true := twinLaneNo_of partner
  refine ⟨fun whole index least most => ?wick, fun without least most reserved inside => ?copy,
    fun without least most whole reserved => ?digest, fun holds => ?holder, fun whole reserved ownU => ?report⟩
  case wick =>
    intro w
    have heard := Dev.wickFrame_heard (d := d) partner whole index least most
    have small : leAt f.payload 0 4 < 2 ^ 32 := leAt_lt f.payload 0 4
    have role := d.rd_wickHeard p (g := F.twinRole) (by decide) (by decide)
    have epoch := d.rd_wickHeard p (g := F.twinEpoch) (by decide) (by decide)
    refine ⟨fun flame higher => ⟨heard.trans ?_, Dev.superseded_leaves _ 1⟩, fun other => ?_⟩
    · exact congrArg (fun x : Dev => x.sawEpoch (leAt p 0 4)) (if_pos (by rw [role, epoch, flame]; simp [p, higher]))
    · have saw : d.wickFrame l f = (d.wickHeard p).sawEpoch (leAt p 0 4) := by
        refine heard.trans (congrArg (fun x : Dev => x.sawEpoch (leAt p 0 4)) (if_neg ?_))
        rw [role, epoch]
        obtain notFlame | notHigher := other
        · simp [notFlame]
        · simp [p, Nat.not_lt.mpr notHigher]
      refine ⟨saw, fun without => ?_⟩
      have still : (d.wickHeard p).holdsWick = false := by rw [Dev.holdsWick, role]; exact without
      rw [saw, Dev.twinEpoch_sawEpoch still small, epoch]
  case copy =>
    rw [Dev.stateCopyFrame_placed partner without least most reserved inside]
    exact d.copy_copyChunk p
  case digest =>
    rw [Dev.digestContent_placed partner without least most whole reserved]
    exact ⟨d.digestCycle_digestFrame p, d.digests_digestFrame p⟩
  case holder =>
    exact ⟨if_pos (by simp [known, holds]), if_pos (by simp [known, holds])⟩
  case report =>
    intro e
    obtain ⟨twin, instant⟩ := d.twin_reportKept p
    obtain ⟨role, shown⟩ := d.rd_reportKept p
    have kept : e = _ := (Dev.healthFrame_report partner whole reserved).trans (Dev.partnerReport_kept ownU)
    dsimp only at kept
    rw [role, twin, instant] at kept
    rw [kept]
    split
    · refine ⟨rfl, rfl, Eq.trans ?_ shown, fun _ _ _ => ⟨rfl, rfl, rfl⟩⟩
      simp only [Dev.rd, p]
    · rename_i starts
      refine ⟨by rw [twin], by rw [twin], shown, fun flame pending idle => absurd ?_ starts⟩
      simp [flame, pending, idle, p]

end Sys2Proof.Machine
end

section
/-!
PROOFS. The family 13_measurement_calibration, the channels (R346 to R352, R358).
-/
namespace Sys2Proof.Machine

/-! ## Fields of a channel -/

/-- Two fields of the channels that share no bit in any of them. -/
theorem Dev.rd_wr_channel {n : Nat} (below : n < 32) (d : Dev) (f g : Fld) (v : Nat) (hf : f.ok = true) (hg : g.ok = true)
    (apart : ((List.range 32).all fun i => f.apart i g i) = true) : (d.wr f v n).rd g n = d.rd g n :=
  Dev.rd_wr_apart _ _ _ _ _ _ hf hg (List.all_eq_true.mp apart n (List.mem_range.mpr below))

theorem Dev.rd_raise_channel {n : Nat} (below : n < 32) (d : Dev) (source x : Nat) (f : Fld) (listed : source < 256)
    (quiet : ((List.range 32).all fun i => f.quiet i) = true) : (d.raise source x).rd f n = d.rd f n :=
  Dev.rd_raise _ _ _ _ _ listed (List.all_eq_true.mp quiet n (List.mem_range.mpr below))

@[simp] theorem Dev.rd_setChan (d : Dev) (n : Nat) (c : Chan) (f : Fld) (i : Nat) : (d.setChan n c).rd f i = d.rd f i := by
  simp only [Dev.setChan, Dev.rd]

/-! ## The main filter (R346 to R349, R352) -/

section
variable (d : Dev) (n : Nat) (bits : List Bool)

/-- A channel whose window went through its main filter. -/
def Dev.filtered : Dev := d.setChan n { d.chan n with main := ((d.chan n).main.window bits).1 }

/-- MEAS.SAT and 0x5A for a result at an end of the range. -/
def Dev.saturated (d : Dev) (n r full : Nat) : Dev := if r = 0 ∨ r = full then (d.wr F.measSat 1 n).raise 0x5A else d

/-- A result as it waits to be published. -/
def Dev.waitingOutput (n r : Nat) : ChanOut :=
  let x := normalise r (d.rd F.measOsr n ^ d.chanOrder n)
  { chan := n, due := 16 * (d.now / 16 + 4), x := x
    at_ := d.now - d.chanOrder n * (d.rd F.measOsr n - 1) * sdPeriod / 2 - d.rd F.measSkew n
    y := scaled x (d.chanCal n).1 (d.chanCal n).2.1 (s32 (d.rd F.measScale n)) }

variable {d n bits}

theorem Dev.chanOutput_running (running : (d.chan n).running = true) (whole : bits.length = d.rd F.measOsr n) :
    d.chanOutput n bits =
      let w := (d.chan n).main.window bits
      let full := d.rd F.measOsr n ^ d.chanOrder n
      let run := d.filtered n bits
      let e := run.saturated n w.2 full
      if run.on F.measHeld n then run.bumpWrap F.measOutCount n
      else if w.1.toSettle ≠ 0 then e
      else
        let x := normalise w.2 full
        let o : ChanOut := {
          chan := n, due := 16 * (e.now / 16 + 4), x := x
          at_ := e.now - d.chanOrder n * (d.rd F.measOsr n - 1) * sdPeriod / 2 - e.rd F.measSkew n
          y := scaled x (e.chanCal n).1 (e.chanCal n).2.1 (s32 (e.rd F.measScale n)) }
        { e with engines := { e.engines with outs := e.engines.outs ++ [o] } } := by
  have starts : (!(d.chan n).running || bits.length != d.rd F.measOsr n) = false := by simp [running, whole]
  unfold Dev.chanOutput
  dsimp only
  rw [starts, if_neg (by decide)]
  simp only [Bool.or_eq_true, decide_eq_true_eq, bne_iff_ne]
  rfl

theorem Dev.chanCal_congr {e : Dev} (same : e.cal = d.cal) : e.chanCal n = d.chanCal n := by
  simp only [Dev.chanCal, Dev.calInForce, same]

/-- MEAS.SAT leaves the instant, the calibration and the staged words of the channel alone. -/
theorem Dev.waitingOutput_saturated (d : Dev) (below : n < 32) (r full : Nat) :
    (d.saturated n r full).now = d.now ∧ (d.saturated n r full).cal = d.cal
    ∧ (d.saturated n r full).rd F.measSkew n = d.rd F.measSkew n ∧ (d.saturated n r full).rd F.measScale n = d.rd F.measScale n := by
  unfold Dev.saturated
  split
  · have near := Dev.near_raise (d.wr F.measSat 1 n) 0x5A 0 (by decide)
    obtain ⟨clock, cal⟩ : _ ∧ _ := ⟨congrArg Dev.clock near.core, congrArg Dev.cal near.core⟩
    refine ⟨congrArg Clock.now clock, cal, ?_, ?_⟩ <;>
      rw [Dev.rd_raise_channel below _ _ _ _ (by decide) (by decide),
        Dev.rd_wr_channel below _ _ _ _ (by decide) (by decide) (by decide)]
  · exact ⟨rfl, rfl, rfl, rfl⟩

theorem Dev.chanOutput_held (running : (d.chan n).running = true) (whole : bits.length = d.rd F.measOsr n)
    (held : d.on F.measHeld n = true) : d.chanOutput n bits = (d.filtered n bits).bumpWrap F.measOutCount n := by
  refine (Dev.chanOutput_running running whole).trans (if_pos ?_)
  simpa only [Dev.filtered, Dev.on, Dev.rd_setChan] using held

theorem Dev.chanOutput_settling (running : (d.chan n).running = true) (whole : bits.length = d.rd F.measOsr n)
    (free : d.on F.measHeld n = false) (settling : ((d.chan n).main.window bits).1.toSettle ≠ 0) :
    d.chanOutput n bits = (d.filtered n bits).saturated n ((d.chan n).main.window bits).2 (d.rd F.measOsr n ^ d.chanOrder n) := by
  refine (Dev.chanOutput_running running whole).trans ((if_neg ?_).trans (if_pos settling))
  simpa only [Dev.filtered, Dev.on, Dev.rd_setChan, Bool.not_eq_true] using free

theorem Dev.chanOutput_whole (below : n < 32) (running : (d.chan n).running = true) (whole : bits.length = d.rd F.measOsr n)
    (free : d.on F.measHeld n = false) (settled : ((d.chan n).main.window bits).1.toSettle = 0) :
    let e := (d.filtered n bits).saturated n ((d.chan n).main.window bits).2 (d.rd F.measOsr n ^ d.chanOrder n)
    d.chanOutput n bits =
      { e with engines := { e.engines with outs := e.engines.outs ++ [d.waitingOutput n ((d.chan n).main.window bits).2] } } := by
  intro e
  have open_ : ¬ (d.filtered n bits).on F.measHeld n = true := by
    simpa only [Dev.filtered, Dev.on, Dev.rd_setChan, Bool.not_eq_true] using free
  refine (Dev.chanOutput_running running whole).trans ((if_neg open_).trans ((if_neg (not_not_intro settled)).trans ?_))
  obtain ⟨instant, cal, skew, scale⟩ := Dev.waitingOutput_saturated (d.filtered n bits) below ((d.chan n).main.window bits).2
    (d.rd F.measOsr n ^ d.chanOrder n)
  dsimp only
  rw [instant, Dev.chanCal_congr cal, skew, scale]
  simp only [Dev.filtered, Dev.rd_setChan]
  rfl

end

/-! ## The fast path (R350) -/

section
variable {d : Dev} {n : Nat} {bits : List Bool}

/-- A fast window's value as the limits compare it. -/
def Dev.fastValue (d : Dev) (n : Nat) (bits : List Bool) : Int :=
  scaled (normalise ((d.chan n).fast.window bits).2 (d.rd F.measFpOsr n ^ 2)) (d.chanCal n).1 (d.chanCal n).2.2
    (s32 (d.rd F.measScale n))

/-- The block once a fast window is shown. -/
def Dev.fastShown (d : Dev) (n : Nat) (bits : List Bool) (run : Nat) (out : Bool) : Dev :=
  ((d.setChan n { d.chan n with fast := ((d.chan n).fast.window bits).1, ocRun := run }).wr F.measFpOut
    (u32 (d.fastValue n bits)) n).wr F.measOcIn (flag out) n

theorem Dev.chanFast_settling (running : (d.chan n).running = true) (enabled : d.on F.measFpEn n = true)
    (whole : bits.length = d.rd F.measFpOsr n) (settling : ((d.chan n).fast.window bits).1.toSettle ≠ 0) :
    d.chanFast n bits = d.setChan n { d.chan n with fast := ((d.chan n).fast.window bits).1 } := by
  unfold Dev.chanFast
  dsimp only
  exact (if_neg (by simp [running, enabled, whole])).trans (if_pos (by simp [settling]))

theorem Dev.chanFast_compared (below : n < 32) (running : (d.chan n).running = true) (enabled : d.on F.measFpEn n = true)
    (whole : bits.length = d.rd F.measFpOsr n) (settled : ((d.chan n).fast.window bits).1.toSettle = 0) {out : Bool}
    (judged : (decide (s32 (d.rd F.measOcHi n) < d.fastValue n bits) || decide (d.fastValue n bits < s32 (d.rd F.measOcLo n))) = out) :
    let run := if out then (d.chan n).ocRun + 1 else 0
    let e := d.fastShown n bits run out
    d.chanFast n bits = if out && run == d.rd F.measOcCnt n + 1 then ((e.wr F.measOc 1 n).fault 19 n).raise 0x58 else e := by
  intro run e
  have limit : e.rd F.measOcCnt n = d.rd F.measOcCnt n := by
    unfold e Dev.fastShown
    rw [Dev.rd_wr_channel below _ _ _ _ (by decide) (by decide) (by decide),
      Dev.rd_wr_channel below _ _ _ _ (by decide) (by decide) (by decide), Dev.rd_setChan]
  rw [← limit]
  unfold Dev.chanFast
  dsimp only
  refine (if_neg (by simp [running, enabled, whole])).trans ((if_neg (by simp [settled])).trans ?_)
  subst judged
  rfl

end

/-! ## Publishing (R349, R358) -/

section
variable (d : Dev) (o : ChanOut)

/-- The registers of a channel once its output is published, before MEAS.VALID. -/
def Dev.published (d : Dev) (o : ChanOut) : Dev :=
  (({ d with engines := { d.engines with outs := d.engines.outs.filter (· != o) } }.wr F.measOut (u32 o.y) o.chan).wr F.measRaw (u32 o.x)
    o.chan).wr64 F.measAtLo F.measAtHi o.at_ o.chan |>.bumpWrap F.measOutCount o.chan

/-- MEAS.VALID and 0x59 where the output is the first of its channel. -/
def Dev.valid (d : Dev) (n : Nat) : Dev := if d.on F.measValid n then d else (d.wr F.measValid 1 n).raise 0x59

theorem Dev.publishOutput_eq : d.publishOutput o = ((d.published o).valid o.chan).trigger (fun sel => sel == 2 * 8192 + o.chan) o.at_ := rfl

theorem Dev.rd_trigger (isFed : Nat → Bool) (instant : Nat) (f : Fld) (i : Nat) : (d.trigger isFed instant).rd f i = d.rd f i := by
  simp only [Dev.trigger, Dev.rd]

theorem Dev.outs_valid (n : Nat) : (d.valid n).engines.outs = d.engines.outs := by
  unfold Dev.valid
  split
  · rfl
  · have same := congrArg Dev.engines (Dev.near_raise (d.wr F.measValid 1 n) 0x59 0 (by decide)).core
    exact congrArg (·.outs) same

/-- MEAS.VALID leaves the other fields of its channel alone. -/
theorem Dev.rd_valid {n : Nat} (below : n < 32) (f : Fld) (hf : f.ok = true) (quiet : ((List.range 32).all fun i => f.quiet i) = true)
    (apart : ((List.range 32).all fun i => F.measValid.apart i f i) = true) : (d.valid n).rd f n = d.rd f n := by
  unfold Dev.valid
  split
  · rfl
  · rw [Dev.rd_raise_channel below _ _ _ _ (by decide) quiet, Dev.rd_wr_channel below _ _ _ _ (by decide) hf apart]

theorem Dev.valid_valid {n : Nat} (below : n < 32) : (d.valid n).rd F.measValid n = 1 := by
  unfold Dev.valid
  split
  · rename_i shown
    have bit := d.rd_lt F.measValid n
    have some_ : d.rd F.measValid n ≠ 0 := by simpa [Dev.on] using shown
    have two : F.measValid.size = 2 := by decide
    omega
  · rw [Dev.rd_raise_channel below _ _ _ _ (by decide) (by decide), Dev.rd_wr_same _ _ _ _ (by decide)]
    decide

theorem Dev.outs_publishOutput : (d.publishOutput o).engines.outs = d.engines.outs.filter (· != o) := by
  rw [Dev.publishOutput_eq]
  refine (Dev.outs_valid _ _).trans ?_
  simp only [Dev.published, Dev.bumpWrap, Dev.wr64, Dev.wr_frame]

theorem u32_lt (z : Int) : u32 z < 2 ^ 32 := (BitVec.ofInt 32 z).isLt

/-- What a published output shows. -/
theorem Dev.rd_published (below : o.chan < 32) :
    (d.published o).rd F.measOut o.chan = u32 o.y ∧ (d.published o).rd F.measRaw o.chan = u32 o.x
    ∧ (d.published o).rd F.measAtLo o.chan = o.at_ % 2 ^ 32 ∧ (d.published o).rd F.measAtHi o.chan = o.at_ / 2 ^ 32 % 2 ^ 32
    ∧ (d.published o).rd F.measOutCount o.chan = (d.rd F.measOutCount o.chan + 1) % 65536 := by
  have word (f : Fld) (v : Nat) (wide : f.size = 2 ^ 32) (fits : v < 2 ^ 32) : v % f.size = v := wide ▸ Nat.mod_eq_of_lt fits
  simp (disch := decide) only [Dev.published, Dev.wr64, Dev.bumpWrap, Dev.rd_wr_channel below, Dev.rd_wr_same]
  refine ⟨word _ _ rfl (u32_lt _), word _ _ rfl (u32_lt _), word _ _ rfl (Nat.mod_lt _ (by decide)),
    word _ _ rfl (Nat.mod_lt _ (by decide)), ?_⟩
  have count : F.measOutCount.size = 65536 := by decide
  rw [count, Nat.mod_mod]
  simp only [Dev.rd]

theorem Dev.publishOutput_shows (below : o.chan < 32) :
    let e := d.publishOutput o
    e.rd F.measOut o.chan = u32 o.y ∧ e.rd F.measRaw o.chan = u32 o.x ∧ e.rd F.measValid o.chan = 1
      ∧ e.rd F.measAtLo o.chan + 2 ^ 32 * e.rd F.measAtHi o.chan = o.at_ % 2 ^ 64
      ∧ e.rd F.measOutCount o.chan = (d.rd F.measOutCount o.chan + 1) % 65536 ∧ o ∉ e.engines.outs := by
  intro e
  obtain ⟨out, raw, low, high, count⟩ := d.rd_published o below
  have kept (f : Fld) (hf : f.ok = true) (quiet : ((List.range 32).all fun i => f.quiet i) = true)
      (apart : ((List.range 32).all fun i => F.measValid.apart i f i) = true) : e.rd f o.chan = (d.published o).rd f o.chan :=
    (Dev.rd_trigger _ _ _ _ _).trans (Dev.rd_valid _ below f hf quiet apart)
  refine ⟨(kept _ (by decide) (by decide) (by decide)).trans out, (kept _ (by decide) (by decide) (by decide)).trans raw,
    (Dev.rd_trigger _ _ _ _ _).trans (Dev.valid_valid _ below), ?_, (kept _ (by decide) (by decide) (by decide)).trans count, ?_⟩
  · rw [kept F.measAtLo (by decide) (by decide) (by decide), kept F.measAtHi (by decide) (by decide) (by decide), low, high]
    omega
  · rw [show e.engines.outs = _ from d.outs_publishOutput o]
    simp

end

/-- Settles O33: by what a window does in the main filter and in the fast path, and by the registers of a published output. -/
theorem channelsMeasure : Obligations.ChannelsMeasure := by
  unfold Obligations.ChannelsMeasure
  refine ⟨fun s t n bits => ?_, fun d o below => d.publishOutput_shows o below⟩
  intro d c next
  have now : s.dev.advance t = d := rfl
  clear_value d
  refine ⟨?main, ?fast, fun running free => ?lost, fun held => ?resumed⟩
  case main =>
    intro f r full run e x o running whole
    refine ⟨fun held => ?_, fun free settling => ?_, fun free settled => ?_⟩ <;>
      rw [exec_channelOutput]
    · exact event_at now (Dev.chanOutput_held running whole held)
    · exact event_at now (Dev.chanOutput_settling running whole free settling)
    · exact event_at now (Dev.chanOutput_whole n.isLt running whole free settled)
  case fast =>
    intro f y low high shown running enabled whole
    have leads (out : Bool) (settled : f.toSettle = 0) (judged : (decide (high < y) || decide (y < low)) = out) :=
      Dev.chanFast_compared n.isLt running enabled whole settled judged
    refine ⟨fun settling => ?_, fun settled above under => ?_, fun settled outside more => ?_, fun settled outside last => ?_⟩ <;>
      rw [exec_channelOverCurrent]
    · exact event_at now (Dev.chanFast_settling running enabled whole settling)
    · exact event_at now ((leads false settled (by simp [above, under])).trans (if_neg (by simp)))
    · exact event_at now ((leads true settled (by simpa [or_comm] using outside)).trans (if_neg (by simpa using more)))
    · exact event_at now ((leads true settled (by simpa [or_comm] using outside)).trans (if_pos (by simpa using last)))
  case lost =>
    rw [exec_modulatorStreamLost]
    exact event_at now (if_pos (by simp [show (d.chan n).running = true from running, free]))
  case resumed =>
    rw [exec_modulatorStreamResumed]
    exact event_at now (if_pos held)

end Sys2Proof.Machine
end

section
/-!
PROOFS. The family 13_measurement_calibration, the calibration store (R355, R356).
-/
namespace Sys2Proof.Machine

/-! ## CAL_WRITE (R356) -/

section
variable {d : Dev} {page : Nat} {bytes : Bytes}

/-- A page that CAL_WRITE takes. -/
structure Dev.calWritable (d : Dev) (page : Nat) (bytes : Bytes) : Prop where
  inside : page ≤ 63
  good : blockGood bytes = true
  reserved : reservedBad page bytes = false
  rests : d.mode = .held ∨ d.mode = .calibrate
  idle : d.cal.writing = none
  fresh : d.calCount page < 10000

theorem hCalWrite_parks {c : Ctx} {page : BitVec 16} (w : d.calWritable page.toNat bytes) : hCalWrite page bytes c d =
    .park (.calWrite page.toNat)
      (({ d with cal := { d.cal with writing := some (page.toNat, bytes) } }.wr F.calBusy 1).wr F.calBusyPage page.toNat) := by
  obtain ⟨inside, good, reserved, rests, idle, fresh⟩ := w
  have mode : (d.mode != .held && d.mode != .calibrate) = false := by
    obtain held | calibrate := rests
    · simp [held]
    · simp [calibrate]
  refine orRefuse_passes _ _ (passes_refuseIf (by simp [inside]) (passes_refuseIf (by simp [good]) (passes_refuseIf reserved
    (passes_refuseIf mode (passes_refuseIf (by simp [idle]) (passes_refuseIf (by simp [fresh]) passes_nil))))))

/-! ## CAL_WRITE_DONE (R356, log entry 48) -/

/-- A field of one state object written leaves the fields of every other object alone. -/
theorem Dev.rd_wr_object (d : Dev) {f g : Fld} {i j : Nat} (v : Nat) (other : g.key j / 65536 ≠ f.key i / 65536) :
    (d.wr f v i).rd g j = d.rd g j :=
  Dev.rd_wr_key _ _ _ _ _ _ fun same => other (congrArg (· / 65536) same.symm)

/-- A page that its verify found as written. -/
def Dev.calVerified (d : Dev) (page : Nat) (bytes : Bytes) : Dev :=
  ({ d with cal := { d.cal with
      pages := tset factoryPage d.cal.pages page bytes, broken := d.cal.broken.filter (· != page), apply := d.cal.apply ++ [page] } }.bump
    F.calWrites).wr F.calLastPage page

/-- A page that fails its verify. -/
def Dev.calBroken (d : Dev) (page : Nat) : Dev := { d with cal := { d.cal with broken := d.cal.broken ++ [page] } }

/-- The block once a page's write has ended, before its packet is answered. -/
def Dev.calStored (d : Dev) (page : Nat) (bytes : Bytes) (verified : Bool) : Dev :=
  if verified then (d.calCounted page).calVerified page bytes else (d.calCounted page).calBroken page

theorem Dev.parked_bump (d : Dev) (f : Fld) (i : Nat) : (d.bump f i).parked = d.parked := by
  obtain same | more := d.bump_cases f i
  · rw [same]
  · rw [more]; simp only [Dev.wr_frame]

theorem Dev.cal_bump (d : Dev) (f : Fld) (i : Nat) : (d.bump f i).cal = d.cal := by
  obtain same | more := d.bump_cases f i
  · rw [same]
  · rw [more]; simp only [Dev.wr_frame]

theorem Dev.rd_bump_object (d : Dev) {f g : Fld} {i j : Nat} (other : g.key j / 65536 ≠ f.key i / 65536) :
    (d.bump f i).rd g j = d.rd g j := by
  obtain same | more := d.bump_cases f i
  · rw [same]
  · rw [more, Dev.rd_wr_object _ _ other]

theorem Dev.calCount_calCounted (d : Dev) (page q : Nat) :
    (d.calCounted page).calCount q = if q = page then d.calCount page + 1 else d.calCount q := by
  simp only [Dev.calCounted, Dev.calCount, Dev.wr_frame, tget_tset]

/-- What the count of a write leads to. -/
theorem Dev.calCounted_keeps (d : Dev) (page : Nat) :
    (d.calCounted page).cal.writing = none ∧ (d.calCounted page).cal.pages = d.cal.pages
    ∧ (d.calCounted page).cal.apply = d.cal.apply ∧ (d.calCounted page).parked = d.parked := by
  simp only [Dev.calCounted, Dev.wr_frame, and_self]

theorem Dev.rd_calCounted (d : Dev) (page : Nat) {f : Fld} {i : Nat} (other : f.key i / 65536 ≠ 0x0C00) :
    (d.calCounted page).rd f i = d.rd f i := by
  refine (Dev.rd_wr_object _ _ other).trans ?_
  simp only [Dev.rd]

theorem Dev.cal_calVerified (d : Dev) (page : Nat) (bytes : Bytes) : (d.calVerified page bytes).cal = { d.cal with
    pages := tset factoryPage d.cal.pages page bytes, broken := d.cal.broken.filter (· != page), apply := d.cal.apply ++ [page] } := by
  simp only [Dev.calVerified, Dev.wr_frame, Dev.cal_bump]

theorem Dev.rd_calVerified (d : Dev) (page : Nat) (bytes : Bytes) {f : Fld} {i : Nat} (other : f.key i / 65536 ≠ 0x0C00) :
    (d.calVerified page bytes).rd f i = d.rd f i := by
  refine (Dev.rd_wr_object _ _ other).trans ((Dev.rd_bump_object _ other).trans ?_)
  simp only [Dev.rd]

theorem Dev.calStored_true (d : Dev) (page : Nat) (bytes : Bytes) :
    d.calStored page bytes true = (d.calCounted page).calVerified page bytes := if_pos rfl

theorem Dev.calStored_false (d : Dev) (page : Nat) (bytes : Bytes) :
    d.calStored page bytes false = (d.calCounted page).calBroken page := if_neg Bool.false_ne_true

theorem Dev.rd_calBroken (d : Dev) (page : Nat) (f : Fld) (i : Nat) : (d.calBroken page).rd f i = d.rd f i := by
  simp only [Dev.calBroken, Dev.rd]

theorem Dev.calCount_calStored (d : Dev) (page : Nat) (bytes : Bytes) (verified : Bool) (q : Nat) :
    (d.calStored page bytes verified).calCount q = if q = page then d.calCount page + 1 else d.calCount q := by
  rw [← Dev.calCount_calCounted]
  cases verified
  · rw [Dev.calStored_false]
    simp only [Dev.calBroken, Dev.calCount]
  · rw [Dev.calStored_true]
    simp only [Dev.calCount, Dev.cal_calVerified]

/-- The packet of a page's write is answered with the count of its writes, or with MEMORY_ERROR. -/
theorem Dev.calWritten_eq (d : Dev) (page : Nat) (bytes : Bytes) (verified : Bool) :
    let e := d.calStored page bytes verified
    d.calWritten page bytes verified = (d.parked.find? fun y => decide (y.why = .calWrite page)).elim e fun x =>
      if verified then e.answerParked x stOk (le 4 (d.calCount page + 1))
      else e.answerParked x stMemoryError (refusalData 0xFFFF 0 0xFF 0) := by
  intro e
  rw [← (Dev.calCount_calStored d page bytes verified page).trans (if_pos rfl)]
  unfold Dev.calWritten
  dsimp only
  cases (d.parked.find? fun y => decide (y.why = .calWrite page)) <;> rfl

/-- What a write leads to whatever its verify finds. -/
theorem Dev.calStored_keeps (d : Dev) (page : Nat) (bytes : Bytes) (verified : Bool) :
    let e := d.calStored page bytes verified
    e.cal.writing = none ∧ e.rd F.calBusy = 0 ∧ e.parked = d.parked ∧ ∀ f i, f.key i / 65536 ≠ 0x0C00 → e.rd f i = d.rd f i := by
  obtain ⟨writing, -, -, parked⟩ := d.calCounted_keeps page
  have busy : (d.calCounted page).rd F.calBusy = 0 := Dev.rd_wr_same _ _ _ _ (by decide)
  cases verified
  · rw [Dev.calStored_false]
    exact ⟨writing, (Dev.rd_calBroken _ page _ _).trans busy, parked,
      fun f i other => (Dev.rd_calBroken _ page f i).trans (d.rd_calCounted page other)⟩
  · rw [Dev.calStored_true]
    refine ⟨(congrArg (·.writing) (Dev.cal_calVerified _ page bytes)).trans writing, ?_, ?_,
      fun f i other => (Dev.rd_calVerified _ page bytes other).trans (d.rd_calCounted page other)⟩
    · refine (Dev.rd_wr_apart _ _ _ _ _ _ (by decide) (by decide) (by decide)).trans
        ((Dev.rd_bump_apart _ _ _ _ _ (by decide) (by decide) (by decide)).trans (Eq.trans ?_ busy))
      simp only [Dev.rd]
    · show (Dev.calVerified _ page bytes).parked = d.parked
      simp only [Dev.calVerified, Dev.wr_frame, Dev.parked_bump, parked]

/-- A verified page stands in the store and waits for the boundary (R356). -/
theorem Dev.calStored_verified (d : Dev) (page : Nat) (bytes : Bytes) :
    let e := d.calStored page bytes true
    tget factoryPage e.cal.pages page = bytes ∧ e.cal.apply = d.cal.apply ++ [page] ∧ e.rd F.calLastPage = page % 64 := by
  rw [Dev.calStored_true]
  obtain ⟨-, -, apply, -⟩ := d.calCounted_keeps page
  have cal := Dev.cal_calVerified (d.calCounted page) page bytes
  refine ⟨(congrArg (fun c => tget factoryPage c.pages page) cal).trans ?_, (congrArg (·.apply) cal).trans ?_,
    Dev.rd_wr_same _ _ _ _ (by decide)⟩
  · exact (tget_tset _ _ _ _ _).trans (if_pos rfl)
  · exact congrArg (· ++ [page]) apply

/-- A page that fails its verify leaves the store as it was and reads as broken (log entry 48). -/
theorem Dev.calStored_failed (d : Dev) (page : Nat) (bytes : Bytes) :
    let e := d.calStored page bytes false
    e.cal.pages = d.cal.pages ∧ page ∈ e.cal.broken := by
  rw [Dev.calStored_false]
  obtain ⟨-, pages, -⟩ := d.calCounted_keeps page
  exact ⟨pages, List.mem_append_right _ (List.mem_singleton.mpr rfl)⟩

end

/-- Settles O20: by the page as CAL_WRITE takes it, and by what the end of its write leads to. -/
theorem calibrationPagesAreWritten : Obligations.CalibrationPagesAreWritten := by
  unfold Obligations.CalibrationPagesAreWritten
  intro s t
  refine ⟨fun src h page bytes => ?write, ?done⟩
  case write =>
    intro p d admitted whole inside good reserved rests idle fresh
    have fits : decide (bytes.length = 256) = true := decide_eq_true whole
    rw [exec_calWrite, execCalWrite, fits, opcodeLen_eq]
    exact p.opcode_parks s (hCalWrite page bytes) _ _ admitted (hCalWrite_parks ⟨inside, good, reserved, rests, idle, fresh⟩)
  case done =>
    intro d page bytes verified writing
    have now : s.dev.advance t = d := rfl
    clear_value d
    obtain ⟨stopped, busy, parked, others⟩ := d.calStored_keeps page bytes verified
    have count := d.calCount_calStored page bytes verified
    refine ⟨d.calStored page bytes verified, ?_, stopped, (count page).trans (if_pos rfl), busy, parked, ?_, ?_, others,
      fun q differs => (count q).trans (if_neg differs)⟩
    · rw [exec_calWriteDone]
      refine event_at now ?_
      rw [writing]
      refine (d.calWritten_eq page bytes verified).trans ?_
      cases (d.parked.find? fun y => decide (y.why = .calWrite page)) <;> rfl
    · rintro rfl
      exact d.calStored_verified page bytes
    · rintro rfl
      exact d.calStored_failed page bytes

end Sys2Proof.Machine
end

section
/-!
PROOFS. The family 11_hamper_placement, the Tallow ledger: checkpoints and the restore (R305, R307, R310), the rainflow count (R299,
R300).
-/
namespace Sys2Proof.Machine

/-! ## Checkpoints (R305) -/

section
variable {d : Dev}

/-- A checkpoint asked for: it waits for its copy, with HMP.CKPT_BUSY set. -/
def Dev.checkpointWanted (d : Dev) (sector : Nat) : Dev :=
  { d with ledger := { d.ledger with wanted := some (sector % 16), retryAt := none } }.wr F.hmpCkptBusy 1

theorem Dev.startCheckpoint_counting (sector : Nat) (counting : d.rd F.hmpLedgerState = 2 ∨ d.rd F.hmpLedgerState = 3)
    (idle : d.on F.hmpCkptBusy = false) : d.startCheckpoint sector = d.checkpointWanted sector := by
  refine if_pos ?_
  simpa [idle] using counting

theorem Dev.checkpointDone_copied {sector : Nat} {bs : Bytes} (copied : d.ledger.copy = some (sector, bs)) (ok : Bool) :
    let e : Dev := { d with ledger := { d.ledger with copy := none } }.wr F.hmpCkptBusy 0
    d.checkpointDone ok =
      if ok then (({ e with ledger := { e.ledger with doneAt := d.now, retryAt := none } }.wr F.hmpCkptSector sector).wr F.hmpCkptSeq
        (leAt bs 8 4)).raise 0x32
      else ({ e with ledger := { e.ledger with retryAt := some ((sector + 1) % 16, d.now) } }.wr F.hmpCkptFail 1).raise 0x33 := by
  intro e
  have instant : e.now = d.now := by simp only [e, Dev.now, Dev.wr_frame]
  unfold Dev.checkpointDone
  rw [copied, ← instant]

/-! ## The restore (R307, R310) -/

theorem Dev.ledgerState_ledgerRuns (d : Dev) : d.ledgerRuns.rd F.hmpLedgerState = if d.on F.hmpTwEn then 2 else 3 := by
  refine (Dev.rd_wr_same _ _ _ _ (by decide)).trans ?_
  split <;> decide

theorem Dev.rd_ledgerRuns (d : Dev) (f : Fld) (i : Nat) (ok : f.ok = true) (apart : F.hmpLedgerState.apart 0 f i = true) :
    d.ledgerRuns.rd f i = d.rd f i := Dev.rd_wr_apart _ _ _ _ _ _ (by decide) ok apart

/-- The block with its ledger started from zero (R307): HMP.RESTORE_NONE, counting or disabled, 0x34. -/
def Dev.fromZero (d : Dev) : Dev := ((d.wr F.hmpRestoreNone 1).ledgerRuns).raise 0x34

theorem Dev.fromZero_shows (d : Dev) : d.fromZero.rd F.hmpRestoreNone = 1
    ∧ d.fromZero.rd F.hmpLedgerState = (if d.on F.hmpTwEn then 2 else 3) ∧ d.fromZero.wear = d.wear := by
  have near := Dev.near_raise (d.wr F.hmpRestoreNone 1).ledgerRuns 0x34 0 (by decide)
  have wear := congrArg Dev.wear near.core
  have enabled : (d.wr F.hmpRestoreNone 1).on F.hmpTwEn = d.on F.hmpTwEn := by
    simp (disch := decide) only [Dev.on, Dev.rd_wr_apart]
  refine ⟨(near.rd _ _ (by decide)).trans ?_, (near.rd _ _ (by decide)).trans ?_, wear.trans ?_⟩
  · rw [Dev.rd_ledgerRuns _ _ _ (by decide) (by decide), Dev.rd_wr_same _ _ _ _ (by decide)]
    decide
  · rw [Dev.ledgerState_ledgerRuns, enabled]
  · simp only [Dev.core, Dev.ledgerRuns, Dev.wr_frame]

/-- The block at its restore, before a checkpoint is looked at. -/
def Dev.restoring (d : Dev) : Dev := { d with ledger := { d.ledger with restoredAt := d.now, ckptAt := d.now, doneAt := d.now } }

theorem Dev.fromZero_restoring (d : Dev) : d.restoring.fromZero.rd F.hmpRestoreNone = 1
    ∧ d.restoring.fromZero.rd F.hmpLedgerState = (if d.on F.hmpTwEn then 2 else 3) ∧ d.restoring.fromZero.wear = d.wear :=
  d.restoring.fromZero_shows

theorem Dev.restoreLedger_invalid {sector : Nat} {bs : Bytes} (invalid : d.ckptValid bs = false) :
    d.restoreLedger (some (sector, bs)) = d.restoring.fromZero := if_neg (Bool.eq_false_iff.mp invalid)

/-- The slots restored from a checkpoint. -/
def Dev.slotsRestored (d : Dev) (bs : Bytes) : Dev := (List.range d.cellSlots).foldl (fun d s => d.restoreSlot bs s) d

theorem Dev.restoreLedger_valid {sector : Nat} {bs : Bytes} (valid : d.ckptValid bs = true) :
    d.restoreLedger (some (sector, bs)) =
      let e := d.restoring.slotsRestored bs
      (({ e with ledger := { e.ledger with hours := leAt bs 56 4 } }.wr F.hmpCkptSector (sector % 16)).wr F.hmpCkptSeq
        (leAt bs 8 4)).ledgerRuns := if_pos valid

/-- What restores a slot writes at or above HMP.DMG_LO (R307). -/
theorem Dev.rd_restoreSlot (d : Dev) (bs : Bytes) (s : Nat) {f : Fld} (below : f.key 0 < wordKey 0x0912 0) :
    (d.restoreSlot bs s).rd f 0 = d.rd f 0 := by
  have field (e : Dev) (g : Fld) (v : Nat) (above : wordKey 0x0912 0 ≤ g.key s) : (e.wr g v s).rd f 0 = e.rd f 0 :=
    Dev.rd_wr_key _ _ _ _ _ _ (by omega)
  have word (e : Dev) (w v : Nat) : (e.setWord (0x0A00 + s) w v).rd f 0 = e.rd f 0 :=
    Dev.rd_setWord_key _ _ _ _ (by unfold wordKey at below ⊢; omega)
  have above (g : Fld) (one : g.soN = 1) (object : g.so = 0x0912) : wordKey 0x0912 0 ≤ g.key s := by
    simp only [Fld.key, Fld.soAt, Fld.wordAt, one, if_true, object, wordKey]
    omega
  have damage (e : Dev) (v : Nat) : (e.wr64 F.hmpDmgLo F.hmpDmgHi v s).rd f 0 = e.rd f 0 :=
    (field _ F.hmpDmgHi _ (above _ rfl rfl)).trans (field _ F.hmpDmgLo _ (above _ rfl rfl))
  unfold Dev.restoreSlot
  extract_lets base third counter counted damaged depth flagged residue dir ext
  have counters : counted.rd f 0 = d.rd f 0 := Dev.rd_foldl _ _ _ _ _ fun e i _ => word e i _
  have damages : damaged.rd f 0 = counted.rd f 0 := damage _ _
  have flags : flagged.rd f 0 = damaged.rd f 0 := (field _ F.hmpLDepth _ (above _ rfl rfl)).trans
    ((field _ F.hmpLWarn _ (above _ rfl rfl)).trans ((field _ F.hmpLSat _ (above _ rfl rfl)).trans
      (field _ F.hmpCellTag _ (above _ rfl rfl))))
  clear_value flagged damaged counted
  rw [← counters, ← damages, ← flags]
  simp only [Dev.setWear, Dev.rd]

theorem Dev.rd_slotsRestored (d : Dev) (bs : Bytes) {f : Fld} (below : f.key 0 < wordKey 0x0912 0) :
    (d.slotsRestored bs).rd f 0 = d.rd f 0 := Dev.rd_foldl _ _ _ _ _ fun e s _ => e.rd_restoreSlot bs s below

/-- What a valid checkpoint leads to. -/
theorem Dev.restoreLedger_shows {sector : Nat} {bs : Bytes} (valid : d.ckptValid bs = true) (named : sector < 16) :
    let e := d.restoreLedger (some (sector, bs))
    e.rd F.hmpCkptSector = sector ∧ e.rd F.hmpCkptSeq = leAt bs 8 4 ∧ e.ledger.hours = leAt bs 56 4
    ∧ e.rd F.hmpLedgerState = (if d.on F.hmpTwEn then 2 else 3) := by
  intro e
  have leads : e = _ := Dev.restoreLedger_valid valid
  dsimp only at leads
  have enabled : (d.restoring.slotsRestored bs).rd F.hmpTwEn = d.rd F.hmpTwEn := Dev.rd_slotsRestored _ bs (by decide)
  generalize d.restoring.slotsRestored bs = r at leads enabled
  rw [leads]
  refine ⟨?_, ?_, ?_, ?_⟩
  · rw [Dev.rd_ledgerRuns _ _ _ (by decide) (by decide), Dev.rd_wr_apart _ _ _ _ _ _ (by decide) (by decide) (by decide),
      Dev.rd_wr_same _ _ _ _ (by decide), Nat.mod_eq_of_lt named]
    exact Nat.mod_eq_of_lt named
  · rw [Dev.rd_ledgerRuns _ _ _ (by decide) (by decide)]
    exact Dev.rd_wr_fits _ _ (by decide) (leAt_lt bs 8 4)
  · simp only [Dev.ledgerRuns, Dev.wr_frame]
  · rw [Dev.ledgerState_ledgerRuns]
    simp (disch := decide) only [Dev.on, Dev.rd_wr_apart]
    rw [show ({ r with ledger := { r.ledger with hours := leAt bs 56 4 } } : Dev).rd F.hmpTwEn = d.rd F.hmpTwEn by
      simpa only [Dev.rd] using enabled]
    rfl

/-! ## The rainflow count (R299, R300) -/

@[simp] theorem Dev.wearOf_setWear (d : Dev) (s : Nat) (w : Wear) : (d.setWear s w).wearOf s = w :=
  (tget_tset _ _ _ _ _).trans (if_pos rfl)

@[simp] theorem Dev.wearOf_wr (d : Dev) (f : Fld) (v i s : Nat) : (d.wr f v i).wearOf s = d.wearOf s := by
  simp only [Dev.wearOf, Dev.wr_frame]

/-- The four-point rule never adds a reversal. -/
theorem Dev.fourPoint_shortens (s fuel : Nat) (d : Dev) (r : List Int) : (d.fourPoint s fuel r).2.length ≤ r.length := by
  fun_induction Dev.fourPoint d s fuel r with
  | case1 d r => exact Nat.le_refl _
  | case2 d fuel s4 s3 s2 s1 rest inner applies ih =>
    refine Nat.le_trans ih ?_
    simp only [List.length_cons]
    omega
  | case3 => exact Nat.le_refl _
  | case4 => exact Nat.le_refl _

/-- What stands before the push of a reversal: past a depth of 32 the oldest range is taken out. -/
def Dev.pushRoom (d : Dev) (s : Nat) : Dev × List Int :=
  match (d.wearOf s).residue with
  | a :: b :: rest =>
    if 32 ≤ (d.wearOf s).residue.length then (d.countCycle s 1 (a - b).natAbs (a + b), b :: rest) else (d, (d.wearOf s).residue)
  | _ => (d, (d.wearOf s).residue)

theorem Dev.pushRoom_leaves (d : Dev) (s : Nat) (whole : (d.wearOf s).residue.length ≤ 32) : (d.pushRoom s).2.length < 32 := by
  unfold Dev.pushRoom
  generalize (d.wearOf s).residue = r at whole ⊢
  match r with
  | [] => exact Nat.zero_lt_succ _
  | [_] => exact Nat.succ_lt_succ (Nat.zero_lt_succ _)
  | a :: b :: rest =>
    dsimp only
    split
    · exact Nat.lt_of_succ_le whole
    · rename_i short
      exact Nat.lt_of_not_le short

theorem Dev.pushReversal_shortens (d : Dev) (s : Nat) (x : Int) (whole : (d.wearOf s).residue.length ≤ 32) :
    ((d.pushReversal s x).wearOf s).residue.length ≤ 32 := by
  have room := d.pushRoom_leaves s whole
  have pushed := Dev.fourPoint_shortens s 40 (d.pushRoom s).1 (x :: (d.pushRoom s).2.reverse)
  have eq : d.pushReversal s x = ((((d.pushRoom s).1.fourPoint s 40 (x :: (d.pushRoom s).2.reverse)).1.setWear s
      { ((d.pushRoom s).1.fourPoint s 40 (x :: (d.pushRoom s).2.reverse)).1.wearOf s with
        residue := ((d.pushRoom s).1.fourPoint s 40 (x :: (d.pushRoom s).2.reverse)).2.reverse }).wr F.hmpLDepth
      (min 32 ((d.pushRoom s).1.fourPoint s 40 (x :: (d.pushRoom s).2.reverse)).2.length) s) := rfl
  rw [eq, Dev.wearOf_wr, Dev.wearOf_setWear]
  simp only [List.length_reverse, List.length_cons] at *
  omega

/-- What a temperature leads to once there is an extreme: left by more than the hysteresis it is pushed, else it is kept or replaced. -/
theorem Dev.wearSample_cases {s : Nat} {x e : Int} (tracked : (d.wearOf s).extreme = some e) :
    let hyst : Int := (d.rd F.hmpTwHyst * 4 : Nat)
    (hyst < (e - x).natAbs ∧ ∃ dir, d.wearSample s x = (d.pushReversal s e).startDir s x dir)
    ∨ d.wearSample s x = d.setWear s { d.wearOf s with extreme := some x } ∨ d.wearSample s x = d := by
  intro hyst
  unfold Dev.wearSample
  dsimp only
  rw [tracked]
  dsimp only
  split
  · rename_i falls
    simp only [Bool.and_eq_true, decide_eq_true_eq] at falls
    exact .inl ⟨by omega, 2, rfl⟩
  · split
    · rename_i rises
      simp only [Bool.and_eq_true, decide_eq_true_eq] at rises
      exact .inl ⟨by omega, 1, rfl⟩
    · split
      · exact .inr (.inl rfl)
      · exact .inr (.inr rfl)

theorem Dev.wearSample_first {s : Nat} (x : Int) (none_ : (d.wearOf s).extreme = none) :
    d.wearSample s x = d.setWear s { d.wearOf s with extreme := some x } := by
  unfold Dev.wearSample
  dsimp only
  rw [none_]

/-- A temperature that leaves the extreme by no more than the hysteresis pushes nothing. -/
theorem Dev.wearSample_near {s : Nat} {x e : Int} (tracked : (d.wearOf s).extreme = some e)
    (near : ((e - x).natAbs : Int) ≤ (d.rd F.hmpTwHyst * 4 : Nat)) :
    ((d.wearSample s x).wearOf s).residue = (d.wearOf s).residue ∧ (d.wearSample s x).regs = d.regs := by
  obtain ⟨far, -⟩ | leads | leads := Dev.wearSample_cases (x := x) tracked
  · exact absurd near (Int.not_le.mpr far)
  · rw [leads, Dev.wearOf_setWear]
    exact ⟨rfl, rfl⟩
  · rw [leads]
    exact ⟨rfl, rfl⟩

theorem Dev.wearSample_shortens (s : Nat) (x : Int) (whole : (d.wearOf s).residue.length ≤ 32) :
    ((d.wearSample s x).wearOf s).residue.length ≤ 32 := by
  cases tracked : (d.wearOf s).extreme with
  | none =>
    rw [Dev.wearSample_first x tracked, Dev.wearOf_setWear]
    exact whole
  | some e =>
    obtain ⟨-, dir, leads⟩ | leads | leads := Dev.wearSample_cases (x := x) tracked
    · rw [leads, Dev.startDir, Dev.wearOf_setWear]
      exact d.pushReversal_shortens s e whole
    · rw [leads, Dev.wearOf_setWear]
      exact whole
    · rwa [leads]

end

/-- Settles O49: by what a checkpoint, its end and its retry lead to, by the two ways a restore ends, and by the depth of a push. -/
theorem ledgerIsKept : Obligations.LedgerIsKept := by
  unfold Obligations.LedgerIsKept
  refine ⟨fun s t => ?_, fun d s x => ⟨fun first => Dev.wearSample_first x first, fun e tracked near => Dev.wearSample_near tracked near,
    fun whole => Dev.wearSample_shortens s x whole⟩⟩
  intro d next hours start counting
  have now : s.dev.advance t = d := rfl
  clear_value d
  refine ⟨fun some_ due counts idle => ?due, fun never => ?never, fun sector bs copied => ?done, fun sector at_ waits counts idle => ?retry,
    fun restores => ?restore⟩
  case due =>
    rw [exec_tallowCheckpointDue]
    refine event_at now ((if_pos (by simpa [hours] using And.intro some_ due)).trans ?_)
    exact Dev.startCheckpoint_counting _ (by simpa only [counting, Dev.rd] using counts) (by simpa only [Dev.on, Dev.rd] using idle)
  case never =>
    rw [exec_tallowCheckpointDue]
    exact event_at now (if_neg (by simpa [hours] using fun h => absurd never h))
  case done =>
    intro e
    rw [exec_tallowCheckpointDone, exec_tallowCheckpointDone]
    exact ⟨event_at now (Dev.checkpointDone_copied copied true), event_at now (Dev.checkpointDone_copied copied false)⟩
  case retry =>
    rw [exec_tallowCheckpointRetry]
    refine ⟨fun due => event_at now ?_, fun early => event_at now ?_⟩ <;> rw [waits] <;> dsimp only
    · rw [if_pos due]
      exact Dev.startCheckpoint_counting _ counts idle
    · exact if_neg (Nat.not_le.mpr early)
  case restore =>
    have leads (sector : Option (Fin 16)) (bs : Bytes) :
        exec (.ledgerRestoreDone t sector bs) s = next (d.restoreLedger (sector.map fun x => (x.val, bs))) := by
      rw [exec_ledgerRestoreDone]
      exact event_at now (if_pos restores)
    obtain ⟨shown, state, wear⟩ := d.fromZero_restoring
    refine ⟨⟨_, leads none [], shown, state, wear⟩, fun sector bs invalid => ⟨_, leads (some sector) bs, ?_⟩,
      fun sector bs valid => ⟨_, leads (some sector) bs, Dev.restoreLedger_shows valid sector.isLt⟩⟩
    rw [Option.map_some, Dev.restoreLedger_invalid invalid]
    exact ⟨shown, wear⟩

end Sys2Proof.Machine
end

section
/-!
PROOFS. The family 16_fault_collection: the classifier cycle, the outcome of a raise and its event (R402, R403, R405, R411 to R413).
-/
namespace Sys2Proof.Machine

/-! ## A class that is raised (R405) -/

section
variable (d : Dev) (c : Nat) (rs : List Raise)

/-- The sources of a class that its raises name. -/
def raisedMask (rs : List Raise) : Nat := sourceMask fun s => rs.any fun r => r.src == s

/-- The class words once a class is raised: its mask, its level and its counts. -/
def Dev.classRaised (d : Dev) (c mask level : Nat) (escal : Bool) : Dev :=
  let set := d.on F.fltSet c
  let old := tget (fun _ => (0, 0)) d.coll.lastEv c
  let recent := if old.1 / 200 = d.now / 200 then old.2 ||| mask else mask
  let d := { d with coll := { d.coll with lastEv := tset (fun _ => (0, 0)) d.coll.lastEv c (d.now, recent) } }
  let d := d.setClassMask c (if set then d.classMask c ||| mask else mask)
  let d := (((d.wr F.fltSet 1 c).wr F.fltLevel level c).wr F.fltAcked 0 c).bump F.fltRaises c
  if escal then d.bump F.fltEscalations c else d

/-- The event of a class (R412). -/
def Dev.classEvent (d : Dev) (c : Nat) (rs : List Raise) (v : Nat × Bool × Bool) : EvRec :=
  let mask := raisedMask rs
  let grouped := decide (1 < ((List.range 128).filter mask.testBit).length)
  { source := 0x80 + c, cls := c, level := v.1, flags := flag v.2.1 + 2 * flag v.2.2 + 4 * flag grouped
    seq := (d.rd F.fltHistSeq + 1) % 2 ^ 32, at_ := d.now, mask := mask, data := (rs.head?.map (·.data)).getD 0 }

/-- Engines that class 13 names and that had not failed yet. -/
def Dev.noteEngines (d : Dev) (c : Nat) (rs : List Raise) : Dev :=
  if c = 13 then
    let lost := ((rs.map (·.src)).filter fun s => !(d.causeActive 13 s)).eraseDups
    { d with engines := { d.engines with failing := d.engines.failing ++ lost.map fun s => (s, false) } }
  else d

/-- The raises of the classifier for an event: its own, and 0xA1 for an escalation. -/
def Dev.announce (d : Dev) (e : EvRec) (escal : Bool) : Dev := if escal then (d.raiseRec e).raise 0xA1 else d.raiseRec e

theorem Dev.faultEvent_eq : d.faultEvent c rs =
    let v := raiseLevel (d.on F.fltSet c) (d.on F.fltAcked c) (d.rd F.fltLevel c) (d.rd F.fltBase c) (d.rd F.fltCeil c)
    let m := d.classRaised c (raisedMask rs) v.1 v.2.1
    let e := m.classEvent c rs v
    (((((m.writeHistory e).showFaults).noteEngines c rs).announce e v.2.1).levelActs v.1).showSafeOut := rfl

end

/-! ## Masks of sources -/

/-- Bits set one after another below n. -/
theorem testBit_foldl_two_pow (p : Nat → Bool) (n : Nat) :
    let m := ((List.range n).filter p).foldl (fun m s => m + 2 ^ s) 0
    m < 2 ^ n ∧ ∀ k, m.testBit k = (decide (k < n) && p k) := by
  induction n with
  | zero => exact ⟨Nat.two_pow_pos 0, fun k => by simp⟩
  | succ n ih =>
    obtain ⟨small, bits⟩ := ih
    simp only [List.range_succ, List.filter_append, List.foldl_append]
    generalize ((List.range n).filter p).foldl (fun m s => m + 2 ^ s) 0 = m at small bits
    have wide : 2 ^ (n + 1) = 2 ^ n + 2 ^ n := by omega
    cases top : p n with
    | false =>
      refine ⟨by simp [top]; omega, fun k => ?_⟩
      simp only [List.filter_cons, top, Bool.false_eq_true, if_false, List.filter_nil, List.foldl_nil, bits]
      by_cases same : k = n
      · simp [same, top]
      · have : k < n ↔ k < n + 1 := by omega
        simp [this]
    | true =>
      refine ⟨by simp [top]; omega, fun k => ?_⟩
      simp only [List.filter_cons, top, if_true, List.filter_nil, List.foldl_cons, List.foldl_nil]
      rw [Nat.add_comm]
      by_cases same : k = n
      · rw [same, Nat.testBit_two_pow_add_eq, bits]
        simp [top]
      · by_cases below : k < n
        · rw [Nat.testBit_two_pow_add_gt below, bits]
          simp [below, Nat.lt_succ_of_lt below]
        · have above : 2 ^ n + m < 2 ^ k := Nat.lt_of_lt_of_le (by omega) (Nat.pow_le_pow_right (by decide) (by omega : n + 1 ≤ k))
          rw [Nat.testBit_lt_two_pow above]
          have : ¬ k < n + 1 := by omega
          simp [this]

/-- The mask of raises names the sources raised. -/
theorem testBit_raisedMask (rs : List Raise) {k : Nat} (below : k < 128) :
    (raisedMask rs).testBit k = true ↔ ∃ y ∈ rs, y.src = k := by
  rw [raisedMask, sourceMask, (testBit_foldl_two_pow _ 128).2 k]
  simp [below]

/-! ## What an event of a class leads to -/

section
variable {c : Nat}

theorem classWord_object (below : c < 32) (f : Fld) (one : f.soN = 1) (so : f.so = 0x0F00) (word : f.word = 0) (stride : f.stride = 1) :
    f.key c / 65536 = 0x0F00 := by
  simp only [Fld.key, Fld.soAt, Fld.wordAt, one, if_true, so, word, stride, wordKey]
  omega

/-- FLT.MASK of a class written leaves every other object alone. -/
theorem Dev.rd_setClassMask (d : Dev) (below : c < 32) (m : Nat) {g : Fld} {j : Nat} (other : g.key j / 65536 ≠ 0x0F01) :
    (d.setClassMask c m).rd g j = d.rd g j := by
  refine Dev.rd_foldl _ _ _ _ _ fun e i listed => Dev.rd_wr_object _ _ fun same => other (same.trans ?_)
  have few : i < 4 := List.mem_range.mp listed
  show (0x0F01 * 65536 + (0 + 1 * (4 * c + i))) / 65536 = 0x0F01
  omega

theorem Dev.frame_setClassMask (d : Dev) (m : Nat) : (d.setClassMask c m).coll = d.coll ∧ (d.setClassMask c m).clock = d.clock :=
  ⟨foldl_keeps (·.coll) _ _ _ fun e i => by simp only [Dev.wr_frame], foldl_keeps (·.clock) _ _ _ fun e i => by simp only [Dev.wr_frame]⟩

theorem Dev.frame_bump (d : Dev) (f : Fld) (i : Nat) : (d.bump f i).coll = d.coll ∧ (d.bump f i).clock = d.clock := by
  obtain same | more := d.bump_cases f i
  · rw [same]
    exact ⟨rfl, rfl⟩
  · rw [more]
    simp only [Dev.wr_frame, and_self]

theorem Dev.frame_classRaised (d : Dev) (mask level : Nat) (escal : Bool) :
    (d.classRaised c mask level escal).coll.history = d.coll.history ∧ (d.classRaised c mask level escal).now = d.now := by
  unfold Dev.classRaised
  extract_lets set old recent src noted masked raised
  have kept : raised.coll.history = d.coll.history ∧ raised.clock = d.clock := by
    simp only [raised, Dev.frame_bump, Dev.wr_frame, masked, Dev.frame_setClassMask, noted, src, and_self]
  cases escal
  · exact ⟨kept.1, congrArg (·.now) kept.2⟩
  · obtain ⟨coll, clock⟩ := raised.frame_bump F.fltEscalations c
    exact ⟨(congrArg (·.history) coll).trans kept.1, (congrArg (·.now) clock).trans (congrArg (·.now) kept.2)⟩

/-- A field of a class that a raise's own counts leave alone. -/
theorem Dev.rd_bump_class (d : Dev) (below : c < 32) (f g : Fld) (hf : f.ok = true) (hg : g.ok = true)
    (apart : ((List.range 32).all fun i => f.apart i g i) = true) : (d.bump f c).rd g c = d.rd g c :=
  Dev.rd_bump_apart _ _ _ _ _ hf hg (List.all_eq_true.mp apart c (List.mem_range.mpr below))

/-- The words of a class once it is raised (R405). -/
theorem Dev.rd_classRaised (d : Dev) (below : c < 32) (mask : Nat) {level : Nat} (escal : Bool) (low : level ≤ 7) :
    (d.classRaised c mask level escal).rd F.fltSet c = 1 ∧ (d.classRaised c mask level escal).rd F.fltLevel c = level
    ∧ (d.classRaised c mask level escal).rd F.fltAcked c = 0 := by
  unfold Dev.classRaised
  extract_lets set old recent src noted masked raised
  have shown : raised.rd F.fltSet c = 1 ∧ raised.rd F.fltLevel c = level ∧ raised.rd F.fltAcked c = 0 := by
    have size : F.fltLevel.size = 8 := by decide
    simp (disch := decide) only [raised, Dev.rd_bump_class _ below, Dev.rd_wr_channel below, Dev.rd_wr_same, size]
    exact ⟨by decide, Nat.mod_eq_of_lt (by omega), by decide⟩
  cases escal
  · exact shown
  · simpa (disch := decide) only [if_true, Dev.rd_bump_class _ below] using shown

theorem Dev.rd_classRaised_object (d : Dev) (below : c < 32) (mask level : Nat) (escal : Bool) {g : Fld} {j : Nat}
    (notWords : g.key j / 65536 ≠ 0x0F00) (notMasks : g.key j / 65536 ≠ 0x0F01) :
    (d.classRaised c mask level escal).rd g j = d.rd g j := by
  unfold Dev.classRaised
  extract_lets set old recent src noted masked raised
  have other (f : Fld) (one : f.soN = 1) (so : f.so = 0x0F00) (word : f.word = 0) (stride : f.stride = 1) :
      g.key j / 65536 ≠ f.key c / 65536 := fun same =>
    notWords (same.trans (classWord_object below f one so word stride))
  have kept : raised.rd g j = d.rd g j := by
    refine (Dev.rd_bump_object _ (other F.fltRaises rfl rfl rfl rfl)).trans ((Dev.rd_wr_object _ _ (other F.fltAcked rfl rfl rfl rfl)).trans
      ((Dev.rd_wr_object _ _ (other F.fltLevel rfl rfl rfl rfl)).trans ((Dev.rd_wr_object _ _ (other F.fltSet rfl rfl rfl rfl)).trans
        ((Dev.rd_setClassMask _ below _ notMasks).trans ?_))))
    simp only [noted, Dev.rd]
  cases escal
  · exact kept
  · exact (Dev.rd_bump_object _ (other F.fltEscalations rfl rfl rfl rfl)).trans kept

/-- Showing the faults and noting engines change what a raise may change, and engines. -/
theorem Dev.near_showFaults (d : Dev) : d.Near d.showFaults :=
  (Dev.near_wr d _ _ _ (by decide)).trans ((Dev.near_wr _ _ _ _ (by decide)).trans (Dev.near_wr _ _ _ _ (by decide)))

theorem Dev.noteEngines_keeps (d : Dev) (rs : List Raise) :
    (∀ f i, (d.noteEngines c rs).rd f i = d.rd f i) ∧ (d.noteEngines c rs).coll = d.coll := by
  unfold Dev.noteEngines
  split
  · exact ⟨fun f i => by simp only [Dev.rd], rfl⟩
  · exact ⟨fun _ _ => rfl, rfl⟩

theorem Dev.near_announce (d : Dev) (e : EvRec) (escal : Bool) (listed : e.source < 256) : d.Near (d.announce e escal) := by
  unfold Dev.announce
  have own := d.near_raiseRec e listed
  split
  · exact own.trans (Dev.near_raise _ _ _ (by decide))
  · exact own

/-- What the history, the pins and the raises of an event leave of the words of the classes and of the history. -/
theorem Dev.announced_keeps (m : Dev) (e : EvRec) (rs : List Raise) (escal : Bool) (listed : e.source < 256) :
    let w := (((m.writeHistory e).showFaults).noteEngines c rs).announce e escal
    (∀ f i, f.quiet i = true → w.rd f i = m.rd f i) ∧ w.coll.history = (e :: m.coll.history).take 32 := by
  intro w
  have near := (((m.writeHistory e).showFaults).noteEngines c rs).near_announce e escal listed
  obtain ⟨noted, coll⟩ := (m.writeHistory e).showFaults.noteEngines_keeps (c := c) rs
  have shown := (m.writeHistory e).near_showFaults
  have written (f : Fld) (i : Nat) (quiet : f.quiet i = true) : (m.writeHistory e).rd f i = m.rd f i := by
    refine ((Dev.near_wr _ _ _ _ (by decide)).rd f i quiet).trans (((Dev.near_wr _ _ _ _ (by decide)).rd f i quiet).trans ?_)
    simp only [Dev.rd]
  refine ⟨fun f i quiet => (near.rd f i quiet).trans ((noted f i).trans ((shown.rd f i quiet).trans (written f i quiet))), ?_⟩
  have raised : w.coll.history = _ := congrArg (·.coll.history) near.core
  refine raised.trans ((congrArg (·.history) coll).trans ((congrArg (·.coll.history) shown.core).trans ?_))
  simp only [Dev.core, Dev.writeHistory, Dev.wr_frame]

/-- In HELD a level up to Dark's threshold changes no mode. -/
theorem Dev.levelActs_held {d : Dev} (held : d.mode = .held) {level : Nat} (low : level ≤ 3) : d.levelActs level = d := by
  unfold Dev.levelActs
  rw [if_neg (by omega)]
  split
  · simp [Dev.goDark, held, Mode.switching]
  · rfl

/-- What an event leads to in HELD: the class at its level, the event the newest of the history. -/
theorem Dev.faultEvent_held (d : Dev) (rs : List Raise) (below : c < 32) (held : d.mode = .held) :
    let v := raiseLevel (d.on F.fltSet c) (d.on F.fltAcked c) (d.rd F.fltLevel c) (d.rd F.fltBase c) (d.rd F.fltCeil c)
    let e := d.faultEvent c rs
    v.1 ≤ 3 → e.rd F.fltSet c = 1 ∧ e.rd F.fltLevel c = v.1 ∧ e.rd F.fltAcked c = 0
      ∧ e.coll.history = d.classEvent c rs v :: d.coll.history.take 31 := by
  intro v e low
  obtain ⟨set, level, acked⟩ := d.rd_classRaised below (raisedMask rs) v.2.1 (Nat.le_trans low (by decide))
  obtain ⟨history, instant⟩ := d.frame_classRaised (c := c) (raisedMask rs) v.1 v.2.1
  have seq := d.rd_classRaised_object below (raisedMask rs) v.1 v.2.1 (g := F.fltHistSeq) (j := 0) (by decide) (by decide)
  have mode := d.rd_classRaised_object below (raisedMask rs) v.1 v.2.1 (g := F.sysMode) (j := 0) (by decide) (by decide)
  have leads : e = _ := d.faultEvent_eq c rs
  dsimp only at leads
  change e = ((((((d.classRaised c (raisedMask rs) v.1 v.2.1).writeHistory _).showFaults).noteEngines c rs).announce _ v.2.1).levelActs
    v.1).showSafeOut at leads
  have event : (d.classRaised c (raisedMask rs) v.1 v.2.1).classEvent c rs v = d.classEvent c rs v := by
    simp only [Dev.classEvent, seq, instant]
  rw [event] at leads
  generalize d.classRaised c (raisedMask rs) v.1 v.2.1 = m at *
  obtain ⟨kept, newest⟩ := m.announced_keeps (c := c) (d.classEvent c rs v) rs v.2.1 (by show 0x80 + c < 256; omega)
  generalize (((m.writeHistory (d.classEvent c rs v)).showFaults).noteEngines c rs).announce (d.classEvent c rs v) v.2.1 = w at *
  have still : w.mode = .held := by
    rw [← held, Dev.mode, kept _ _ (by decide), mode]
    rfl
  rw [leads, Dev.levelActs_held still low]
  have quiet (f : Fld) (all : ((List.range 32).all fun i => f.quiet i) = true) (apart : (List.range 32).all (fun i =>
      F.safeOutLow.apart 0 f i) = true) (ok : f.ok = true) : w.showSafeOut.rd f c = m.rd f c :=
    (Dev.rd_wr_apart _ _ _ _ _ _ (by decide) ok (List.all_eq_true.mp apart c (List.mem_range.mpr below))).trans
      (kept f c (List.all_eq_true.mp all c (List.mem_range.mpr below)))
  refine ⟨(quiet _ (by decide) (by decide) (by decide)).trans set, (quiet _ (by decide) (by decide) (by decide)).trans level,
    (quiet _ (by decide) (by decide) (by decide)).trans acked, ?_⟩
  rw [Dev.showSafeOut]
  simp only [Dev.wr_frame, newest, history]
  rfl

end

/-! ## The classifier cycle (R402, R403, R411) -/

theorem raiseLevel_eq (set acked : Bool) (level base ceil : Nat) : raiseLevel set acked level base ceil =
    if set = false then (base, false, false)
    else if acked = true then (level, false, false)
    else if level < ceil then (level + 1, true, false) else (level, false, true) := by
  cases set <;> rfl

/-- An error of the SRAM raises its event source, and no class unless a word was lost. -/
theorem Dev.raises_sram (d : Dev) (bank : Nat) :
    (d.sramUncorrectable bank).coll.raises = d.coll.raises ++ [{ cls := 30, src := 16 + bank }]
    ∧ (d.sramCorrected bank).coll.raises = d.coll.raises := by
  refine ⟨congrArg (·.coll.raises) (Dev.near_raise (d.fault 30 (16 + bank)) 0xA9 0 (by decide)).core,
    (congrArg (·.coll.raises) (Dev.near_raise _ 0xA8 0 (by decide)).core).trans ?_⟩
  show (((d.noteCorrected 1).bump F.memSCorr).bump F.memBCorr bank).coll.raises = d.coll.raises
  rw [(Dev.frame_bump _ _ _).1, (Dev.frame_bump _ _ _).1]
  rfl

/-- Settles O29: by the classifier cycle as it stands, and by what an event leads to in HELD. -/
theorem raisesBecomeEvents : Obligations.RaisesBecomeEvents := by
  unfold Obligations.RaisesBecomeEvents
  refine ⟨?cycle, ?extra, raiseLevel_eq, ?event⟩
  case cycle =>
    intro s t extra waiting event made
    rw [exec_faultClassify]
    refine event_at rfl ?_
    have one : event = fun d c =>
        if (waiting.coll.raises.filter fun r => r.cls == c).isEmpty then d
        else d.faultEvent c (waiting.coll.raises.filter fun r => r.cls == c) := by
      funext d c
      simp only [event, List.isEmpty_iff]
    unfold made
    rw [one]
    rfl
  case extra =>
    intro d
    refine ⟨fun e idle => ?_, fun code packet => ?_, fun b => (d.raises_sram b).1, fun b => (d.raises_sram b).2⟩
    · exact congrArg (·.coll.raises) (if_neg (Bool.eq_false_iff.mp idle) : d.extraRaise (.engineFailed e) = d.fault 13 e)
    · cases packet <;> exact ⟨rfl, rfl⟩
  case event =>
    intro d c r rs below held v e low
    obtain ⟨set, level, acked, newest⟩ := d.faultEvent_held (r :: rs) below held low
    exact ⟨by rw [Dev.on, set]; rfl, level, acked, _, _, newest, rfl, rfl, rfl, rfl, rfl, rfl, rfl,
      fun k inside => testBit_raisedMask (r :: rs) inside⟩

end Sys2Proof.Machine
end

section
/-!
PROOFS. The family 18_memory: MEM_READ, MEM_WRITE and ECC_TEST_WRITE (R449, R456 to R462), and the reply of a read of DRAM bytes.
-/
namespace Sys2Proof.Machine

/-! ## A read of DRAM bytes (R456 to R459) -/

/-- Status and data of the reply to a read of a page's bytes. -/
def PageRead.answer (r : PageRead) (o n reason : Nat) : Nat × Bytes :=
  match r with
  | .unwritten => (stOk, pageBytes 2 (zeros 1024) o n)
  | .clean data => (stOk, pageBytes 0 data o n)
  | .corrected data _ => (stOk, pageBytes 1 data o n)
  | .bad _ => (stMemoryError, refusalData 0xFFFF 0 0xFF reason)

theorem Dev.dramReply_eq (d : Dev) (page o n reason : Nat) : d.dramReply page o n reason =
    .reply ((d.readPage page).1.answer o n reason).1 ((d.readPage page).1.answer o n reason).2 (d.readPage page).2 := by
  unfold Dev.dramReply
  generalize d.readPage page = r
  obtain ⟨read, e⟩ := r
  cases read <;> rfl

theorem pageBytes_length_le (status : Nat) (data : Bytes) (o n : Nat) : (pageBytes status data o n).length ≤ 4 + n := by
  rw [pageBytes, List.length_append, le_length]
  exact Nat.add_le_add_left (List.length_take_le _ _) 4

theorem PageRead.answer_fits (r : PageRead) {o n : Nat} (reason : Nat) (short : n ≤ 1024) : (r.answer o n reason).2.length ≤ 1456 := by
  have bytes (status : Nat) (data : Bytes) : (pageBytes status data o n).length ≤ 1456 :=
    Nat.le_trans (pageBytes_length_le status data o n) (by omega)
  cases r with
  | unwritten => exact bytes 2 _
  | clean data => exact bytes 0 data
  | corrected data bits => exact bytes 1 data
  | bad tag => exact Nat.le_trans (Nat.le_of_eq (refusalData_length _ _ _ _)) (by decide)

/-! ## MEM_READ (R449, R452, R459) -/

section
variable {d : Dev}

theorem refuseIf_none {bad : Bool} {status reason : Nat} (none_ : refuseIf bad status reason d = none) : bad = false := by
  cases bad with
  | false => rfl
  | true => cases none_

/-- A range that nothing refuses lies in one page (R452). -/
theorem Dev.memRefusals_inside {a n : Nat} (free : passes (d.memRefusals a n)) : memOffset a % 1024 + n ≤ 1024 := by
  have inside := refuseIf_none (free _ (List.mem_cons_of_mem _ (List.mem_cons_of_mem _ List.mem_cons_self)))
  simp only [Bool.or_eq_false_iff, decide_eq_false_iff_not] at inside
  omega

theorem hMemRead_window {c : Ctx} {address : BitVec 64} {length : BitVec 16}
    (free : passes (d.memRefusals address.toNat length.toNat)) (sram : sramAddr address.toNat = true) :
    let w := d.readWindowRange (memOffset address.toNat) length.toNat
    hMemRead address length c d = .reply stOk (le 4 (flag w.2.1) ++ w.1) w.2.2 :=
  (orRefuse_passes _ _ free).trans (if_pos sram)

theorem hMemRead_page {c : Ctx} {address : BitVec 64} {length : BitVec 16}
    (free : passes (d.memRefusals address.toNat length.toNat)) (dram : sramAddr address.toNat = false) :
    hMemRead address length c d =
      d.dramReply (memOffset address.toNat / 1024) (memOffset address.toNat) length.toNat 0 :=
  (orRefuse_passes _ _ free).trans (if_neg (Bool.eq_false_iff.mp dram))

theorem Dev.readWindowRange_length_le (d : Dev) (offset n : Nat) : (d.readWindowRange offset n).1.length ≤ n := List.length_take_le _ _

/-! ## MEM_WRITE (R449, R457, R459) -/

theorem hMemWrite_window {c : Ctx} {address : BitVec 64} {bytes : Bytes}
    (free : passes (d.memRefusals address.toNat bytes.length)) (service : d.mode = .service) (sram : sramAddr address.toNat = true) :
    hMemWrite address bytes c d = .reply stOk [] (d.writeWindowRange (memOffset address.toNat) bytes) := by
  refine (orRefuse_passes _ _ (passes_append free (passes_refuseIf (by simp [service]) (passes_refuseIf (by simp [sram])
    (passes_refuseIf (by simp [sram]) passes_nil))))).trans (if_pos sram)

/-- A page that MEM_WRITE may write: neither a queue's nor Lantern's (R459). -/
theorem hMemWrite_page {c : Ctx} {address : BitVec 64} {bytes : Bytes}
    (free : passes (d.memRefusals address.toNat bytes.length)) (service : d.mode = .service) (dram : sramAddr address.toNat = false)
    (noQueue : d.chunksHeld.contains (memOffset address.toNat / 1024 / 1024) = false)
    (noLantern : d.inLantern (memOffset address.toNat / 1024) = false) :
    let page := memOffset address.toNat / 1024
    hMemWrite address bytes c d =
      if bytes.length = 1024 then .reply stOk [] ((d.clearPoison page).writePage page 0 bytes)
      else d.partialWrite page (memOffset address.toNat) bytes := by
  refine (orRefuse_passes _ _ (passes_append free (passes_refuseIf (by simp [service]) (passes_refuseIf ?_ (passes_refuseIf ?_
    passes_nil))))).trans (if_neg (Bool.eq_false_iff.mp dram))
  · rw [noQueue, Bool.and_false]
  · rw [noLantern, Bool.and_false]

/-- Status, data and state of a write of part of a page (R457). -/
def Dev.partialAnswer (d : Dev) (page o : Nat) (bytes : Bytes) : Nat × Bytes × Dev :=
  let merged (old : Bytes) : Bytes := old.take (o % 1024) ++ bytes ++ old.drop (o % 1024 + bytes.length)
  match d.peekPage page with
  | .unwritten => (stOk, [], d.writePage page 0 (merged (zeros 1024)))
  | .clean data => (stOk, [], d.writePage page 0 (merged data))
  | .corrected data bits => (stOk, [], (d.dramCorrected bits).writePage page 0 (merged data))
  | .bad tag => (stMemoryError, refusalData 0xFFFF 0 0xFF 0x83, ((d.dramPoison page tag).bump F.memPartialRefused).raise 0xAC)

theorem Dev.partialWrite_eq (d : Dev) (page o : Nat) (bytes : Bytes) : d.partialWrite page o bytes =
    .reply (d.partialAnswer page o bytes).1 (d.partialAnswer page o bytes).2.1 (d.partialAnswer page o bytes).2.2 := by
  unfold Dev.partialWrite Dev.partialAnswer
  cases d.peekPage page <;> rfl

theorem Dev.partialAnswer_fits (d : Dev) (page o : Nat) (bytes : Bytes) : (d.partialAnswer page o bytes).2.1.length ≤ 1456 := by
  unfold Dev.partialAnswer
  cases d.peekPage page with
  | bad tag => exact Nat.le_trans (Nat.le_of_eq (refusalData_length _ _ _ _)) (by decide)
  | _ => exact Nat.zero_le _

/-! ## ECC_TEST_WRITE (R462) -/

/-- The locations that a test writes: words of the window or one page. -/
def testLocations (a n : Nat) : List Nat :=
  if sramAddr a then (List.range (n / 8)).map fun i => sramTest (a % 2 ^ 62 / 8 + i) else [a % 2 ^ 62 / 1024]

/-- The room for the locations of a test: at most 64 are recorded (R462). -/
def Dev.testRoom (d : Dev) (ks : List Nat) : Prop := (d.mem.tests ++ ks.filter fun k => !d.mem.tests.contains k).length ≤ 64

theorem hEccTestWrite_window {c : Ctx} {address checkBits : BitVec 64} {bytes : Bytes} (service : d.mode = .service)
    (room : d.testRoom (testLocations address.toNat bytes.length)) (sram : sramAddr address.toNat = true) (some_ : 0 < bytes.length)
    (few : bytes.length ≤ 64) (whole : bytes.length % 8 = 0) (aligned : address.toNat % 2 ^ 62 % 8 = 0)
    (inside : address.toNat % 2 ^ 62 + bytes.length ≤ 4096) (half : address.toNat.testBit 62 = true ∨ checkBits = 0) :
    let checks := address.toNat.testBit 62
    hEccTestWrite address checkBits bytes c d = .reply stOk []
      (((List.range (bytes.length / 8)).foldl (fun d i => d.testWord (address.toNat % 2 ^ 62 / 8 + i)
          (if checks then none else some (BitVec.ofNat 64 (leAt bytes (8 * i) 8)))
          (if checks then some (BitVec.ofNat 8 (checkBits.toNat / 256 ^ i)) else none)) d).recordTests
        (testLocations address.toNat bytes.length)) := by
  have words (i : Nat) (e : Dev) :
      (if address.toNat.testBit 62 then e.testWord (address.toNat % 2 ^ 62 / 8 + i) none (some (BitVec.ofNat 8 (checkBits.toNat / 256 ^ i)))
        else e.testWord (address.toNat % 2 ^ 62 / 8 + i) (some (BitVec.ofNat 64 (leAt bytes (8 * i) 8))) none) =
      e.testWord (address.toNat % 2 ^ 62 / 8 + i) (if address.toNat.testBit 62 then none else some (BitVec.ofNat 64 (leAt bytes (8 * i) 8)))
        (if address.toNat.testBit 62 then some (BitVec.ofNat 8 (checkBits.toNat / 256 ^ i)) else none) := by
    cases address.toNat.testBit 62 <;> rfl
  intro checks
  unfold hEccTestWrite testLocations Dev.testRoom at *
  dsimp only
  simp only [sram, if_true] at *
  refine (orRefuse_passes _ _ (passes_refuseIf ?length (passes_refuseIf (by simp) (passes_refuseIf ?aligned (passes_refuseIf ?inside
    (passes_refuseIf (by simp [service]) (passes_refuseIf (by simpa using room) passes_nil))))))).trans ?_
  case length =>
    have notEmpty : bytes.length ≠ 0 := by omega
    simp [notEmpty, whole, few]
  case aligned =>
    obtain named | zero := half
    · rw [aligned]
      simp [named]
    · rw [aligned]
      simp [zero]
  case inside => simpa using inside
  · simp only [okEmpty, words, checks]

theorem hEccTestWrite_page {c : Ctx} {address : BitVec 64} {bytes : Bytes} (service : d.mode = .service)
    (room : d.testRoom (testLocations address.toNat bytes.length)) (dram : sramAddr address.toNat = false) (hasDram : d.hasDram = true)
    (whole : bytes.length = if address.toNat.testBit 62 then 64 else 1024) (aligned : address.toNat % 2 ^ 62 % 1024 = 0)
    (inside : address.toNat % 2 ^ 62 + 1024 ≤ d.rd F.memDataPages * 1024) :
    let checks := address.toNat.testBit 62
    hEccTestWrite address 0 bytes c d = .reply stOk [] ((d.testPage (address.toNat % 2 ^ 62 / 1024)
      (if checks then none else some bytes) (if checks then some bytes else none)).recordTests (testLocations address.toNat bytes.length)) := by
  intro checks
  have half : (if checks then d.testPage (address.toNat % 2 ^ 62 / 1024) none (some bytes)
        else d.testPage (address.toNat % 2 ^ 62 / 1024) (some bytes) none) =
      d.testPage (address.toNat % 2 ^ 62 / 1024) (if checks then none else some bytes) (if checks then some bytes else none) := by
    cases checks <;> rfl
  unfold hEccTestWrite testLocations Dev.testRoom at *
  dsimp only
  simp only [dram, Bool.false_eq_true, if_false] at *
  refine (orRefuse_passes _ _ (passes_refuseIf ?length (passes_refuseIf (by simp [hasDram]) (passes_refuseIf (by rw [aligned]; simp)
    (passes_refuseIf (by simpa using inside) (passes_refuseIf (by simp [service]) (passes_refuseIf (by simpa using room) passes_nil))))))).trans ?_
  case length =>
    rw [whole]
    simp
  · exact congrArg (fun e : Dev => okEmpty (e.recordTests [address.toNat % 2 ^ 62 / 1024])) half

end

/-- Settles O16: by what each handler answers where nothing refuses, page by page as it reads. -/
theorem memoryOpcodesAct : Obligations.MemoryOpcodesAct := by
  unfold Obligations.MemoryOpcodesAct
  intro s t src h
  refine ⟨fun address length => ?read, fun address bytes => ?write, fun address checkBits bytes => ?test⟩
  case read =>
    intro p d o r part admitted free
    have inside := Dev.memRefusals_inside free
    refine ⟨fun sram => ?_, fun dram => ?_⟩ <;> rw [exec_memRead]
    · refine p.opcode_answers s (hMemRead address length) _ _ _ admitted (hMemRead_window free sram) (fits_of_le src ?_)
      have short := d.readWindowRange_length_le o length.toNat
      rw [List.length_append, le_length]
      omega
    · refine (p.opcode_answers s (hMemRead address length) _ _ _ admitted ((hMemRead_page free dram).trans (Dev.dramReply_eq _ _ _ _ _))
        (fits_of_le src (PageRead.answer_fits _ 0 (by omega)))).trans ?_
      show Host.Outcome.next (p.answered s r.2 (r.1.answer o length.toNat 0).1 (r.1.answer o length.toNat 0).2) = _
      cases r.1 <;> rfl
  case write =>
    intro p d o page merged admitted free service
    refine ⟨fun sram => ?_, fun dram noQueue noLantern => ⟨fun whole => ?_, fun part => ?_⟩⟩ <;>
      rw [exec_memWrite, execMemWrite, opcodeLen_eq]
    · exact p.opcode_answers s (hMemWrite address bytes) _ _ _ admitted (hMemWrite_window free service sram) (Nat.zero_le _)
    · exact p.opcode_answers s (hMemWrite address bytes) _ _ _ admitted
        ((hMemWrite_page free service dram noQueue noLantern).trans (if_pos whole)) (Nat.zero_le _)
    · refine (p.opcode_answers s (hMemWrite address bytes) _ _ _ admitted ((hMemWrite_page free service dram noQueue noLantern).trans
        ((if_neg part).trans (Dev.partialWrite_eq _ _ _ _))) (fits_of_le src (Dev.partialAnswer_fits _ _ _ _))).trans ?_
      show Host.Outcome.next (p.answered s (d.partialAnswer page o bytes).2.2 (d.partialAnswer page o bytes).1
        (d.partialAnswer page o bytes).2.1) = _
      unfold Dev.partialAnswer
      cases d.peekPage page <;> rfl
  case test =>
    intro p d sram checks o n ks admitted service room
    refine ⟨fun window some_ few whole aligned inside half => ?_, fun dram hasDram whole zero aligned inside => ?_⟩ <;>
      rw [exec_eccTestWrite, execEccTestWrite, opcodeLen_eq]
    · exact p.opcode_answers s (hEccTestWrite address checkBits bytes) _ _ _ admitted
        (hEccTestWrite_window service room window some_ few whole aligned inside half) (Nat.zero_le _)
    · subst zero
      exact p.opcode_answers s (hEccTestWrite address 0 bytes) _ _ _ admitted
        (hEccTestWrite_page service room dram hasDram whole aligned inside) (Nat.zero_le _)

end Sys2Proof.Machine
end

section
/-!
PROOFS. The family 19_lantern, its opcodes and QUEUE_READ (R467, R486, R488, R492).
-/
namespace Sys2Proof.Machine

/-! ## ACQ_ARM and ACQ_STOP (R484, R492) -/

section
variable {d : Dev} (c : Ctx)

/-- The block once Lantern is armed. -/
def Dev.acqArmed (d : Dev) : Dev :=
  ((((({ d with acq := { d.acq with
      armed := true, firstAt := d.boundaryCeil (d.now + 1), lastAt := d.now, samples := 0, count := 0, primed := false
      latches := [], pre := [], half := 0, seg := none, written := [] } } : Dev).wr F.acqSegSeq 0).wr F.acqFilled 0).wr F.acqNextSeg 0).wr
    F.acqStage 0).wr F.acqState 1

theorem hAcqArm_arms (lantern : d.acqLevel ≠ 0) (channels : d.acqChannels ≠ []) (idle : d.acq.armed = false) :
    hAcqArm c d = .reply stAccepted [] d.acqArmed :=
  orRefuse_passes _ _ (passes_refuseIf (by simpa using lantern) (passes_refuseIf idle (passes_refuseIf (by simpa using channels) passes_nil)))

theorem Dev.acq_acqArmed (d : Dev) : d.acqArmed.acq.armed = true ∧ d.acqArmed.acq.firstAt = d.boundaryCeil (d.now + 1)
    ∧ d.acqArmed.acq.samples = 0 ∧ d.acqArmed.acq.written = [] := by
  simp only [Dev.acqArmed, Dev.wr_frame, and_self]

theorem Dev.rd_acqArmed (d : Dev) : d.acqArmed.rd F.acqState = 1 ∧ d.acqArmed.rd F.acqStage = 0 ∧ d.acqArmed.rd F.acqFilled = 0
    ∧ d.acqArmed.rd F.acqSegSeq = 0 := by
  simp (disch := decide) only [Dev.acqArmed, Dev.rd_wr_same, Dev.rd_wr_apart]
  decide

theorem Dev.rd_acqArmed_object (d : Dev) {f : Fld} {i : Nat} (other : f.key i / 65536 ≠ 0x1310) : d.acqArmed.rd f i = d.rd f i := by
  refine (Dev.rd_wr_object _ _ other).trans ((Dev.rd_wr_object _ _ other).trans ((Dev.rd_wr_object _ _ other).trans
    ((Dev.rd_wr_object _ _ other).trans ((Dev.rd_wr_object _ _ other).trans ?_))))
  simp only [Dev.rd]

theorem hAcqStop_stops (lantern : d.acqLevel ≠ 0) : hAcqStop c d = .reply stOk [] (d.acqStop 0) :=
  orRefuse_passes _ _ (passes_refuseIf (by simpa using lantern) passes_nil)

/-! ## ACQ_READ (R488) -/

/-- A segment that ACQ_READ may read: recorded, drained and not being recorded. -/
structure Dev.segReadable (d : Dev) (n : Nat) : Prop where
  lantern : d.acqLevel ≠ 0
  hasDram : d.hasDram = true
  stored : d.on F.acqStore = true
  written : d.acq.written.contains n = true
  drained : (d.acq.drain.any fun g => g.index == n) = false
  closed : ∀ g, d.acq.seg = some g → g.index ≠ n

theorem hAcqRead_reads {segment offset : Word} {length : BitVec 16} (r : d.segReadable segment.toNat) :
    let header := offset.getLsbD 31
    let o := if header then 0 else offset.toNat % 2 ^ 31
    let len := if header then 64 else length.toNat
    0 < len → (header = false → o % 1024 + len ≤ 1024 ∧ o + len ≤ 4 * d.acqChannels.length * d.acqLen) →
    hAcqRead segment offset length c d = d.dramReply
      (if header then d.segPage segment.toNat else d.segPage segment.toNat + 1 + o / 1024) o len 0xC3 := by
  intro header o len some_ inside
  obtain ⟨lantern, hasDram, stored, written, drained, closed⟩ := r
  refine (orRefuse_passes _ _ (passes_refuseIf (by simpa using lantern) (passes_refuseIf (by simp [hasDram]) (passes_refuseIf ?idle
    (passes_refuseIf (decide_eq_false (Nat.ne_of_gt some_)) (passes_refuseIf ?inside passes_nil)))))).trans ?_
  case idle =>
    rw [stored, written, drained]
    cases seg : d.acq.seg with
    | none => rfl
    | some g => simpa using closed g seg
  case inside =>
    cases named : offset.getLsbD 31 with
    | true => rfl
    | false =>
      simp only [header, o, len, named, Bool.false_eq_true, if_false, true_implies] at inside
      obtain ⟨page, size⟩ := inside
      simp only [Bool.false_eq_true, if_false, Bool.not_false, Bool.true_and, Bool.or_eq_false_iff, decide_eq_false_iff_not]
      exact ⟨Nat.not_lt.mpr page, Nat.not_lt.mpr size⟩
  · cases named : offset.getLsbD 31 <;> simp only [header, o, len, named, Bool.false_eq_true, if_false, if_true]

end

/-! ## QUEUE_READ (R467) -/

theorem Pkt.serve_answers (p : Pkt) (s : State) (h : Handler) {st : Nat} {data : Bytes} {e : Dev} (a : p.Admitted s)
    (answer : h (p.ctx s) (p.taken s) = .reply st data e) (fits : data.length ≤ replyLimit p.src) :
    s.dev.serve p.op p.t p.src p.hd p.payload p.need h = e.sendReply (p.ticket s) st data := by
  rw [p.serve_admitted s h a, answer]
  exact if_neg (Nat.not_lt.mpr fits)

theorem hQueueRead_takes {c : Ctx} {d : Dev} {queue : Byte} {maximum : BitVec 16} (known : queue.toNat < 64)
    (host : d.hostQueue queue.toNat = true) :
    let r := d.takeEntries (d.queue queue.toNat).fill queue.toNat (min maximum.toNat (replyLimit c.ticket.src / 64))
    hQueueRead queue maximum c d = .reply stOk r.1 r.2 :=
  orRefuse_passes _ _ (passes_refuseIf (decide_eq_false (by omega)) (passes_refuseIf (by simp [host]) passes_nil))

/-- Settles O17: by what each handler answers where its checks pass. -/
theorem lanternAndQueueOpcodesAct : Obligations.LanternAndQueueOpcodesAct := by
  unfold Obligations.LanternAndQueueOpcodesAct
  intro s t src h
  refine ⟨?arm, ?stop, fun segment offset length => ?read, fun queue maximum => ?queue⟩
  case arm =>
    intro p d admitted lantern channels idle
    obtain ⟨armed, first, samples, written⟩ := d.acq_acqArmed
    obtain ⟨state, stage, filled, seq⟩ := d.rd_acqArmed
    exact ⟨d.acqArmed, (exec_acqArm t src h s).trans (p.opcode_answers s hAcqArm _ _ _ admitted (hAcqArm_arms _ lantern channels idle)
      (Nat.zero_le _)), armed, first, samples, written, state, stage, filled, seq, fun f i other => d.rd_acqArmed_object other⟩
  case stop =>
    intro p admitted lantern
    exact (exec_acqStop t src h s).trans (p.opcode_answers s hAcqStop _ _ _ admitted (hAcqStop_stops _ lantern) (Nat.zero_le _))
  case read =>
    intro p d n header o len r part admitted lantern hasDram stored written drained closed some_ inside
    have reads := hAcqRead_reads (p.ctx s) ⟨lantern, hasDram, stored, written, drained, closed⟩ some_ inside
    have short : len ≤ 1024 := by
      cases named : header with
      | true => simp [len, named]
      | false =>
        obtain ⟨page, -⟩ := inside named
        omega
    rw [exec_acqRead]
    refine (p.opcode_answers s (hAcqRead segment offset length) _ _ _ admitted (reads.trans (Dev.dramReply_eq _ _ _ _ _))
      (fits_of_le src (PageRead.answer_fits _ 0xC3 short))).trans ?_
    show Host.Outcome.next (p.answered s r.2 (r.1.answer o len 0xC3).1 (r.1.answer o len 0xC3).2) = _
    cases r.1 <;> rfl
  case queue =>
    intro p d q r e admitted known host fits
    rw [exec_queueRead, execQueueRead, liftFuse_eq]
    have served : s.dev.serve 0xD1 t src h ([queue, 0] ++ le 2 maximum.toNat) {} (hQueueRead queue maximum) =
        r.2.sendReply (p.ticket s) stOk r.1 :=
      p.serve_answers s (hQueueRead queue maximum) admitted (hQueueRead_takes known host) fits
    rw [served]

end Sys2Proof.Machine
end

section
/-!
PROOFS. The family 19_lantern, its events (R479, R480, R484, R487, R491): what a sample counts, what a stage compares, what a drain
leaves in DRAM.
-/
namespace Sys2Proof.Machine

/-! ## The sample count and the clock -/

/-- The samples taken since the arm, and the clock. -/
def Dev.sampling (d : Dev) : Nat × Clock := (d.acq.samples, d.clock)

section
variable (d : Dev)

theorem Dev.sampling_ite {c : Prop} [Decidable c] {d a b : Dev} (yes : a.sampling = d.sampling) (no : b.sampling = d.sampling) :
    (if c then a else b).sampling = d.sampling := by
  split
  · exact yes
  · exact no

@[simp] theorem Dev.sampling_wr (f : Fld) (v i : Nat) : (d.wr f v i).sampling = d.sampling := by simp only [Dev.sampling, Dev.wr_frame]

@[simp] theorem Dev.sampling_bump (f : Fld) (i : Nat) : (d.bump f i).sampling = d.sampling := by
  obtain same | more := d.bump_cases f i
  · rw [same]
  · rw [more, Dev.sampling_wr]

@[simp] theorem Dev.sampling_bumpWrap (f : Fld) (i : Nat) : (d.bumpWrap f i).sampling = d.sampling := by
  rw [Dev.bumpWrap, Dev.sampling_wr]

@[simp] theorem Dev.sampling_setQueue (q : Nat) (x : Queue) : (d.setQueue q x).sampling = d.sampling := rfl
@[simp] theorem Dev.sampling_queueFrame (l : Nat) (x : TxItem) : (d.queueFrame l x).sampling = d.sampling := rfl

@[simp] theorem Dev.sampling_dramUsed : d.dramUsed.sampling = d.sampling := by
  rw [Dev.dramUsed, Dev.sampling_wr]
  rfl

@[simp] theorem Dev.sampling_writePage (p tag : Nat) (bytes : Bytes) : (d.writePage p tag bytes).sampling = d.sampling := by
  rw [Dev.writePage, Dev.sampling_wr]
  rfl

@[simp] theorem Dev.sampling_spill (q : Nat) : (d.spill q).sampling = d.sampling := by
  unfold Dev.spill
  dsimp only
  split
  · rfl
  · split
    · simp
    · split
      · simp
      · rfl

@[simp] theorem Dev.sampling_putEntry (q : Nat) (e : QEnt) : (d.putEntry q e).sampling = d.sampling := by
  unfold Dev.putEntry
  dsimp only
  split
  · rfl
  · split
    · rw [Dev.sampling_spill, Dev.sampling_setQueue]
    · rfl

@[simp] theorem Dev.sampling_putPacket (q : Nat) (p : Bytes) : (d.putPacket q p).sampling = d.sampling :=
  foldl_keeps Dev.sampling _ _ _ fun d e => d.sampling_putEntry q e

/-! ## Raises -/

theorem Dev.sampling_netSend (mac : Nat) (b : NetBody) : (d.netSend mac b).sampling = d.sampling := Dev.sampling_ite rfl rfl

theorem Dev.sampling_arpAsk (ip : Nat) : (d.arpAsk ip).sampling = d.sampling :=
  Dev.sampling_ite rfl (Dev.sampling_netSend _ _ _)

theorem Dev.sampling_takePacket {d e : Dev} {q : Nat} {p : Bytes} (taken : d.takePacket q = some (p, e)) : e.sampling = d.sampling := by
  unfold Dev.takePacket at taken
  dsimp only at taken
  split at taken
  · cases taken
  · cases taken
    rfl

theorem Dev.sampling_drainSession (fuel n : Nat) (d : Dev) : (Dev.drainSession fuel n d).sampling = d.sampling := by
  induction fuel generalizing d with
  | zero => rfl
  | succ fuel ih =>
    unfold Dev.drainSession
    dsimp only
    split
    · rfl
    · split
      · rename_i taken
        exact (ih _).trans ((Dev.sampling_netSend _ _ _).trans (Dev.sampling_takePacket taken))
      · exact Dev.sampling_arpAsk _ _
      · rfl

theorem Dev.sampling_acqLatch (at_ : Nat) (hit : Nat → Option Nat) : (d.acqLatch at_ hit).sampling = d.sampling :=
  Dev.sampling_ite rfl rfl

theorem Dev.sampling_commitInput : d.commitInput.sampling = d.sampling := by
  refine Dev.sampling_ite ?_ rfl
  rw [Dev.sampling_wr]
  unfold Dev.arm Dev.wr64
  simp only [Dev.sampling_wr]
  rfl

theorem Dev.sampling_raiseBase (e : EvRec) : (d.raiseBase e).sampling = d.sampling := by
  unfold Dev.raiseBase
  extract_lets s noted pending latched up item twin
  have latch : latched.sampling = d.sampling := (Dev.sampling_acqLatch _ _ _).trans ((Dev.sampling_wr _ _ _ _).trans rfl)
  have sent : up.sampling = d.sampling := Dev.sampling_ite latch latch
  have shared : twin.sampling = d.sampling := Dev.sampling_ite sent sent
  exact Dev.sampling_ite ((Dev.sampling_commitInput _).trans shared) shared

theorem Dev.sampling_notice (s : Nat) (e : EvRec) : (d.notice s e).sampling = d.sampling := by
  unfold Dev.notice
  extract_lets host q limit p queued
  have put : queued.sampling = d.sampling := Dev.sampling_putPacket _ _ _
  refine Dev.sampling_ite (Dev.sampling_ite ((Dev.sampling_raiseBase _ _).trans put) (Dev.sampling_ite ?_ put)) (Dev.sampling_bump _ _ _)
  exact (Dev.sampling_drainSession _ _ _).trans put

@[simp] theorem Dev.sampling_raise (source x : Nat) : (d.raise source x).sampling = d.sampling :=
  (foldl_keeps Dev.sampling _ _ _ fun d s => d.sampling_notice s _).trans (d.sampling_raiseBase _)

/-! ## Histograms, segments and stages (R480 to R490) -/

@[simp] theorem Dev.sampling_countBin (unit key top source : Nat) : (d.countBin unit key top source).sampling = d.sampling := by
  unfold Dev.countBin
  dsimp only
  split
  · rfl
  · split
    · rw [Dev.sampling_raise]
      rfl
    · rfl

@[simp] theorem Dev.sampling_histSample (u : Nat) (x : Int) : (d.histSample u x).sampling = d.sampling := by
  unfold Dev.histSample
  dsimp only
  refine Dev.sampling_ite (Dev.sampling_bump _ _ _) ((Dev.sampling_countBin _ _ _ _ _).trans ?_)
  exact Dev.sampling_ite (Dev.sampling_bump _ _ _) (Dev.sampling_ite (Dev.sampling_bump _ _ _) rfl)

@[simp] theorem Dev.sampling_glowSample (m i : Nat) (x : Int) : (d.glowSample m i x).sampling = d.sampling :=
  Dev.sampling_ite (Dev.sampling_bump _ _ _) (Dev.sampling_countBin _ _ _ _ _)

@[simp] theorem Dev.sampling_countFree (r : List Word) : (d.countFree r).sampling = d.sampling :=
  foldl_keeps Dev.sampling _ _ _ fun d u => d.sampling_histSample u _

@[simp] theorem Dev.sampling_countInside (i : Nat) (r : List Word) : (d.countInside i r).sampling = d.sampling := by
  unfold Dev.countInside
  dsimp only
  have gated := foldl_keeps Dev.sampling (fun d u => d.histSample u (d.recordValue r (d.rd F.acqHChan u))) (d.histUnits true) d
    fun d u => d.sampling_histSample u _
  exact Dev.sampling_ite gated ((foldl_keeps Dev.sampling _ _ _ fun d m => d.sampling_glowSample m i _).trans gated)

@[simp] theorem Dev.sampling_queueHeader (h : Bytes) : (d.queueHeader h).sampling = d.sampling := by
  unfold Dev.queueHeader
  dsimp only
  rw [Dev.sampling_raise]
  exact Dev.sampling_ite ((Dev.sampling_raise _ _ _).trans (Dev.sampling_putPacket _ _ _)) (Dev.sampling_bump _ _ _)

@[simp] theorem Dev.sampling_stageZero : d.stageZero.sampling = d.sampling := by
  rw [Dev.stageZero, Dev.sampling_wr]
  rfl

@[simp] theorem Dev.sampling_rearm : d.rearm.sampling = d.sampling := rfl

@[simp] theorem Dev.sampling_segClose (trunc : Bool) : (d.segClose trunc).sampling = d.sampling := by
  unfold Dev.segClose
  split
  · rfl
  · extract_lets g total store src a ended counted next cut
    have filled : next.sampling = d.sampling := by
      simp only [next, counted, Dev.sampling_wr, Dev.sampling_bumpWrap]
      rfl
    have closed : cut.sampling = d.sampling := Dev.sampling_ite ((Dev.sampling_bump _ _ _).trans filled) filled
    exact Dev.sampling_ite closed ((Dev.sampling_queueHeader _ _).trans closed)

@[simp] theorem Dev.sampling_segFull : d.segFull.sampling = d.sampling := by
  unfold Dev.segFull
  dsimp only
  split <;> simp

@[simp] theorem Dev.sampling_segSample (g : Seg) (r : List Word) : (d.segSample g r).sampling = d.sampling := by
  unfold Dev.segSample
  extract_lets full inside overrun g src kept
  have counted : inside.sampling = d.sampling := (Dev.sampling_countInside _ _ _).trans rfl
  have noted : overrun.sampling = d.sampling :=
    Dev.sampling_ite ((Dev.sampling_raise _ _ _).trans ((Dev.sampling_bump _ _ _).trans counted)) counted
  have held : kept.sampling = d.sampling := Eq.trans rfl noted
  exact Dev.sampling_ite ((Dev.sampling_segFull _).trans held) held

@[simp] theorem Dev.sampling_fireTrigger (r : List Word) (at_ kind word : Nat) : (d.fireTrigger r at_ kind word).sampling = d.sampling := by
  unfold Dev.fireTrigger
  dsimp only
  refine Dev.sampling_ite (by simp) ((Dev.sampling_segSample _ _ _).trans ?_)
  refine (foldl_keeps Dev.sampling _ _ _ fun d x => d.sampling_countInside _ _).trans ?_
  rw [Dev.sampling_raise, Dev.sampling_wr]
  rfl

theorem Dev.sampling_limitStage (k : Nat) : (d.limitStage k).sampling = d.sampling := Dev.sampling_ite (Dev.sampling_stageZero _) rfl

@[simp] theorem Dev.sampling_testStage (r : List Word) : (d.testStage r).sampling = d.sampling := by
  unfold Dev.testStage
  dsimp only
  split
  · split
    · split
      · exact Dev.sampling_fireTrigger _ _ _ _ _
      · exact Dev.sampling_wr _ _ _ _
    · exact (Dev.sampling_limitStage _ _).trans rfl
  · exact (Dev.sampling_limitStage _ _).trans rfl

/-- A sample counts one more, at its instant (R479). -/
theorem Dev.acqSample_counts : d.acqSample.acq.lastAt = d.now ∧ d.acqSample.acq.samples = d.acq.samples + 1 := by
  unfold Dev.acqSample
  extract_lets r wasIn seq first free tested inSeg pre src
  have opened : first.sampling = d.sampling := Dev.sampling_ite (Dev.sampling_raise _ _ _) rfl
  have counted : free.sampling = d.sampling := (Dev.sampling_countFree _ _).trans opened
  have same : tested.sampling = d.sampling := by
    unfold tested
    split
    · exact (Dev.sampling_segSample _ _ _).trans counted
    · exact Dev.sampling_ite ((Dev.sampling_testStage _ _).trans counted) counted
  obtain ⟨samples, clock⟩ := Prod.mk.inj same
  exact ⟨congrArg (·.now) clock, congrArg (· + 1) samples⟩

end

/-! ## Samples that fall due (R479) and conditions of the stages (R480) -/

section
variable {d : Dev}

theorem Dev.sampleDue_iff : d.sampleDue = true ↔ d.acq.armed = true ∧ (if d.acq.samples = 0 then d.acq.firstAt ≤ d.now
    else d.acq.lastAt + d.ctrlTicks (d.rd F.acqDiv + 1) ≤ d.now + 1) := by
  unfold Dev.sampleDue
  split <;> simp

/-- Whether a stage's condition is met, by its kind. -/
theorem Dev.stageMet_iff (k : Nat) (r : List Word) :
    let x := d.recordValue r (d.rd F.acqSChan k)
    let a := s32 (d.rd F.acqSA k)
    let b := s32 (d.rd F.acqSB k)
    let met := (d.stageMet k r).1.isSome
    (d.rd F.acqSKind k = 0 → (met = true ↔ a < x)) ∧ (d.rd F.acqSKind k = 1 → (met = true ↔ x < a))
    ∧ (d.rd F.acqSKind k = 2 → (met = true ↔ d.acq.primed = true ∧ a < x))
    ∧ (d.rd F.acqSKind k = 3 → (met = true ↔ d.acq.primed = true ∧ x < a))
    ∧ (d.rd F.acqSKind k = 4 → (met = true ↔ a ≤ x ∧ x ≤ b)) ∧ (d.rd F.acqSKind k = 5 → (met = true ↔ x < a ∨ b < x)) := by
  have level (p : Bool) : (if p then some (d.now, 0) else none : Option (Nat × Nat)).isSome = p := by cases p <;> rfl
  have edge (p : Bool) (low : Bool) : (if d.acq.primed && p then (some (d.now, 0), false)
      else (none, d.acq.primed || low) : Option (Nat × Nat) × Bool).1.isSome = (d.acq.primed && p) := by
    cases d.acq.primed && p <;> rfl
  unfold Dev.stageMet
  dsimp only
  refine ⟨fun kind => ?_, fun kind => ?_, fun kind => ?_, fun kind => ?_, fun kind => ?_, fun kind => ?_⟩ <;> rw [kind]
  · exact (Iff.of_eq (congrArg (· = true) (level _))).trans decide_eq_true_iff
  · exact (Iff.of_eq (congrArg (· = true) (level _))).trans decide_eq_true_iff
  · refine (Iff.of_eq (congrArg (· = true) (edge _ _))).trans ?_
    rw [Bool.and_eq_true, decide_eq_true_iff]
  · refine (Iff.of_eq (congrArg (· = true) (edge _ _))).trans ?_
    rw [Bool.and_eq_true, decide_eq_true_iff]
  · refine (Iff.of_eq (congrArg (· = true) (level _))).trans ?_
    rw [Bool.and_eq_true, decide_eq_true_iff, decide_eq_true_iff]
  · refine (Iff.of_eq (congrArg (· = true) (level _))).trans ?_
    rw [Bool.or_eq_true, decide_eq_true_iff, decide_eq_true_iff]

end

/-! ## A segment in DRAM (R486, R487) -/

theorem find_tins {α : Type} (t : List (Nat × α)) (k : Nat) (v : α) : ((tins t k v).find? fun e => e.1 == k) = some (k, v) := by
  induction t with
  | nil => simp [tins]
  | cons e t ih =>
    obtain ⟨k', v'⟩ := e
    rw [tins]
    split
    · simp
    · split
      · simp
      · rename_i other
        simpa [other] using ih

/-- A page as it was written. -/
theorem Dev.page_writePage (d : Dev) (p tag : Nat) (bytes : Bytes) :
    ((d.writePage p tag bytes).page p).map (·.data) = some (padTo 1024 bytes) := by
  have whole : (padTo 1024 bytes).length ≠ 0 := by
    rw [padTo, List.length_append, List.length_take, zeros_length]
    omega
  have written : ({ data := padTo 1024 bytes, tag := tag, strength := d.strengthOf p } : Page) ≠ {} := fun same =>
    whole (congrArg (fun x : Page => x.data.length) same)
  simp only [Dev.page, Dev.writePage, Dev.wr_frame, tset]
  rw [if_neg written, find_tins]
  rfl

theorem Dev.acq_writePage (d : Dev) (p tag : Nat) (bytes : Bytes) : (d.writePage p tag bytes).acq = d.acq := by
  simp only [Dev.writePage, Dev.wr_frame]

theorem Dev.acq_dramUsed (d : Dev) : d.dramUsed.acq = d.acq := by simp only [Dev.dramUsed, Dev.wr_frame]

/-- The drain of a segment: its header stands in its first page. -/
theorem Dev.segDrained_first {d : Dev} {g : Seg} {rest : List Seg} (waits : d.acq.drain = g :: rest) :
    ∃ x : Dev, d.segDrained = x.queueHeader (d.segHeader g) ∧ x.acq.drain = rest
      ∧ (x.page (d.segPage g.index)).map (·.data) = some (padTo 1024 (d.segHeader g)) := by
  let taken : Dev := { d with acq := { d.acq with drain := rest } }
  let stored : Dev := (cut 1024 (g.records.flatMap wordsBytes)).zipIdx.foldl
    (fun d x => d.writePage (taken.segPage g.index + 1 + x.2) 2 x.1) taken
  have kept : stored.acq = taken.acq := foldl_keeps (·.acq) _ _ _ fun d x => d.acq_writePage _ _ _
  refine ⟨stored.dramUsed.writePage (d.segPage g.index) 2 (d.segHeader g), ?_, ?_, Dev.page_writePage _ _ _ _⟩
  · unfold Dev.segDrained
    rw [waits]
    rfl
  · rw [Dev.acq_writePage, Dev.acq_dramUsed, kept]

/-- Settles O51: by when a sample falls due and what it counts, and by what each other event of Lantern leads to. -/
theorem lanternSamplesAndDrains : Obligations.LanternSamplesAndDrains := by
  unfold Obligations.LanternSamplesAndDrains
  intro s t d next
  have now : s.dev.advance t = d := rfl
  clear_value d
  have due (yes : d.sampleDue = true) : exec (.acqSample t) s = next d.acqSample := by
    rw [exec_acqSample]
    exact event_at now (if_pos yes)
  have early (no : ¬ d.sampleDue = true) : exec (.acqSample t) s = next d := by
    rw [exec_acqSample]
    exact event_at now (if_neg no)
  refine ⟨fun idle => early ?idle, fun armed none_ => ⟨fun before => early ?before, fun from_ => due ?first⟩,
    fun armed some_ => ⟨fun soon => early ?soon, fun later => due ?later⟩, d.acqSample_counts, fun k r => d.stageMet_iff k r,
    fun state spent => ?rearmed, fun waits => ?rearms, fun none_ => ?nothing, fun g rest waits => ?drains, ?clears⟩
  case idle =>
    rw [Dev.sampleDue_iff, idle]
    exact fun h => absurd h.1 Bool.false_ne_true
  case before =>
    rw [Dev.sampleDue_iff, if_pos none_]
    exact fun h => absurd h.2 (Nat.not_le.mpr before)
  case first =>
    rw [Dev.sampleDue_iff, if_pos none_]
    exact ⟨armed, from_⟩
  case soon =>
    rw [Dev.sampleDue_iff, if_neg some_]
    exact fun h => absurd h.2 (Nat.not_le.mpr soon)
  case later =>
    rw [Dev.sampleDue_iff, if_neg some_]
    exact ⟨armed, later⟩
  case rearmed =>
    rw [exec_acqRearmDone]
    exact event_at now (if_pos (by simp [state, spent]))
  case rearms =>
    rw [exec_acqRearmDone]
    exact event_at now (if_neg (by simpa only [Bool.and_eq_true, decide_eq_true_eq, not_and_or, Bool.not_eq_true] using waits))
  case nothing =>
    rw [exec_acqSegmentDrained]
    refine event_at now ?_
    unfold Dev.segDrained
    rw [none_]
  case drains =>
    obtain ⟨x, leads, left, page⟩ := Dev.segDrained_first waits
    refine ⟨x, ?_, left, page⟩
    rw [exec_acqSegmentDrained]
    exact event_at now leads
  case clears =>
    rw [exec_acqClearDone]
    exact event_at now rfl

end Sys2Proof.Machine
end

section
/-!
PROOFS. The family 12_local_stage, its events (R316 to R335).
-/
namespace Sys2Proof.Machine

/-! ## What the operations of a leg leave of its period -/

/-- The part of a leg that counts its periods. -/
def Leg.period (l : Leg) : Nat × Nat × Option Nat × Option Nat × Option (Nat × Nat × Nat) :=
  (l.zeroAt, l.periods, l.aDone, l.bDone, l.shadow)

/-- e differs from d at most in the status and count words of legs, in what a raise may change, and in what does not count periods. -/
structure Dev.LegStep (n : Nat) (d e : Dev) : Prop where
  rd : ∀ f i, f.quiet i = true → f.key i / 65536 ≠ 0x0802 → f.key i / 65536 ≠ 0x0803 → e.rd f i = d.rd f i
  period : (e.leg n).period = (d.leg n).period
  clock : e.clock = d.clock

section
variable {n : Nat} {d e : Dev}

theorem Dev.LegStep.refl (d : Dev) : Dev.LegStep n d d := ⟨fun _ _ _ _ _ => rfl, rfl, rfl⟩

theorem Dev.LegStep.trans {c : Dev} (h : Dev.LegStep n d e) (k : Dev.LegStep n e c) : Dev.LegStep n d c :=
  ⟨fun f i q a b => (k.rd f i q a b).trans (h.rd f i q a b), k.period.trans h.period, k.clock.trans h.clock⟩

theorem Dev.LegStep.ite {c : Prop} [Decidable c] {e' : Dev} (h : Dev.LegStep n d e) (k : Dev.LegStep n d e') :
    Dev.LegStep n d (if c then e else e') := by
  split <;> assumption

theorem Dev.LegStep.keeps (h : Dev.LegStep n d e) : (e.leg n).zeroAt = (d.leg n).zeroAt ∧ (e.leg n).periods = (d.leg n).periods
    ∧ (e.leg n).aDone = (d.leg n).aDone ∧ (e.leg n).bDone = (d.leg n).bDone ∧ (e.leg n).shadow = (d.leg n).shadow := by
  simpa only [Leg.period, Prod.mk.injEq] using h.period

theorem Dev.leg_wr (d : Dev) (f : Fld) (v i m : Nat) : (d.wr f v i).leg m = d.leg m := by simp only [Dev.leg, Dev.wr_frame]

theorem Dev.leg_setLeg (d : Dev) (n : Nat) (l : Leg) : (d.setLeg n l).leg n = l := (tget_tset _ _ _ _ _).trans (if_pos rfl)

theorem Dev.legStep_wr (d : Dev) {f : Fld} (v : Nat) {i : Nat} (inside : f.key i / 65536 = 0x0802 ∨ f.key i / 65536 = 0x0803) :
    Dev.LegStep n d (d.wr f v i) := by
  refine ⟨fun g j _ notStatus notCount => Dev.rd_wr_object _ _ fun same => ?_, by rw [Dev.leg_wr], by simp only [Dev.wr_frame]⟩
  obtain status | count := inside
  · exact notStatus (same.trans status)
  · exact notCount (same.trans count)

theorem Dev.legStep_setLeg (d : Dev) {l : Leg} (same : l.period = (d.leg n).period) : Dev.LegStep n d (d.setLeg n l) :=
  ⟨fun _ _ _ _ _ => rfl, by rw [Dev.leg_setLeg, same], rfl⟩

theorem Dev.legStep_raise (d : Dev) {source : Nat} (x : Nat) (listed : source < 256) : Dev.LegStep n d (d.raise source x) := by
  have near := Dev.near_raise d source x listed
  exact ⟨fun f i quiet _ _ => near.rd f i quiet, by simp only [Dev.leg, near.keeps], by simp only [near.keeps]⟩

theorem Dev.legStep_fault (d : Dev) (c source : Nat) : Dev.LegStep n d (d.fault c source) := ⟨fun _ _ _ _ _ => rfl, rfl, rfl⟩

end

section
variable {n : Nat} (below : n < 12) (d : Dev)
include below

theorem legStatus_object (f : Fld) (one : f.soN = 1) (so : f.so = 0x0802) (word : f.word = 0) (stride : f.stride = 1) :
    f.key n / 65536 = 0x0802 := by
  simp only [Fld.key, Fld.soAt, Fld.wordAt, one, if_true, so, word, stride, wordKey]
  omega

theorem legCounts_object (f : Fld) (one : f.soN = 1) (so : f.so = 0x0803) (word : f.word < 3) (stride : f.stride = 3) :
    f.key n / 65536 = 0x0803 := by
  simp only [Fld.key, Fld.soAt, Fld.wordAt, one, if_true, so, stride, wordKey]
  omega

theorem Dev.legStep_status (f : Fld) (v : Nat) (one : f.soN = 1) (so : f.so = 0x0802) (word : f.word = 0) (stride : f.stride = 1) :
    Dev.LegStep n d (d.wr f v n) := d.legStep_wr v (.inl (legStatus_object below f one so word stride))

theorem Dev.legStep_count (f : Fld) (v : Nat) (one : f.soN = 1) (so : f.so = 0x0803) (word : f.word < 3) (stride : f.stride = 3) :
    Dev.LegStep n d (d.wr f v n) := d.legStep_wr v (.inr (legCounts_object below f one so word stride))

theorem Dev.legStep_bumpWord : Dev.LegStep n d (d.bumpWord 0x0803 (3 * n)) := by
  refine .ite ⟨fun f i _ _ notCount => Dev.rd_setWord_key _ _ _ _ fun same => notCount ?_, rfl, rfl⟩ (.refl d)
  rw [same, wordKey_div _ (by omega)]

omit below in
theorem Leg.period_pumpStop (l : Leg) (m now : Nat) : (l.pumpStop m now).period = l.period := by
  unfold Leg.pumpStop
  split
  · rfl
  · split
    · rfl
    · split <;> rfl

omit below in
/-- A drive writes the gates and, of the leg, only what does not count periods. -/
theorem Dev.drive2_period : ∃ l : Leg, l.period = (d.leg n).period
    ∧ d.drive2 n = ((d.setLeg n l).wr F.legGh (flag (d.legGates n).1) n).wr F.legGl (flag (d.legGates n).2) n := by
  refine ⟨_, ?_, rfl⟩
  split
  · rfl
  · exact Leg.period_pumpStop _ _ _

theorem Dev.legStep_legUpdate : Dev.LegStep n d (d.legUpdate n) := by
  obtain ⟨l, period, driven⟩ := Dev.drive2_period (n := n) (d.legShow n)
  have shown : Dev.LegStep n d (d.legShow n) := d.legStep_status below F.legState _ rfl rfl rfl rfl
  refine shown.trans ?_
  rw [Dev.legUpdate, driven]
  exact (Dev.legStep_setLeg _ period).trans ((Dev.legStep_status below _ F.legGh _ rfl rfl rfl rfl).trans
    (Dev.legStep_status below _ F.legGl _ rfl rfl rfl rfl))

theorem Dev.legStep_legTimer (bit : Nat) : Dev.LegStep n d (d.legTimer n bit) :=
  .ite ((d.legStep_status below F.legIntFlags _ rfl rfl rfl rfl).trans (Dev.legStep_raise _ 0 (by omega))) (.refl d)

theorem Dev.legStep_legTrip (src : Nat) : Dev.LegStep n d (d.legTrip n src) := by
  unfold Dev.legTrip
  extract_lets l sameCycle uncut run idle tripped
  have counts : Dev.LegStep n d uncut := .ite (d.legStep_count below F.legCuts _ rfl rfl (by decide) rfl) (.refl d)
  have leg : uncut.leg n = d.leg n := by
    unfold uncut
    split
    · rw [Dev.leg_wr]
    · rfl
  have idles : Dev.LegStep n uncut idle := Dev.legStep_setLeg _ (by rw [leg]; rfl)
  have trips : Dev.LegStep n idle tripped := (Dev.legStep_status below _ F.legTripped _ rfl rfl rfl rfl).trans
    ((Dev.legStep_status below _ F.legTripSrc _ rfl rfl rfl rfl).trans ((Dev.legStep_status below _ F.legCut _ rfl rfl rfl rfl).trans
      (Dev.legStep_legUpdate below _)))
  exact counts.trans (idles.trans (trips.trans ((Dev.legStep_fault _ _ _).trans (Dev.legStep_raise _ 0 (by decide)))))

theorem Dev.legStep_legCountCut : Dev.LegStep n d (d.legCountCut n) := by
  unfold Dev.legCountCut
  extract_lets l noted counted
  have notes : Dev.LegStep n d noted := d.legStep_setLeg rfl
  have counts : Dev.LegStep n noted counted := (Dev.legStep_bumpWord below _).trans (Dev.legStep_raise _ 0 (by decide))
  exact notes.trans (counts.trans (.ite (Dev.legStep_legTrip below _ 3) (.refl _)))

/-! ## The zero event (R316, R320, R322, R328) -/

/-- What a zero event does about the period that ends: its timer event and its length. -/
def Dev.periodEnded (d : Dev) (n : Nat) : Dev :=
  if (d.leg n).periods = 0 then d
  else (d.legTimer n 2).wr F.legLastLen (min 65535 ((d.legTimer n 2).ctrlSince (d.leg n).zeroAt - 1)) n

theorem Dev.legStep_periodEnded : Dev.LegStep n d (d.periodEnded n) :=
  .ite (.refl d) ((d.legStep_legTimer below 2).trans (Dev.legStep_count below _ F.legLastLen _ rfl rfl (by decide) rfl))

omit below in
/-- A leg whose next period has begun. -/
def Leg.nextPeriod (l : Leg) (now : Nat) : Leg :=
  { l with zeroAt := now, startAt := if l.periods = 0 then now else l.startAt, periods := l.periods + 1, aDone := none, bDone := none }

omit below in
/-- The shadow compares of a leg in force (R320). -/
def Dev.shadowsTaken (d : Dev) (n : Nat) : Dev := (d.wr F.legCmpa (d.shadowAt n).1 n).wr F.legCmpb (d.shadowAt n).2 n

omit below in
/-- What a zero event does about a cut, a trip and a leg that is not primed. -/
def Dev.periodActs (d : Dev) (n : Nat) (hadCut : Bool) : Dev :=
  let d := if hadCut then
      if d.on F.legCsLimIn n then d.legCountCut n
      else
        let d := d.wr F.legCut 0 n
        d.setLeg n { d.leg n with dead := some (d.deadFor n (d.on F.legP n)), ghReq := false, glReq := false, cutRun := 0 }
    else if d.on F.legTripped n then d
    else d.setLeg n { d.leg n with cutRun := 0 }
  let d := if (d.leg n).primed || d.on F.legTripped n then d
    else (d.setLeg n { d.leg n with glReq := true }).wr F.legP 0 n
  (d.legUpdate n).legTimer n 3

omit below in
theorem Dev.legZero_eq (counting : (d.leg n).counting = true) (due : d.ctrlDue (d.zeroDue n) = true) : d.legZero n =
    let c := (d.periodEnded n).shadowsTaken n
    (c.setLeg n ((c.leg n).nextPeriod c.now)).periodActs n (c.on F.legCut n) := by
  unfold Dev.legZero
  dsimp only
  rw [if_neg (by simp [counting, due])]
  unfold Dev.periodEnded
  by_cases first : (d.leg n).periods = 0
  · rw [if_pos first, if_pos first, if_pos first]
    rfl
  · rw [if_neg first, if_neg first, if_neg first]
    rfl

theorem Dev.legStep_periodActs (hadCut : Bool) : Dev.LegStep n d (d.periodActs n hadCut) := by
  unfold Dev.periodActs
  extract_lets lifted uncut kept cut held primed
  have lifts : Dev.LegStep n d lifted := d.legStep_status below F.legCut _ rfl rfl rfl rfl
  have cuts : Dev.LegStep n d cut := .ite (.ite (d.legStep_legCountCut below) (lifts.trans (Dev.legStep_setLeg _ rfl)))
    (.ite (.refl d) (Dev.legStep_setLeg _ rfl))
  have asks : Dev.LegStep n cut (cut.setLeg n { held with glReq := true }) := Dev.legStep_setLeg _ rfl
  have primes : Dev.LegStep n cut primed := .ite (.refl _) (asks.trans (Dev.legStep_status below _ F.legP _ rfl rfl rfl rfl))
  exact cuts.trans (primes.trans ((Dev.legStep_legUpdate below _).trans (Dev.legStep_legTimer below _ 3)))

theorem Dev.rd_shadowsTaken : (d.shadowsTaken n).rd F.legCmpa n = (d.shadowAt n).1 % 65536
    ∧ (d.shadowsTaken n).rd F.legCmpb n = (d.shadowAt n).2 % 65536 := by
  have wide : n < 32 := by omega
  simp (disch := decide) only [Dev.shadowsTaken, Dev.rd_wr_channel wide, Dev.rd_wr_same]
  exact ⟨rfl, rfl⟩

end

/-- The fields of a leg that stand in other words. -/
theorem Dev.LegStep.rd_word {n : Nat} {d e : Dev} (h : Dev.LegStep n d e) (below : n < 12) (f : Fld)
    (all : ((List.range 12).all fun i => f.quiet i && decide (f.key i / 65536 ≠ 0x0802) && decide (f.key i / 65536 ≠ 0x0803)) = true) :
    e.rd f n = d.rd f n := by
  have here := List.all_eq_true.mp all n (List.mem_range.mpr below)
  simp only [Bool.and_eq_true, decide_eq_true_eq] at here
  obtain ⟨⟨quiet, notStatus⟩, notCount⟩ := here
  exact h.rd f n quiet notStatus notCount

/-- The shadow compares read alike where the leg's period and its shadow words do. -/
theorem Dev.LegStep.shadowAt {n : Nat} {d e : Dev} (below : n < 12) (h : Dev.LegStep n d e) : e.shadowAt n = d.shadowAt n := by
  obtain ⟨-, -, -, -, shadow⟩ := h.keeps
  simp only [Dev.shadowAt, shadow, Dev.now, h.clock, h.rd_word below F.legCmpaSh (by decide), h.rd_word below F.legCmpbSh (by decide)]
  rfl

/-- What a zero event leads to. -/
theorem Dev.legZero_shows (d : Dev) {n : Nat} (below : n < 12) (counting : (d.leg n).counting = true)
    (due : d.ctrlDue (d.zeroDue n) = true) :
    let e := d.legZero n
    (e.leg n).zeroAt = d.now ∧ (e.leg n).periods = (d.leg n).periods + 1 ∧ (e.leg n).aDone = none ∧ (e.leg n).bDone = none
    ∧ e.rd F.legCmpa n = (d.shadowAt n).1 % 65536 ∧ e.rd F.legCmpb n = (d.shadowAt n).2 % 65536 := by
  intro e
  have ended := d.legStep_periodEnded below
  obtain ⟨cmpa, cmpb⟩ := Dev.rd_shadowsTaken below (d.periodEnded n)
  rw [ended.shadowAt below] at cmpa cmpb
  have instant : ((d.periodEnded n).shadowsTaken n).now = d.now := by
    simp only [Dev.shadowsTaken, Dev.now, Dev.wr_frame, ended.clock]
  have leg : ((d.periodEnded n).shadowsTaken n).leg n = (d.periodEnded n).leg n := by
    simp only [Dev.shadowsTaken, Dev.leg_wr]
  have leads : e = _ := d.legZero_eq counting due
  dsimp only at leads
  obtain ⟨-, periods, -⟩ := ended.keeps
  rw [leg, instant] at leads
  generalize (d.periodEnded n).shadowsTaken n = c at *
  have acts := Dev.legStep_periodActs below (c.setLeg n (((d.periodEnded n).leg n).nextPeriod d.now)) (c.on F.legCut n)
  rw [← leads] at acts
  obtain ⟨zeroAt, count, aDone, bDone, -⟩ := acts.keeps
  rw [Dev.leg_setLeg] at zeroAt count aDone bDone
  exact ⟨zeroAt, count.trans (congrArg (· + 1) periods), aDone, bDone, (acts.rd_word below F.legCmpa (by decide)).trans cmpa,
    (acts.rd_word below F.legCmpb (by decide)).trans cmpb⟩

/-! ## Compares, dead times, priming (R317, R322, R323) -/

/-- Whether a compare of the same CTRL cycle has acted already. -/
def sameCycle (d : Dev) (x : Option Nat) : Bool := match x with | some i => decide (i / 16 = d.now / 16) | none => false

theorem sameCycle_iff (d : Dev) (x : Option Nat) : sameCycle d x = true ↔ ∃ i, x = some i ∧ i / 16 = d.now / 16 := by
  cases x <;> simp [sameCycle]

section
variable {d : Dev} {n : Nat}

/-- A leg that notes its compare. -/
def Dev.compareDone (d : Dev) (n : Nat) (b : Bool) : Dev :=
  d.setLeg n (if b then { d.leg n with bDone := some d.now } else { d.leg n with aDone := some d.now })

/-- A compare that has come and has not acted yet. -/
structure Dev.compareActs (d : Dev) (n : Nat) (b : Bool) : Prop where
  counting : (d.leg n).counting = true
  started : (d.leg n).periods ≠ 0
  unspent : (if b then (d.leg n).bDone else (d.leg n).aDone) = none
  inside : (if b then d.rd F.legCmpb n else d.rd F.legCmpa n) ≤ d.rd F.legPrd n
  come : (if b then d.rd F.legCmpb n else d.rd F.legCmpa n) ≤ d.ctrlSince (d.leg n).zeroAt ∨ d.zeroDue n / 16 ≤ d.now / 16 + 1

/-- The level that a compare gives P: of two in one CTRL cycle the higher value decides (R317). -/
def Dev.compareLevel (d : Dev) (n : Nat) (b : Bool) : Bool :=
  if b then sameCycle d (d.leg n).aDone && decide (d.rd F.legCmpb n < d.rd F.legCmpa n)
  else !(sameCycle d (d.leg n).bDone && decide (d.rd F.legCmpa n ≤ d.rd F.legCmpb n))

theorem Dev.legCompare_acts {b : Bool} (acts : d.compareActs n b) : d.legCompare n b =
    (if (d.leg n).primed then (d.compareDone n b).legSetP n (d.compareLevel n b) else d.compareDone n b).legTimer n (if b then 0 else 1) := by
  obtain ⟨counting, started, unspent, inside, come⟩ := acts
  have open_ : (if b then (d.leg n).bDone.isSome else (d.leg n).aDone.isSome) = false := by
    cases b with
    | false => exact Option.isSome_eq_false_iff.mpr (Option.isNone_iff_eq_none.mpr unspent)
    | true => exact Option.isSome_eq_false_iff.mpr (Option.isNone_iff_eq_none.mpr unspent)
  unfold Dev.legCompare
  dsimp only
  refine (if_neg ?_).trans ?_
  · simp only [Bool.or_eq_true, not_or, decide_eq_true_eq, Bool.not_eq_true', Bool.not_eq_true]
    refine ⟨⟨⟨⟨by rw [counting]; decide, started⟩, open_⟩, Nat.not_lt.mpr inside⟩, ?_⟩
    simpa only [Bool.or_eq_false_iff, decide_eq_false_iff_not, not_and_or, not_not] using come
  · cases b <;> rfl

theorem Dev.legCompare_unprimed {b : Bool} (acts : d.compareActs n b) (unprimed : (d.leg n).primed = false) :
    d.legCompare n b = (d.compareDone n b).legTimer n (if b then 0 else 1) := by
  rw [Dev.legCompare_acts acts, if_neg (Bool.eq_false_iff.mp unprimed)]

theorem Dev.legCompare_primed {b level : Bool} (acts : d.compareActs n b) (primed : (d.leg n).primed = true)
    (judged : d.compareLevel n b = level) :
    d.legCompare n b = ((d.compareDone n b).legSetP n level).legTimer n (if b then 0 else 1) := by
  rw [Dev.legCompare_acts acts, if_pos primed, judged]

/-- The first compare sets P high unless the second acted in the same CTRL cycle and does not stand lower. -/
theorem Dev.compareLevel_first : d.compareLevel n false = true ↔
    ((∃ i, (d.leg n).bDone = some i ∧ i / 16 = d.now / 16) → d.rd F.legCmpb n < d.rd F.legCmpa n) := by
  rw [← sameCycle_iff]
  cases together : sameCycle d (d.leg n).bDone <;> simp [Dev.compareLevel, together]

/-- The second compare sets P low unless the first acted in the same CTRL cycle and stands higher. -/
theorem Dev.compareLevel_second : d.compareLevel n true = true ↔
    (∃ i, (d.leg n).aDone = some i ∧ i / 16 = d.now / 16) ∧ d.rd F.legCmpb n < d.rd F.legCmpa n := by
  rw [← sameCycle_iff]
  simp [Dev.compareLevel]

/-- A dead time gives the request of its switch (R323). -/
theorem Dev.legDeadEnd_due {high : Bool} {due : Nat} (dead : (d.leg n).dead = some (high, due)) (come : d.ctrlDue due = true) :
    d.legDeadEnd n = (d.setLeg n { d.leg n with dead := none, ghReq := high, glReq := !high }).legUpdate n := by
  unfold Dev.legDeadEnd
  dsimp only
  rw [dead]
  exact if_pos come

/-! ## Blanking, the current limit and the short circuit (R325 to R329) -/

theorem Dev.blanked_wr (d : Dev) (f : Fld) (v i m : Nat) : (d.wr f v i).blanked m = d.blanked m := by
  simp only [Dev.blanked, Dev.leg_wr, Dev.ctrlDue, Dev.wr_frame]

theorem Dev.rd_setLeg (d : Dev) (m : Nat) (l : Leg) (f : Fld) (i : Nat) : (d.setLeg m l).rd f i = d.rd f i := by
  simp only [Dev.setLeg, Dev.rd]

/-- Bringing a leg up to date leaves its limit comparator as it is. -/
theorem Dev.legCsLimIn_legUpdate (d : Dev) (below : n < 12) : (d.legUpdate n).rd F.legCsLimIn n = d.rd F.legCsLimIn n := by
  have wide : n < 32 := by omega
  obtain ⟨l, -, driven⟩ := Dev.drive2_period (n := n) (d.legShow n)
  rw [Dev.legUpdate, driven]
  simp (disch := decide) only [Dev.rd_wr_channel wide, Dev.rd_setLeg, Dev.legShow]

/-- A trip leaves the limit comparator as it is. -/
theorem Dev.legCsLimIn_legTrip (d : Dev) (below : n < 12) (src : Nat) : (d.legTrip n src).rd F.legCsLimIn n = d.rd F.legCsLimIn n := by
  have wide : n < 32 := by omega
  unfold Dev.legTrip
  extract_lets l sameCycle uncut run idle tripped
  have counts : uncut.rd F.legCsLimIn n = d.rd F.legCsLimIn n := by
    unfold uncut
    split
    · simp (disch := decide) only [Dev.rd_wr_channel wide]
    · rfl
  rw [Dev.rd_raise_channel wide _ _ _ _ (by decide) (by decide), Dev.rd_fault]
  unfold tripped
  rw [Dev.legCsLimIn_legUpdate _ below]
  simp (disch := decide) only [Dev.rd_wr_channel wide, idle, Dev.rd_setLeg, counts]

theorem Dev.legBlankEnd_due {due : Nat} (open_ : (d.leg n).blank = some due) (come : d.ctrlDue due = true) : d.legBlankEnd n =
    let ended := d.setLeg n { d.leg n with blank := none }
    let e := if ended.on F.legDsatIn n && ended.on F.legDsatEn n then ended.legTrip n 1 else ended
    if e.on F.legCsLimIn n && e.rd F.legCsLim n != 255 then e.legCutNow n else e := by
  unfold Dev.legBlankEnd
  rw [open_]
  exact if_neg (by simp [come])

/-- What ends with the blanking window (R326, R330). -/
theorem Dev.legBlankEnd_cases (below : n < 12) {due : Nat} (open_ : (d.leg n).blank = some due) (come : d.ctrlDue due = true) :
    let ended := d.setLeg n { d.leg n with blank := none }
    let dsat := d.on F.legDsatIn n = true ∧ d.on F.legDsatEn n = true
    let limit := d.on F.legCsLimIn n = true ∧ d.rd F.legCsLim n ≠ 255
    (¬ dsat → ¬ limit → d.legBlankEnd n = ended) ∧ (dsat → ¬ limit → d.legBlankEnd n = ended.legTrip n 1)
    ∧ (¬ dsat → limit → d.legBlankEnd n = ended.legCutNow n) := by
  intro ended dsat limit
  have leads := Dev.legBlankEnd_due open_ come
  dsimp only at leads
  have desaturated : (ended.on F.legDsatIn n && ended.on F.legDsatEn n) = true ↔ dsat := by
    rw [Dev.on, Dev.on, Dev.rd_setLeg, Dev.rd_setLeg, Bool.and_eq_true]
    exact Iff.rfl
  have limits (e : Dev) (input : e.rd F.legCsLimIn n = d.rd F.legCsLimIn n) (level : e.rd F.legCsLim n = d.rd F.legCsLim n) :
      (e.on F.legCsLimIn n && e.rd F.legCsLim n != 255) = true ↔ limit := by
    have same : e.on F.legCsLimIn n = d.on F.legCsLimIn n := congrArg (· != 0) input
    rw [same, level, Bool.and_eq_true, bne_iff_ne]
  have atEnd := limits ended (Dev.rd_setLeg _ _ _ _ _) (Dev.rd_setLeg _ _ _ _ _)
  have atTrip := limits (ended.legTrip n 1) ((Dev.legCsLimIn_legTrip _ below 1).trans (Dev.rd_setLeg _ _ _ _ _))
    (((Dev.legStep_legTrip below ended 1).rd_word below F.legCsLim (by decide)).trans (Dev.rd_setLeg _ _ _ _ _))
  refine ⟨fun noDsat noLimit => ?_, fun yes noLimit => ?_, fun noDsat yes => ?_⟩ <;> rw [leads]
  · rw [if_neg (desaturated.not.mpr noDsat)]
    exact if_neg (atEnd.not.mpr noLimit)
  · rw [if_pos (desaturated.mpr yes)]
    exact if_neg (atTrip.not.mpr noLimit)
  · rw [if_neg (desaturated.not.mpr noDsat)]
    exact if_pos (atEnd.mpr yes)

end

/-! ## The brake (R334, R335) -/

section
variable (d : Dev)

/-- BRK goes high. -/
def Dev.brakeStarted (d : Dev) : Dev :=
  (({ d with brake := { d.brake with onAt := d.now } }.wr F.legBrkOn 1).bump F.legBrkCount).raise 0x4F

theorem Dev.brakeUpdate_cases : d.brakeUpdate = d ∨ d.brakeUpdate = d.brakeOff ∨ d.brakeUpdate = d.brakeStarted := by
  unfold Dev.brakeUpdate
  split
  · exact .inr (.inl rfl)
  · split
    · split
      · exact .inr (.inl rfl)
      · exact .inl rfl
    · split
      · exact .inr (.inr rfl)
      · exact .inl rfl

/-- BRK no longer asked for stays on until its shortest time has passed (R334). -/
theorem Dev.brakeUpdate_unasked (free : d.brakeFree = true) (high : d.on F.legBrkOn = true)
    (noMore : d.brakeAsked = false ∨ d.on F.legBrkInhib = true) : d.brakeUpdate =
      if d.ctrlDue (d.brake.onAt + d.ctrlTicks (d.rd F.legBrkMinOn)) then d.brakeOff else d := by
  have ends : (!d.brakeAsked || d.on F.legBrkInhib) = true := by
    obtain unasked | inhibited := noMore
    · simp [unasked]
    · simp [inhibited]
  unfold Dev.brakeUpdate
  rw [free, high, ends]
  rfl

/-- The heating model of the brake: its tick and its figure. -/
def Dev.heating (d : Dev) : Nat × Nat := (d.brake.tickAt, d.brakeHeat)

theorem Dev.heating_wr {f : Fld} (v : Nat) (ok : f.ok = true) (low : f.apart 0 F.legBrkHLo 0 = true)
    (high : f.apart 0 F.legBrkHHi 0 = true) : (d.wr f v).heating = d.heating := by
  rw [Dev.heating, Dev.heating, Dev.brakeHeat, Dev.rd_wr_apart _ _ _ _ _ _ ok (by decide) low,
    Dev.rd_wr_apart _ _ _ _ _ _ ok (by decide) high]
  simp only [Dev.wr_frame, Dev.brakeHeat]

theorem Dev.heating_raise (source x : Nat) (listed : source < 256) : (d.raise source x).heating = d.heating := by
  have near := Dev.near_raise d source x listed
  have brake : (d.raise source x).brake = d.brake := by simp only [near.keeps]
  rw [Dev.heating, Dev.heating, Dev.brakeHeat, brake, near.rd _ _ (by decide), near.rd _ _ (by decide), Dev.brakeHeat]

theorem Dev.heating_fault (c source : Nat) : (d.fault c source).heating = d.heating := rfl

theorem Dev.heating_brakeOff : d.brakeOff.heating = d.heating := by
  unfold Dev.brakeOff
  split
  · refine (Dev.heating_wr _ _ (by decide) (by decide) (by decide)).trans ?_
    simp only [Dev.heating, Dev.brakeHeat, Dev.rd]
  · rfl

theorem Dev.heating_brakeStarted : d.brakeStarted.heating = d.heating := by
  have on_ : ({ d with brake := { d.brake with onAt := d.now } }.wr F.legBrkOn 1 : Dev).heating = d.heating := by
    refine (Dev.heating_wr _ _ (by decide) (by decide) (by decide)).trans ?_
    simp only [Dev.heating, Dev.brakeHeat, Dev.rd]
  refine (Dev.heating_raise _ _ _ (by decide)).trans (Eq.trans ?_ on_)
  obtain same | more := Dev.bump_cases ({ d with brake := { d.brake with onAt := d.now } }.wr F.legBrkOn 1) F.legBrkCount 0
  · rw [same]
  · rw [more]
    exact Dev.heating_wr _ _ (by decide) (by decide) (by decide)

theorem Dev.heating_brakeUpdate : d.brakeUpdate.heating = d.heating := by
  obtain same | off | started := d.brakeUpdate_cases
  · rw [same]
  · rw [off, Dev.heating_brakeOff]
  · rw [started, Dev.heating_brakeStarted]

/-- The figure after a tick of the heating model (R335). -/
def Dev.heatAfter (d : Dev) : Nat := min (2 ^ 48 - 1) (d.brakeHeat - d.brakeHeat / 2 ^ d.rd F.legBrkTau + d.brakeOnCycles)

/-- The block with its heating figure brought up to date. -/
def Dev.heated (d : Dev) : Dev :=
  ({ d with brake := { d.brake with onTicks := 0, tickAt := d.now } }.wr F.legBrkHLo (d.heatAfter % 2 ^ 32)).wr F.legBrkHHi
    (d.heatAfter / 2 ^ 32)

theorem Dev.heating_heated : d.heated.heating = (d.now, d.heatAfter) := by
  have small : d.heatAfter < 2 ^ 48 := Nat.lt_of_le_of_lt (Nat.min_le_left _ _) (by decide)
  have sizes : F.legBrkHLo.size = 2 ^ 32 ∧ F.legBrkHHi.size = 2 ^ 16 := by decide
  simp (disch := decide) only [Dev.heated, Dev.heating, Dev.brakeHeat, Dev.wr_frame, Dev.rd_wr_same, Dev.rd_wr_apart, sizes]
  refine Prod.ext rfl ?_
  show d.heatAfter % 2 ^ 32 % 2 ^ 32 + 2 ^ 32 * (d.heatAfter / 2 ^ 32 % 2 ^ 16) = d.heatAfter
  omega

theorem Dev.brakeTick_due (due : d.ctrlDue (d.brake.tickAt + d.ctrlTicks 625000) = true) : d.brakeTick =
    if d.heated.rd F.legBrkHmax ≤ d.heatAfter / 65536 then
      if d.heated.on F.legBrkInhib then d.heated else (((d.heated.wr F.legBrkInhib 1).brakeUpdate).fault 18 0).raise 0x50
    else if d.heated.on F.legBrkInhib && decide (d.heatAfter / 65536 < d.heated.rd F.legBrkHres) then
      (d.heated.wr F.legBrkInhib 0).brakeUpdate
    else d.heated := by
  unfold Dev.brakeTick
  exact if_neg (by simp [due])

/-- A tick of the heating model adds what the brake was on and takes the part of LEG.BRK_TAU away. -/
theorem Dev.heating_brakeTick (due : d.ctrlDue (d.brake.tickAt + d.ctrlTicks 625000) = true) :
    d.brakeTick.heating = (d.now, d.heatAfter) := by
  have inhibited (v : Nat) : ((d.heated.wr F.legBrkInhib v).brakeUpdate).heating = d.heated.heating :=
    (Dev.heating_brakeUpdate _).trans (Dev.heating_wr _ _ (by decide) (by decide) (by decide))
  rw [← Dev.heating_heated, Dev.brakeTick_due d due]
  split
  · split
    · rfl
    · exact (Dev.heating_raise _ _ _ (by decide)).trans ((Dev.heating_fault _ _ _).trans (inhibited 1))
  · split
    · exact inhibited 0
    · rfl

end

/-- Settles O32: by what each event of a leg leads to once its CTRL cycle has come, and by the heating model of the brake. -/
theorem legAndBrakeEventsAct : Obligations.LegAndBrakeEventsAct := by
  unfold Obligations.LegAndBrakeEventsAct
  refine ⟨fun s t n => ?leg, fun s t => ?brake⟩
  case leg =>
    intro d l next
    have now : s.dev.advance t = d := rfl
    clear_value d
    have wide : n.val < 32 := Nat.lt_trans n.isLt (by decide)
    refine ⟨fun counting due => ?zero, fun b => ?compare, fun high due dead come => ?dead, fun counting unprimed started free come => ?prime,
      fun due open_ come => ?blank, fun enabled => ?limit, fun enabled open_ => ?dsat, fun masked => ?masked, ?inactive, fun enabled => ?short,
      fun x pump runs on_ since long => ?pump⟩
    case zero =>
      exact ⟨d.legZero n, by rw [exec_legZeroEvent]; exact event_at now rfl, d.legZero_shows n.isLt counting due⟩
    case compare =>
      intro va vb v same done counting started unspent inside come
      have acts : d.compareActs n b := ⟨counting, started, unspent, inside, come⟩
      have low (judged : ¬ d.compareLevel n b = true) : d.compareLevel n b = false := Bool.eq_false_iff.mpr judged
      refine ⟨fun unprimed => ?_, ?_, ?_, ?_, ?_⟩
      · rw [exec_legCompareAction]
        exact event_at now (Dev.legCompare_unprimed acts unprimed)
      · rintro primed rfl higher
        rw [exec_legCompareAction]
        exact event_at now (Dev.legCompare_primed acts primed (Dev.compareLevel_first.mpr higher))
      · rintro primed rfl together notHigher
        rw [exec_legCompareAction]
        exact event_at now (Dev.legCompare_primed acts primed (low fun high =>
          absurd (Dev.compareLevel_first.mp high together) (Nat.not_lt.mpr notHigher)))
      · rintro primed rfl notLower
        rw [exec_legCompareAction]
        refine event_at now (Dev.legCompare_primed acts primed (low fun high => ?_))
        obtain ⟨together, lower⟩ := Dev.compareLevel_second.mp high
        exact absurd (notLower together) (Nat.not_le.mpr lower)
      · rintro primed rfl together lower
        rw [exec_legCompareAction]
        exact event_at now (Dev.legCompare_primed acts primed (Dev.compareLevel_second.mpr ⟨together, lower⟩))
    case dead =>
      rw [exec_legDeadTimeEnd]
      exact event_at now (Dev.legDeadEnd_due dead come)
    case prime =>
      rw [exec_legPrimeEnd]
      exact event_at now (if_pos (by simpa [show (d.leg n).counting = true from counting, show (d.leg n).primed = false from unprimed,
        show (d.leg n).periods ≠ 0 from started, free] using come))
    case blank =>
      rw [exec_legBlankEnd]
      obtain ⟨nothing, trips, cuts⟩ := Dev.legBlankEnd_cases n.isLt open_ come
      exact ⟨fun a b => event_at now (nothing a b), fun a b => event_at now (trips a b), fun a b => event_at now (cuts a b)⟩
    case limit =>
      rw [exec_legCurrentCut, exec_legCurrentCut]
      refine ⟨fun open_ => event_at now ((if_neg enabled).trans (if_pos ?_)), fun blanked => event_at now ((if_neg enabled).trans (if_neg ?_)),
        event_at now ((if_neg enabled).trans (if_neg (by simp)))⟩
      · rw [Dev.blanked_wr, open_]
        rfl
      · rw [Dev.blanked_wr, blanked]
        decide
    case dsat =>
      rw [exec_legShortCircuit]
      refine event_at now ((if_pos rfl).trans (if_pos ?_))
      rw [Dev.blanked_wr, open_, Dev.on, Dev.rd_wr_channel wide _ _ _ _ (by decide) (by decide) (by decide)]
      simpa [Dev.on] using enabled
    case masked =>
      rw [exec_legShortCircuit]
      refine event_at now ((if_pos rfl).trans (if_neg ?_))
      rw [Dev.blanked_wr, Dev.on, Dev.rd_wr_channel wide _ _ _ _ (by decide) (by decide) (by decide)]
      obtain disabled | blanked := masked
      · simp [show (d.rd F.legDsatEn n != 0) = false from disabled]
      · simp [blanked]
    case inactive =>
      rw [exec_legShortCircuit]
      exact event_at now ((if_pos rfl).trans (if_neg (by simp)))
    case short =>
      rw [exec_legShortCircuit, exec_legShortCircuit]
      exact ⟨event_at now ((if_neg (by decide)).trans ((if_neg enabled).trans (if_pos rfl))),
        event_at now ((if_neg (by decide)).trans ((if_neg enabled).trans (if_neg (by decide))))⟩
    case pump =>
      rw [exec_pumpDelayExpiry]
      refine event_at now (if_pos ?_)
      rw [show (d.leg n).ghSince = some x from since]
      simp [pump, runs, on_, long]
  case brake =>
    intro d next
    have now : s.dev.advance t = d := rfl
    clear_value d
    refine ⟨fun above => ?crossing, fun free high noMore => ?off, fun input => ?trip, fun due => ?heat⟩
    case crossing =>
      rw [exec_dcovBrakeCrossing, exec_dcovBrakeCrossing]
      exact ⟨event_at now rfl, event_at now rfl⟩
    case off =>
      intro due
      have ends := Dev.brakeUpdate_unasked d free high noMore
      rw [exec_brkMinOnExpiry]
      exact ⟨fun come => event_at now (ends.trans (if_pos come)), fun early => event_at now (ends.trans (if_neg (Bool.eq_false_iff.mp early)))⟩
    case trip =>
      intro tripped
      have leads (active : Bool) : exec (.dcLinkOverVoltage t input active) s =
          let trips := active && (if input = 0 then d.on F.legOv0En else d.on F.legOv1En)
          next (if trips then (((tripped trips).wr F.legOvTripped 1).fault 17 input).raise 0x51 else tripped trips) := by
        rw [exec_dcLinkOverVoltage]
        refine event_at now ?_
        obtain rfl | rfl : input = 0 ∨ input = 1 := by omega
        · rfl
        · rfl
      refine ⟨fun enabled => (leads true).trans ?_, (leads false).trans (congrArg next (if_neg Bool.false_ne_true))⟩
      rw [enabled]
      exact congrArg next (if_pos rfl)
    case heat =>
      rw [exec_brakeHeatTick]
      obtain ⟨tick, heat⟩ := Prod.mk.inj (d.heating_brakeTick due)
      exact ⟨d.brakeTick, event_at now rfl, tick, heat⟩

end Sys2Proof.Machine
end

section
/-!
Every command and every step (R42, R48, R100, R111): what a command answers, what it may do to the fuses, and the block at reset.
-/
namespace Sys2Proof.Machine

/-! ## What every command answers -/

/-- What a command may do to the fuses (R48): nothing, the programming a served packet asks for, a read of the part. -/
inductive Fuse.Programs (f : Fuse) : Fuse → Prop
  | same : f.Programs f
  | burn (d : Dev) : f.Programs (f.burn d)
  | merge (r : FuseRead) : f.Programs (f.merge r)

/-- A command answers a next state with the queue it was given, and does to the fuses only what a command may do. -/
def State.Completes (s : State) (o : Host.Outcome State Fault Refusal) : Prop :=
  ∃ u, o = .next u ∧ u.pending = s.pending ∧ s.fuse.Programs u.fuse

theorem State.completes_fuseReadDone (s : State) (t : Nat) (outcome : Option (FuseRead × Bool)) :
    s.Completes (execFuseReadDone t outcome s) := by
  unfold execFuseReadDone
  split
  · exact ⟨_, rfl, rfl, .same⟩
  · split
    · exact ⟨_, rfl, rfl, .merge _⟩
    · exact ⟨_, rfl, rfl, .same⟩

/-- The fuse read, the rows that serve a packet that may program fuses, and every other row, which acts on the device alone. -/
theorem State.completes_exec (s : State) (c : Instr) : s.Completes (exec c s) := by
  cases c with
  | fuseReadDone t outcome => exact s.completes_fuseReadDone t outcome
  | fuseKeyHash | fuseSignedBoot | manageForwardTimeout | writePacket | readReply | queueRead | manageResp =>
    exact ⟨_, rfl, rfl, .burn _⟩
  | _ => exact ⟨_, rfl, rfl, .same⟩

/-- Settles O53: every row's meaning answers a next state. -/
theorem wellFormedCommandsComplete : Obligations.WellFormedCommandsComplete := by
  unfold Obligations.WellFormedCommandsComplete
  intro c s
  obtain ⟨u, answers, queue, -⟩ := s.completes_exec c
  exact ⟨u, answers, queue⟩

/-! ## The fuses (R48) -/

theorem Fuse.keeps_refl (f : Fuse) : f.keeps f := ⟨id, fun locked => ⟨locked, rfl⟩, fun _ => rfl⟩

/-- Burning locks a hash of eight words where none was locked, and sets signed boot only over a locked hash. -/
theorem Fuse.burn_sound {f : Fuse} (d : Dev) (sound : f.sound) : (f.burn d).sound ∧ f.keeps (f.burn d) := by
  obtain ⟨signs, hash⟩ := sound
  cases locked : f.keyLocked with
  | true =>
    have whole : f.keyHash.length = 8 := hash.resolve_right (by simp [locked])
    exact ⟨⟨fun _ => by simp [Fuse.burn, locked], .inl (by simpa [Fuse.burn, locked] using whole)⟩,
      by simp +contextual [Fuse.keeps, Fuse.burn, locked]⟩
  | false =>
    have unsigned : f.signedBoot = false := by simpa [locked] using signs
    refine ⟨⟨by simp +contextual [Fuse.burn, locked, unsigned], ?_⟩, by simp [Fuse.keeps, Fuse.burn, locked, unsigned]⟩
    cases locks : d.on F.sysKeyLocked with
    | true => exact .inl (by simp [Fuse.burn, locked, locks])
    | false => simpa [Fuse.burn, locked, locks] using hash

/-- A read of the part adds what it finds, and a locked hash stands before a hash that is read. -/
theorem Fuse.merge_sound {f : Fuse} (r : FuseRead) (sound : f.sound) : (f.merge r).sound ∧ f.keeps (f.merge r) := by
  unfold Fuse.merge
  split
  · exact ⟨sound, f.keeps_refl⟩
  next first =>
    have found : f.sound ∧ f.keeps { f with part := some r } := ⟨sound, id, fun locked => ⟨locked, rfl⟩, fun read => absurd first read⟩
    split
    · split
      · exact found
      next unlocked =>
        have unsigned : ¬ f.signedBoot = true := fun signed => unlocked (sound.1 signed)
        exact ⟨⟨fun _ => rfl, .inl (by simp [hashWords])⟩, fun signed => absurd signed unsigned,
          fun locked => absurd locked unlocked, fun read => absurd first read⟩
    · exact found

theorem Fuse.Programs.sound {f g : Fuse} (p : f.Programs g) (sound : f.sound) : g.sound ∧ f.keeps g := by
  cases p with
  | same => exact ⟨sound, f.keeps_refl⟩
  | burn d => exact Fuse.burn_sound d sound
  | merge r => exact Fuse.merge_sound r sound

theorem State.fuse_idle (s : State) : s.idle.fuse = s.fuse := by
  unfold State.idle
  split <;> rfl

/-- A step does to the fuses only what a command may do. -/
theorem step_programs {s u : State} (steps : step s = .next u) : s.fuse.Programs u.fuse := by
  cases front : s.pending with
  | nil =>
    obtain rfl : s.idle = u := Host.Outcome.next.inj ((step_nil front).symm.trans steps)
    exact s.fuse_idle ▸ .same
  | cons c rest =>
    obtain ⟨v, answers, -, p⟩ := State.completes_exec { s with pending := rest } c
    obtain rfl : v = u := Host.Outcome.next.inj (answers.symm.trans ((step_cons front).symm.trans steps))
    exact p

/-- Settles O55: a step leaves the fuses alone, burns them, or adds what a read of the part finds. -/
theorem everyStepKeepsTheFuses : Obligations.EveryStepKeepsTheFuses := by
  unfold Obligations.EveryStepKeepsTheFuses
  exact fun s u sound steps => (step_programs steps).sound sound

/-! ## The block right after reset -/

/-- Settles O54: reset lists no register word, so every field reads as its Reset column. -/
theorem resetLeavesTheBlockIdle : Obligations.ResetLeavesTheBlockIdle := by
  unfold Obligations.ResetLeavesTheBlockIdle
  have fuses : State.reset.fuse.sound := ⟨nofun, .inr ⟨rfl, rfl⟩⟩
  have lanes : ∀ l, l < 55 → State.reset.dev.rd F.laneState l = 0 ∧ State.reset.dev.rd F.laneRate l = 7
      ∧ State.reset.dev.rd F.frmTxAcked l = 255 := by decide
  have classes : ∀ k, k < 128 → State.reset.dev.rd F.fltActive k = 0 := by decide +kernel
  exact ⟨rfl, fuses, rfl, by decide, by decide, by decide, rfl, rfl, lanes, classes, fun k _ => rfl, by decide⟩

end Sys2Proof.Machine
end

section
/-!
Opcodes left over: mode requests and steps (R20, R26, R28, R38), RESET (R43), the image update (R58, R115) and the fuses (R48). Each
handler's answer is a lemma about the handler; an obligation lifts it to the row.
-/
namespace Sys2Proof.Machine

section
variable {c : Ctx} {d : Dev}

/-! ## Mode requests and steps (R20, R26, R28, R38) -/

/-- A mode that the block's variant has is judged against the mode in force. -/
theorem hReqMode_judged {mode : Byte} {target : Mode} (named : modeOf mode.toNat = some target)
    (twin : target = .pilot → d.hasTwin = true) :
    hReqMode mode c d = if target = d.mode then .reply stOk d.modeWord d
      else match d.judgeRequest target with
        | .inl m => .park (.mode mode.toNat) (d.pendRequest c.ticket.src m)
        | .inr r => refuse stModeRefused r d := by
  have served : ¬ (target = .pilot && !d.hasTwin) = true := by simpa using twin
  unfold hReqMode
  rw [named]
  exact if_neg served

theorem hReqMode_inForce {mode : Byte} {target : Mode} (named : modeOf mode.toNat = some target)
    (twin : target = .pilot → d.hasTwin = true) (inForce : target = d.mode) :
    hReqMode mode c d = .reply stOk (le 4 (d.word 0x0002 0)) d := (hReqMode_judged named twin).trans (if_pos inForce)

theorem hReqMode_granted {mode : Byte} {target m : Mode} (named : modeOf mode.toNat = some target)
    (twin : target = .pilot → d.hasTwin = true) (other : target ≠ d.mode) (granted : d.judgeRequest target = .inl m) :
    hReqMode mode c d = .park (.mode mode.toNat) (d.pendRequest c.ticket.src m) := by
  rw [hReqMode_judged named twin, if_neg other, granted]

/-- The block with a sequence due to start at a step. -/
def Dev.stepsFrom (d : Dev) (first : Nat) : Dev :=
  (({ d with steps := { d.steps with startReq := true, contReq := false } }.wr F.stgStepState 1).wr F.stgStepIdx first).wr F.stgStepWait 0

theorem hStepRun_starts {first : Byte} (mode : d.mode = .service ∨ d.mode = .calibrate) (idle : d.stepsActive = false)
    (inRange : first.toNat ≤ 127) : hStepRun first c d = .reply stAccepted [] (d.stepsFrom first.toNat) := by
  have served : (d.mode != .service && d.mode != .calibrate) = false := by rcases mode with m | m <;> simp [m]
  exact orRefuse_passes _ _ (passes_refuseIf (decide_eq_false (by omega)) (passes_refuseIf served (passes_refuseIf idle passes_nil)))

theorem hStepContinue_goesOn (paused : d.rd F.stgStepState = 2) :
    hStepContinue c d = .reply stOk [] { d with steps := { d.steps with contReq := true } } :=
  orRefuse_passes _ _ (passes_refuseIf (by simp [paused]) passes_nil)

end

/-- Settles O9: by opcode, and a mode request by whether it names the mode in force. -/
theorem modeRequestsAndSteps : Obligations.ModeRequestsAndSteps := by
  unfold Obligations.ModeRequestsAndSteps
  intro s t src h
  refine ⟨?request, ?run, ?goOn, ?abort⟩
  case request =>
    intro mode target p d a named twin
    rw [exec_reqMode]
    refine ⟨fun inForce => ?_, fun m other granted => ?_⟩
    · exact p.opcode_answers s (hReqMode mode) _ _ _ a (hReqMode_inForce named twin inForce) (fits_of_le src (by simp))
    · exact p.opcode_parks s (hReqMode mode) _ _ a (hReqMode_granted named twin other granted)
  case run =>
    intro first p d a mode idle inRange
    rw [exec_stepRun]
    exact p.opcode_answers s (hStepRun first) _ _ _ a (hStepRun_starts mode idle inRange) (Nat.zero_le _)
  case goOn =>
    intro p d a paused
    rw [exec_stepContinue]
    exact p.opcode_answers s hStepContinue _ _ _ a (hStepContinue_goesOn paused) (Nat.zero_le _)
  case abort =>
    intro p a
    rw [exec_stepAbort]
    exact p.opcode_answers s hStepAbort _ _ _ a rfl (Nat.zero_le _)

/-! ## RESET (R43, R114) -/

/-- Settles O12: by whether the millisecond after the reply has passed. -/
theorem resetFollowsItsReply : Obligations.ResetFollowsItsReply := by
  unfold Obligations.ResetFollowsItsReply
  intro s t src h p
  refine ⟨fun a => ?reply, ?expiry⟩
  case reply =>
    rw [exec_reset]
    exact p.opcode_answers s (hReset 0) _ _ _ a rfl (Nat.zero_le _)
  case expiry =>
    intro d x due
    rw [exec_resetDelayExpiry]
    refine ⟨fun passed => event_dev ?_, fun runs early => event_dev ?_⟩
    · have go : ¬ (d.timeRuns && !d.spent (x - ticksMs) ticksMs) = true := by
        rcases passed with stands | spent
        · simp [stands]
        · simp [show d.spent (x - ticksMs) ticksMs = true from spent]
      simp only [show (s.dev.advance t).resetAt = some x from due]
      exact if_neg go
    · simp only [show (s.dev.advance t).resetAt = some x from due]
      exact if_pos (by simp [show (s.dev.advance t).timeRuns = true from runs,
        show (s.dev.advance t).spent (x - ticksMs) ticksMs = false from early])

/-! ## The image update (R58, R115) -/

section
variable {c : Ctx} {d : Dev}

theorem hImageBegin_starts {length : BitVec 16} (least : 2 ≤ length.toNat) (most : length.toNat ≤ 16384) :
    let slotB := decide (d.rd F.sysSlotLoaded = 1)
    hImageBegin length c d = .reply stOk (le 1 (flag slotB) ++ zeros 3)
      { d with upd := { active := true, slotB := slotB, length := length.toNat } } := if_neg (by simp; omega)

theorem Dev.imageErased_counts (ok : Bool) (active : d.upd.active = true) (sound : d.upd.failed = false)
    (more : d.upd.erased < eraseBlocks d.upd.length) :
    d.imageErased ok = { d with upd := if ok then { d.upd with erased := d.upd.erased + 1 } else { d.upd with failed := true } } := by
  refine (if_neg (by simp [active, sound, more])).trans ?_
  cases ok with
  | true => rfl
  | false => rfl

/-- An update takes blocks and its end: it runs, nothing of it has failed, and block 0 is not under way. -/
structure ImgUpdate.Open (u : ImgUpdate) : Prop where
  active : u.active = true
  sound : u.failed = false
  unfinished : u.finishing = false

theorem hImageWrite_queues {first : BitVec 16} {blocks : Bytes} (open_ : d.upd.Open) (least : 1 ≤ blocks.length / 256)
    (most : blocks.length / 256 ≤ 15) (after : 1 ≤ first.toNat) (inside : first.toNat + blocks.length / 256 ≤ d.upd.length)
    (erased : (first.toNat + blocks.length / 256 - 1) / 256 < d.upd.erased) :
    hImageWrite first blocks c d = .reply stOk [] { d with upd := { d.upd with
      programming := d.upd.programming ++ (cut 256 blocks).zipIdx.map fun x => (first.toNat + x.2, x.1) } } :=
  orRefuse_passes _ _ (passes_refuseIf (by simp; omega) (passes_refuseIf (by simp [open_.active, open_.sound, open_.unfinished])
    (passes_refuseIf (by simp; omega) (passes_refuseIf (by simp; omega) passes_nil))))

theorem hImageFinish_ends {block0 : Bytes} (open_ : d.upd.Open) (complete : d.upd.complete = true)
    (seq : d.rd F.sysSlotLoaded = 0 ∨ leAt block0 8 4 = (d.rd F.sysImageSeq + 1) % 2 ^ 32) :
    hImageFinish block0 c d = .reply stAccepted [] { d with upd := { d.upd with
      finishing := true, programming := d.upd.programming ++ [(0, block0)] } } :=
  if_neg (by simpa [open_.active, open_.sound, open_.unfinished, complete, or_iff_not_imp_left] using seq)

section
variable {b : Nat × Bytes} {rest : List (Nat × Bytes)}

theorem Dev.imageProgrammed_first (queued : d.upd.programming = b :: rest) (zero : b.1 = 0) :
    d.imageProgrammed true = { d with upd :=
      { d.upd with programming := rest, finishing := false, active := false, done := true } } := by
  simp only [Dev.imageProgrammed, queued]
  exact if_pos zero

theorem Dev.imageProgrammed_other (queued : d.upd.programming = b :: rest) (other : b.1 ≠ 0) :
    d.imageProgrammed true = { d with upd := { d.upd with
      programming := rest, written := if d.upd.written.contains b.1 then d.upd.written else d.upd.written ++ [b.1] } } := by
  simp only [Dev.imageProgrammed, queued]
  exact if_neg other

theorem Dev.imageProgrammed_failed (queued : d.upd.programming = b :: rest) :
    d.imageProgrammed false = { d with upd := { d.upd with failed := true, finishing := false, programming := [] } } := by
  simp only [Dev.imageProgrammed, queued]
  rfl

end

end

/-- Settles O18: by opcode and event of the update. -/
theorem imageUpdateProceeds : Obligations.ImageUpdateProceeds := by
  unfold Obligations.ImageUpdateProceeds
  intro s t src h d
  refine ⟨?begins, ?erases, ?writes, ?programs, ?finishes⟩
  case begins =>
    intro length p slotB a least most
    rw [exec_imageBegin]
    exact p.opcode_answers s (hImageBegin length) _ _ _ a (hImageBegin_starts least most) (fits_of_le src (by simp))
  case erases =>
    intro ok active sound more
    rw [exec_imageEraseDone]
    exact event_dev (Dev.imageErased_counts ok active sound more)
  case writes =>
    intro first blocks p u n pages a whole least most active sound unfinished after inside erased
    rw [exec_imageWrite, execImageWrite, decide_eq_true whole, opcodeLen_eq]
    exact p.opcode_answers s (hImageWrite first blocks) _ _ _ a
      (hImageWrite_queues ⟨active, sound, unfinished⟩ least most after inside erased) (Nat.zero_le _)
  case programs =>
    intro b rest queued
    rw [exec_imageProgramDone, exec_imageProgramDone]
    refine ⟨fun zero => event_dev (Dev.imageProgrammed_first queued zero), fun other fresh => event_dev ?_,
      fun other again => event_dev ?_, event_dev (Dev.imageProgrammed_failed queued)⟩
    · rw [Dev.imageProgrammed_other queued other, fresh]; rfl
    · rw [Dev.imageProgrammed_other queued other, again]; rfl
  case finishes =>
    intro block0 p u a whole active sound unfinished complete seq
    rw [exec_imageFinish, execImageFinish, decide_eq_true whole, opcodeLen_eq]
    exact p.opcode_answers s (hImageFinish block0) _ _ _ a (hImageFinish_ends ⟨active, sound, unfinished⟩ complete seq)
      (Nat.zero_le _)

/-! ## The fuses (R48) -/

/-- A string of whole pieces is cut into as many. -/
theorem chunksOf_length {n : Nat} (some_ : 0 < n) (k fuel : Nat) (bs : Bytes) (whole : bs.length = n * k) (enough : k ≤ fuel) :
    (chunksOf n fuel bs).length = k := by
  induction k generalizing fuel bs with
  | zero =>
    obtain rfl := List.length_eq_zero_iff.mp whole
    cases fuel <;> rfl
  | succ k ih =>
    obtain ⟨fuel, rfl⟩ := Nat.exists_eq_add_of_le' (Nat.le_trans (Nat.le_add_left 1 k) enough)
    have grows : n * (k + 1) = n * k + n := Nat.mul_succ n k
    have unempty : bs.isEmpty = false := by
      cases bs with
      | nil => simp at whole; omega
      | cons => rfl
    simp only [chunksOf, unempty, Bool.false_eq_true, if_false, List.length_cons]
    rw [ih fuel (bs.drop n) (by rw [List.length_drop]; omega) (by omega)]

theorem bytesWords_length {bs : Bytes} {k : Nat} (whole : bs.length = 4 * k) : (bytesWords bs).length = k := by
  rw [bytesWords, List.length_map]
  exact chunksOf_length (by decide) k _ bs whole (by omega)

/-- The words of a key hash written into SYS.KEY_HASH, the first at place k. -/
def Dev.showHash (d : Dev) (ws : List Word) (k : Nat) : Dev := (ws.zipIdx k).foldl (fun d x => d.wr F.sysKeyHash x.1.toNat x.2) d

theorem sysKeyHash_key (i : Nat) : F.sysKeyHash.key i = 0x0012 * 65536 + i := by
  simp [Fld.key, Fld.soAt, Fld.wordAt, wordKey, F.sysKeyHash]

theorem Dev.rd_showHash_other (ws : List Word) (k : Nat) (d : Dev) {f : Fld} {i : Nat}
    (other : ∀ j < ws.length, f.key i ≠ 0x0012 * 65536 + (k + j)) : (d.showHash ws k).rd f i = d.rd f i := by
  induction ws generalizing k d with
  | nil => rfl
  | cons w ws ih =>
    have later : ∀ j < ws.length, f.key i ≠ 0x0012 * 65536 + (k + 1 + j) := fun j below =>
      Nat.add_assoc k 1 j ▸ other (1 + j) (by rw [List.length_cons]; omega)
    have first : F.sysKeyHash.key k ≠ f.key i := by
      rw [sysKeyHash_key]
      exact fun same => other 0 (by simp) (by omega)
    exact (ih (k + 1) (d.wr F.sysKeyHash w.toNat k) later).trans (Dev.rd_wr_key _ _ _ _ _ _ first)

theorem Dev.rd_showHash (ws : List Word) (k : Nat) (d : Dev) (j : Nat) (below : j < ws.length) :
    (d.showHash ws k).rd F.sysKeyHash (k + j) = ws[j].toNat := by
  induction ws generalizing k d j with
  | nil => exact absurd below (Nat.not_lt_zero _)
  | cons w ws ih =>
    cases j with
    | zero =>
      have kept := Dev.rd_showHash_other ws (k + 1) (d.wr F.sysKeyHash w.toNat k) (f := F.sysKeyHash) (i := k)
        (fun j _ => by rw [sysKeyHash_key]; omega)
      exact kept.trans (Dev.rd_wr_fits d k (by decide) w.isLt)
    | succ j =>
      have moved : k + (j + 1) = k + 1 + j := by omega
      rw [moved]
      exact ih (k + 1) (d.wr F.sysKeyHash w.toNat k) j (by simpa using below)

/-- Burning takes the hash that the words show. -/
theorem Fuse.burn_locks {f : Fuse} {d : Dev} {ws : List Word} (unlocked : f.keyLocked = false) (locks : d.on F.sysKeyLocked = true)
    (whole : ws.length = 8) (shows : ∀ i (below : i < ws.length), d.rd F.sysKeyHash i = ws[i].toNat) :
    (f.burn d).keyLocked = true ∧ (f.burn d).keyHash = ws ∧ (f.burn d).part = f.part := by
  refine ⟨by simp [Fuse.burn, locks], ?_, rfl⟩
  simp only [Fuse.burn, unlocked, locks, Bool.not_true, Bool.or_self, Bool.false_eq_true, if_false]
  exact List.ext_getElem (by simp [whole]) fun i below in_ => by simp [shows i in_]

theorem Fuse.burn_signs {f : Fuse} {d : Dev} (locked : f.keyLocked = true) (signs : d.on F.sysSignedBoot = true) :
    f.burn d = { f with signedBoot := true } := by
  obtain ⟨signed, keyLocked, hash, part⟩ := f
  obtain rfl : keyLocked = true := locked
  simp [Fuse.burn, signs]

/-- FUSE_KEY_HASH's block: the hash shown, and locked. -/
def Dev.hashProgrammed (d : Dev) (hash : Bytes) : Dev := (d.wr F.sysKeyLocked 1).showHash (bytesWords hash) 0

theorem hFuseKeyHash_programs {hash : Bytes} {d : Dev} (c : Ctx) (unlocked : d.on F.sysKeyLocked = false) :
    hFuseKeyHash hash c d = .reply stOk [] (d.hashProgrammed hash) := if_neg (by simp [unlocked])

theorem hFuseSignedBoot_programs {d : Dev} (c : Ctx) (locked : d.on F.sysKeyLocked = true) :
    hFuseSignedBoot c d = .reply stOk [] (d.wr F.sysSignedBoot 1) := if_neg (by simp [locked])

theorem Dev.rd_hashProgrammed (d : Dev) (hash : Bytes) :
    (d.hashProgrammed hash).rd F.sysKeyLocked = 1
      ∧ ∀ i (below : i < (bytesWords hash).length), (d.hashProgrammed hash).rd F.sysKeyHash i = (bytesWords hash)[i].toNat := by
  refine ⟨?_, fun i below => ?_⟩
  · refine (Dev.rd_showHash_other _ _ _ fun j below => ?_).trans (Dev.rd_wr_same d F.sysKeyLocked 1 0 (by decide))
    rw [show F.sysKeyLocked.key 0 = 0x0010 * 65536 + 2 from by decide]
    omega
  · have shown := Dev.rd_showHash (bytesWords hash) 0 (d.wr F.sysKeyLocked 1) i below
    rwa [Nat.zero_add] at shown

/-- Settles O19: the reply leaves the words of SYS alone, and the burn takes what they show. -/
theorem fusesAreProgrammed : Obligations.FusesAreProgrammed := by
  unfold Obligations.FusesAreProgrammed
  intro s t src h
  refine ⟨?hash, ?signed⟩
  case hash =>
    intro hash p a whole unlocked fresh
    have eight : (bytesWords hash).length = 8 := bytesWords_length (k := 8) whole
    have quiet : ∀ i < 8, F.sysKeyHash.quiet i = true := by decide
    obtain ⟨locks, shows⟩ := (p.taken s).rd_hashProgrammed hash
    let e := ((p.taken s).hashProgrammed hash).sendReply (p.ticket s) stOk []
    have locksAfter : e.rd F.sysKeyLocked = 1 := (Dev.rd_sendReply _ _ _ _ _ _ (by decide)).trans locks
    have showsAfter : ∀ i (below : i < (bytesWords hash).length), e.rd F.sysKeyHash i = (bytesWords hash)[i].toNat :=
      fun i below => (Dev.rd_sendReply _ _ _ _ _ _ (quiet i (eight ▸ below))).trans (shows i below)
    obtain ⟨locked, burnt, part⟩ := Fuse.burn_locks (d := e) fresh (by simp [Dev.on, locksAfter]) eight showsAfter
    refine ⟨{ p.answered s ((p.taken s).hashProgrammed hash) stOk [] with fuse := s.fuse.burn e }, ?_, rfl, part, locked, burnt,
      locksAfter⟩
    rw [exec_fuseKeyHash, execFuseKeyHash, decide_eq_true whole]
    exact p.liftFuse_answers s (hFuseKeyHash hash) _ _ _ a (hFuseKeyHash_programs _ unlocked) (Nat.zero_le _)
  case signed =>
    intro p a shown locked
    let e := ((p.taken s).wr F.sysSignedBoot 1).sendReply (p.ticket s) stOk []
    have signs : e.rd F.sysSignedBoot = 1 :=
      (Dev.rd_sendReply _ _ _ _ _ _ (by decide)).trans (Dev.rd_wr_same _ F.sysSignedBoot 1 0 (by decide))
    refine ⟨{ p.answered s ((p.taken s).wr F.sysSignedBoot 1) stOk [] with fuse := s.fuse.burn e }, ?_, rfl,
      Fuse.burn_signs (d := e) locked (by simp [Dev.on, signs]), signs⟩
    rw [exec_fuseSignedBoot]
    exact p.liftFuse_answers s hFuseSignedBoot _ _ _ a (hFuseSignedBoot_programs _ shown) (Nat.zero_le _)

end Sys2Proof.Machine
end

section
/-!
Start-up (chapter 2): Spark's order (R42, R46 to R48, R65, R72 to R74) and what outlives a reset (R43, R44, R356, R400, R412, R428). Fields
of chains of writes are read off by `Dev.rd_wr_same` and `Dev.rd_wr_apart`.
-/
namespace Sys2Proof.Machine

/-! ## Spark (R42, R46 to R48) -/

section
variable {d : Dev}

theorem Dev.mode_of_rd {m : Mode} (shows : d.rd F.sysMode = modeCode m) : d.mode = m := by
  rw [Dev.mode, shows]
  cases m <;> rfl

/-- The block when Spark has started (R42, R65). -/
def Dev.sparkStarted (d : Dev) (refSel : Bool) : Dev :=
  ((((({ d with boot := { d.boot with stage := .sparkFuses } }.wr F.clkRefSel (flag refSel)).wr F.clkRefActive (flag refSel)).wr
    F.clkLocked 0).wr F.sysMode 1).wr F.sysModePrev 0).wr F.sysModeSeq 0

theorem Dev.rd_sparkStarted (refSel : Bool) :
    (d.sparkStarted refSel).rd F.clkRefSel = flag refSel ∧ (d.sparkStarted refSel).rd F.clkRefActive = flag refSel
      ∧ (d.sparkStarted refSel).rd F.sysMode = 1 ∧ (d.sparkStarted refSel).rd F.sysModePrev = 0
      ∧ (d.sparkStarted refSel).rd F.sysModeSeq = 0 ∧ (d.sparkStarted refSel).rd F.clkLocked = 0 := by
  simp (disch := decide) only [Dev.sparkStarted, Dev.rd_wr_same, Dev.rd_wr_apart]
  cases refSel <;> decide

/-- The block when the PLL has locked in Spark (R73, R74). -/
def Dev.sparkLocked (d : Dev) (band : Nat) : Dev :=
  (({ d with boot := { d.boot with stage := .sparkRamp } }.wr F.clkLocked 1).wr F.clkRamping 1).wr F.clkBand band

theorem Dev.rd_sparkLocked {band : Nat} (inRange : band < 32) : (d.sparkLocked band).rd F.clkLocked = 1
    ∧ (d.sparkLocked band).rd F.clkRamping = 1 ∧ (d.sparkLocked band).rd F.clkBand = band := by
  simp (disch := decide) only [Dev.sparkLocked, Dev.rd_wr_same, Dev.rd_wr_apart]
  exact ⟨rfl, rfl, Nat.mod_eq_of_lt inRange⟩

/-- The block when Spark gives way to Kindle (R46 step 6), but for the raise of the change of mode. -/
def Dev.kindleEntered (d : Dev) : Dev :=
  (({ d with boot := { d.boot with stage := .kindle } }.wr F.sysMode 2).wr F.sysModePrev 1).wr F.sysModeSeq 1

theorem Dev.kindleEntered_shows : (d.kindleEntered.raise 0x02).boot = { d.boot with stage := .kindle }
    ∧ (d.kindleEntered.raise 0x02).mode = .kindle ∧ (d.kindleEntered.raise 0x02).rd F.sysModePrev = 1
    ∧ (d.kindleEntered.raise 0x02).rd F.sysModeSeq = 1 := by
  obtain ⟨boot, -⟩ := (Dev.near_raise d.kindleEntered 0x02 0 (by decide)).keeps
  have shows : (d.kindleEntered.raise 0x02).rd F.sysMode = 2 ∧ (d.kindleEntered.raise 0x02).rd F.sysModePrev = 1
      ∧ (d.kindleEntered.raise 0x02).rd F.sysModeSeq = 1 := by
    simp (disch := decide) only [Dev.rd_raise, Dev.kindleEntered, Dev.rd_wr_same, Dev.rd_wr_apart]
    decide
  exact ⟨boot, Dev.mode_of_rd shows.1, shows.2⟩

theorem Fld.key_from (f : Fld) {so : Nat} (own : f.so = so) (one : f.soN = 1) (i : Nat) : so * 65536 ≤ f.key i := by
  simp only [Fld.key, Fld.soAt, wordKey, own, one, if_true]
  omega

/-- The spares of the banks, written into the words of MEM from bank k on. -/
def Dev.showSpares (d : Dev) (xs : List (Nat × Nat)) (k : Nat) : Dev :=
  (xs.zipIdx k).foldl (fun d x => (d.wr F.memBRows x.1.1 x.2).wr F.memBCols x.1.2 x.2) d

theorem Dev.rd_showSpares (xs : List (Nat × Nat)) (k : Nat) (d : Dev) {f : Fld} {i : Nat} (before : f.key i < 0x1105 * 65536) :
    (d.showSpares xs k).rd f i = d.rd f i := by
  have bank (g : Fld) (so : g.so = 0x1105) (one : g.soN = 1) (n : Nat) : g.key n ≠ f.key i :=
    Nat.ne_of_gt (Nat.lt_of_lt_of_le before (g.key_from so one n))
  exact Dev.rd_foldl _ _ _ _ _ fun e x _ =>
    (Dev.rd_wr_key _ _ _ _ _ _ (bank F.memBCols rfl rfl x.2)).trans (Dev.rd_wr_key _ _ _ _ _ _ (bank F.memBRows rfl rfl x.2))

/-- The unique identifier, written into its four words. -/
def Dev.showUid (d : Dev) (uid : BitVec 128) : Dev :=
  (List.range 4).foldl (fun d i => d.wr F.sysUid (uid.extractLsb' (32 * i) 32).toNat i) d

theorem Dev.rd_showUid (d : Dev) (uid : BitVec 128) {f : Fld} {i : Nat} (other : f.key i < 0x0011 * 65536) :
    (d.showUid uid).rd f i = d.rd f i :=
  Dev.rd_foldl _ _ _ _ _ fun _ n _ =>
    Dev.rd_wr_key _ _ _ _ _ _ (Nat.ne_of_gt (Nat.lt_of_lt_of_le other (F.sysUid.key_from rfl rfl n)))

/-- The capability words of a part (R64). -/
def Dev.showCaps (d : Dev) (v : Variant) : Dev :=
  let (lanes, ports, twin, acq, loops, gib, cells) := variantCaps v
  (((((((d.wr F.sysVariant (variantCode v)).wr F.sysCellLanes lanes).wr F.sysDownPorts ports).wr F.sysTwinPresent twin).wr
    F.sysAcqLevel acq).wr F.sysLoopSlots loops).wr F.sysDramMaxGib gib).wr F.sysCellSlots cells

theorem Dev.showCaps_regs (v : Variant) : d.OnlyRegs (d.showCaps v) :=
  ((((((((Dev.OnlyRegs.refl d).wr _ _ _).wr _ _ _).wr _ _ _).wr _ _ _).wr _ _ _).wr _ _ _).wr _ _ _).wr _ _ _

theorem Dev.showFuses_eq {f : Fuse} {r : FuseRead} (part : f.part = some r) (corrected : Bool) : d.showFuses f corrected =
    (((((((d.showCaps r.variant).wr F.sysSignedBoot (flag f.signedBoot)).wr F.sysKeyLocked (flag f.keyLocked)).showUid r.uid).showHash
      (f.keyHash.take 8) 0).showSpares (r.spares.take 96) 0).wr F.sysFuseCorr (flag corrected)).wr F.sysRepairUsed
        (flag r.repairUsed) := by
  unfold Dev.showFuses
  rw [part]
  rfl

theorem Dev.showFuses_regs {f : Fuse} {r : FuseRead} (part : f.part = some r) (corrected : Bool) :
    d.OnlyRegs (d.showFuses f corrected) := by
  rw [Dev.showFuses_eq part]
  have caps := ((d.showCaps_regs r.variant).wr F.sysSignedBoot (flag f.signedBoot) 0).wr F.sysKeyLocked (flag f.keyLocked) 0
  have uid := caps.foldl (fun d i => d.wr F.sysUid (r.uid.extractLsb' (32 * i) 32).toNat i) (List.range 4) fun _ _ k => k.wr _ _ _
  have hash := uid.foldl (fun d x => d.wr F.sysKeyHash x.1.toNat x.2) (f.keyHash.take 8).zipIdx fun _ _ k => k.wr _ _ _
  have spares := hash.foldl (fun d x => (d.wr F.memBRows x.1.1 x.2).wr F.memBCols x.1.2 x.2) (r.spares.take 96).zipIdx
    fun _ _ k => (k.wr _ _ _).wr _ _ _
  exact (spares.wr _ _ _).wr _ _ _

/-- The words that stand before those of SYS.UID, and not beside SYS.FUSE_CORR, show the capabilities and what is programmed. -/
theorem Dev.rd_showFuses {f : Fuse} {r : FuseRead} (part : f.part = some r) (corrected : Bool) {g : Fld}
    (before : g.key 0 < 0x0011 * 65536) (beside : F.sysFuseCorr.key 0 ≠ g.key 0) :
    (d.showFuses f corrected).rd g =
      (((d.showCaps r.variant).wr F.sysSignedBoot (flag f.signedBoot)).wr F.sysKeyLocked (flag f.keyLocked)).rd g := by
  rw [Dev.showFuses_eq part, Dev.rd_wr_key _ F.sysRepairUsed _ _ _ _ beside, Dev.rd_wr_key _ F.sysFuseCorr _ _ _ _ beside,
    Dev.rd_showSpares _ _ _ (by omega), Dev.rd_showHash_other _ _ _ (fun j _ => by omega), Dev.rd_showUid _ _ before]

theorem Dev.rd_showCaps (v : Variant) (signed locked : Bool) :
    let e := ((d.showCaps v).wr F.sysSignedBoot (flag signed)).wr F.sysKeyLocked (flag locked)
    e.rd F.sysVariant = variantCode v
      ∧ variantCaps v = (e.rd F.sysCellLanes, e.rd F.sysDownPorts, e.rd F.sysTwinPresent, e.rd F.sysAcqLevel, e.rd F.sysLoopSlots,
          e.rd F.sysDramMaxGib, e.rd F.sysCellSlots)
      ∧ e.rd F.sysSignedBoot = flag signed ∧ e.rd F.sysKeyLocked = flag locked := by
  intro e
  simp (disch := decide) only [e, Dev.showCaps, Dev.rd_wr_same, Dev.rd_wr_apart]
  refine ⟨?_, ?_, flag_mod_two signed, flag_mod_two locked⟩
  · cases v <;> rfl
  · cases v <;> rfl

/-- What a good read of the fuses leaves in the words of SYS (R46, R64, R475). -/
theorem Dev.showFuses_shows {f : Fuse} {r : FuseRead} (part : f.part = some r) (corrected : Bool) :
    let e := d.showFuses f corrected
    e.rd F.sysVariant = variantCode r.variant
      ∧ variantCaps r.variant = (e.cellLanes, e.downPorts, e.rd F.sysTwinPresent, e.acqLevel, e.loopSlots, e.rd F.sysDramMaxGib,
          e.cellSlots)
      ∧ e.rd F.sysSignedBoot = flag f.signedBoot ∧ e.rd F.sysKeyLocked = flag f.keyLocked
      ∧ e.rd F.sysFuseCorr = flag corrected ∧ e.rd F.sysRepairUsed = flag r.repairUsed := by
  intro e
  have own {g : Fld} := Dev.rd_showFuses (d := d) part corrected (g := g)
  obtain ⟨variant, caps, signed, locked⟩ := d.rd_showCaps r.variant f.signedBoot f.keyLocked
  have ends : e.rd F.sysFuseCorr = flag corrected ∧ e.rd F.sysRepairUsed = flag r.repairUsed := by
    simp (disch := decide) only [e, Dev.showFuses_eq part, Dev.rd_wr_same, Dev.rd_wr_apart]
    exact ⟨flag_mod_two corrected, flag_mod_two r.repairUsed⟩
  refine ⟨(own (by decide) (by decide)).trans variant, caps.trans ?_, (own (by decide) (by decide)).trans signed,
    (own (by decide) (by decide)).trans locked, ends⟩
  simp (disch := decide) only [e, Dev.cellLanes, Dev.downPorts, Dev.acqLevel, Dev.loopSlots, Dev.cellSlots, own]

end

/-- Settles O21: step by step of Spark. -/
theorem sparkRunsInOrder : Obligations.SparkRunsInOrder := by
  unfold Obligations.SparkRunsInOrder
  intro s t d next at_
  refine ⟨?starts, ?reads, ?unread, ?unlocked, ?locks, ?ramps, ?clears⟩
  case starts =>
    intro refSel waiting
    obtain ⟨sel, active, mode, prev, seq, unlocked⟩ := d.rd_sparkStarted refSel
    have regs : Dev.OnlyRegs { d with boot := at_ .sparkFuses } (d.sparkStarted refSel) :=
      ((((((Dev.OnlyRegs.refl _).wr _ _ _).wr _ _ _).wr _ _ _).wr _ _ _).wr _ _ _).wr _ _ _
    rw [exec_sparkStart]
    exact ⟨d.sparkStarted refSel, event_dev (if_pos waiting), regs, sel, active, Dev.mode_of_rd mode, prev, seq, unlocked⟩
  case reads =>
    intro r r0 corrected stage part
    let read : Dev := { s.dev with boot := { s.dev.boot with stage := .sparkPll } }
    rw [exec_fuseReadDone]
    obtain ⟨_, regs⟩ := Dev.showFuses_regs (d := read) part corrected
    exact ⟨{ s with fuse := s.fuse.merge r, dev := read.showFuses (s.fuse.merge r) corrected }, if_pos stage, rfl, rfl,
      congrArg Dev.boot regs, Dev.showFuses_shows part corrected⟩
  case unread =>
    intro stage
    rw [exec_fuseReadDone]
    exact event_dev (if_pos stage)
  case unlocked =>
    intro stage
    rw [exec_sparkPllTimeout]
    exact event_dev (if_pos stage)
  case locks =>
    intro band refCycles stage
    have regs : Dev.OnlyRegs { d with boot := at_ .sparkRamp } (d.sparkLocked band) :=
      (((Dev.OnlyRegs.refl _).wr _ _ _).wr _ _ _).wr _ _ _
    rw [exec_pllLocked]
    exact ⟨d.sparkLocked band, event_dev (if_pos stage), regs, d.rd_sparkLocked band.isLt⟩
  case ramps =>
    intro stage ramping
    rw [exec_rampEnd]
    refine event_dev ((if_pos ramping).trans ?_)
    simp only [show (s.dev.advance t).boot.stage = _ from stage, if_true]; rfl
  case clears =>
    intro stage
    rw [exec_sramInitDone]
    exact ⟨d.kindleEntered.raise 0x02, event_dev (if_pos stage), d.kindleEntered_shows⟩

/-! ## Resets (R43, R44, R356, R400, R412) -/

section
variable (d : Dev)

/-- The block at a reset without a cause: as at power-on but for the calibration store, whose page under way is broken (R356). -/
def Dev.cleared (d : Dev) : Dev :=
  { cal := { pages := d.cal.pages, counts := d.cal.counts
             broken := match d.cal.writing with | some w => d.cal.broken ++ [w.1] | none => d.cal.broken }
    fresh := d.fresh }

/-- The block at a reset with a cause, before the words that outlive it are written: the fault history stands (R412). -/
def Dev.recalled (d : Dev) : Dev := { d.cleared with coll := { ({} : Collector) with history := d.coll.history } }

theorem Dev.resetWith_eq {cause : Nat} (named : cause ≠ 0) (rail : Nat) : d.resetWith cause rail =
    ((((((d.recalled.wr F.sysResetCount (min 65535 (d.rd F.sysResetCount + 1))).wr F.sysResetCause cause).wr F.sysResetRail rail).wr
      F.twinEpoch (d.rd F.twinEpoch)).wr F.fltHistSeq (d.rd F.fltHistSeq)).wr F.fltHistBoot (d.rd F.fltHistSeq)).wr F.fltHistFill
        (d.rd F.fltHistFill) := if_neg named

theorem Dev.resetWith_regs {cause : Nat} (named : cause ≠ 0) (rail : Nat) : d.recalled.OnlyRegs (d.resetWith cause rail) := by
  rw [d.resetWith_eq named]
  exact (((((((Dev.OnlyRegs.refl _).wr _ _ _).wr _ _ _).wr _ _ _).wr _ _ _).wr _ _ _).wr _ _ _).wr _ _ _

/-- The words that outlive a reset. -/
theorem Dev.rd_resetWith {cause rail : Nat} (named : cause ≠ 0) (causeFits : cause < 16) (railFits : rail < 16) :
    let e := d.resetWith cause rail
    e.rd F.sysResetCause = cause ∧ e.rd F.sysResetRail = rail ∧ e.rd F.sysResetCount = min 65535 (d.rd F.sysResetCount + 1)
      ∧ e.rd F.twinEpoch = d.rd F.twinEpoch ∧ e.rd F.fltHistSeq = d.rd F.fltHistSeq ∧ e.rd F.fltHistBoot = d.rd F.fltHistSeq
      ∧ e.rd F.fltHistFill = d.rd F.fltHistFill := by
  intro e
  simp (disch := decide) only [e, d.resetWith_eq named, Dev.rd_wr_same, Dev.rd_wr_apart]
  exact ⟨Nat.mod_eq_of_lt causeFits, Nat.mod_eq_of_lt railFits, Nat.mod_eq_of_lt (show min 65535 _ < 2 ^ 16 by omega),
    Nat.mod_eq_of_lt (d.rd_lt F.twinEpoch 0), Nat.mod_eq_of_lt (d.rd_lt F.fltHistSeq 0), Nat.mod_eq_of_lt (d.rd_lt F.fltHistSeq 0),
    Nat.mod_eq_of_lt (d.rd_lt F.fltHistFill 0)⟩

/-- The fields whose words outlive a reset. -/
def outliving : List Fld :=
  [F.sysResetCount, F.sysResetCause, F.sysResetRail, F.twinEpoch, F.fltHistSeq, F.fltHistBoot, F.fltHistFill]

theorem Dev.rd_resetWith_other {cause : Nat} (named : cause ≠ 0) (rail : Nat) {f : Fld} {i : Nat}
    (other : ∀ g ∈ outliving, f.key i ≠ g.key 0) : (d.resetWith cause rail).rd f i = State.reset.dev.rd f i := by
  have skip (e : Dev) (g : Fld) (v : Nat) (kept : g ∈ outliving) : (e.wr g v).rd f i = e.rd f i :=
    Dev.rd_wr_key _ _ _ _ _ _ (other g kept).symm
  rw [d.resetWith_eq named, skip _ F.fltHistFill, skip _ F.fltHistBoot, skip _ F.fltHistSeq, skip _ F.twinEpoch, skip _ F.sysResetRail,
    skip _ F.sysResetCause, skip _ F.sysResetCount]
  · rfl
  all_goals decide

end

/-- Settles O22: power-on keeps the calibration store alone, and a named cause keeps the words that outlive it. -/
theorem resetsKeepWhatOutlivesThem : Obligations.ResetsKeepWhatOutlivesThem := by
  unfold Obligations.ResetsKeepWhatOutlivesThem
  intro s t d kept clean is
  have caused (cause rail : Nat) (named : cause ≠ 0) (causeFits : cause < 16) (railFits : rail < 16) :
      is (.next { s with dev := d.resetWith cause rail }) cause rail := by
    obtain ⟨regs, same⟩ := d.resetWith_regs named rail
    have store : clean (d.resetWith cause rail) := by rw [same]; exact ⟨rfl, rfl, rfl, regs, rfl⟩
    have history : (d.resetWith cause rail).coll = { ({} : Collector) with history := d.coll.history } := congrArg Dev.coll same
    obtain ⟨atCause, atRail, count, epoch, seq, boot, fill⟩ := d.rd_resetWith named causeFits railFits
    exact ⟨_, rfl, store, atCause, atRail, count, epoch, history, seq, boot, fill,
      fun f i other => d.rd_resetWith_other named rail other⟩
  have rails (r : Rail) : railCode r < 16 := by cases r <;> decide
  refine ⟨?powerOn, ?pin, fun r => ?rail, fun late lasts => ?watchdog⟩
  case powerOn =>
    rw [exec_deviceReset]
    exact ⟨d.cleared, rfl, ⟨rfl, rfl, rfl, d.cleared.regs, rfl⟩, rfl, rfl⟩
  case pin =>
    rw [exec_deviceReset, execDeviceReset, event_dev (show (s.dev.advance t).deviceReset .pornPin
      = d.resetWith (if d.boot.stage = .stopped then 5 else 1) 0 by simp [Dev.deviceReset, d])]
    exact caused _ _ (by split <;> decide) (by split <;> decide) (by decide)
  case rail =>
    rw [exec_deviceReset, execDeviceReset, event_dev (show (s.dev.advance t).deviceReset (.railMonitor r)
      = d.resetWith (if d.boot.stage = .stopped then 5 else 2) (railCode r) by simp [Dev.deviceReset, d])]
    exact caused _ _ (by split <;> decide) (by split <;> decide) (rails r)
  case watchdog =>
    have due : (d.island.watchdogLate && d.islandSpent d.island.lateAt 100000) = true := by rw [late, lasts]; rfl
    rw [exec_watchdogReset, execWatchdogReset, event_eq, if_pos due]
    exact caused 4 0 (by decide) (by decide) (by decide)

end Sys2Proof.Machine
end

section
/-!
Kindle (R50 to R56): each read of flash as the header or the block in hand makes it, the signature, the training of DRAM.
-/
namespace Sys2Proof.Machine

section
variable {d : Dev} {b : Bytes}

/-! ## Headers (R50, R53) -/

theorem Dev.headerRead_again {slotB : Bool} (kindle : d.boot.stage = .kindle) (turn : d.boot.headersRead = flag slotB)
    (bad : blockGood b = false) (few : d.boot.rereads < 3) :
    d.headerRead slotB b = { d with boot := { d.boot with rereads := d.boot.rereads + 1 } }.bump F.sysBootRereads := by
  unfold Dev.headerRead
  rw [if_neg (by rw [kindle, turn]; cases slotB <;> decide), if_pos (by simp [bad, few])]

/-- The header that a read of block 0 gives: none of a block that stays bad. -/
def headerOf (b : Bytes) : Option ImgHdr := if blockGood b then parseHeader b else none

/-- Start-up with a header of slot A read, or of slot B. -/
def Boot.withHeader (x : Boot) (slotB : Bool) (b : Bytes) : Boot :=
  let boot := { x with headersRead := x.headersRead + 1, rereads := 0 }
  if slotB then { boot with hdrB := headerOf b, blockB := b.take 252 } else { boot with hdrA := headerOf b, blockA := b.take 252 }

theorem Dev.headerRead_done {slotB : Bool} (kindle : d.boot.stage = .kindle) (turn : d.boot.headersRead = flag slotB)
    (done : blockGood b = true ∨ 3 ≤ d.boot.rereads) :
    d.headerRead slotB b =
      let e : Dev := { d with boot := d.boot.withHeader slotB b }
      let e := if (headerOf b).isNone then e.wr (slotCause slotB) 2 else e
      if slotB then e.tryNext 3 else e := by
  unfold Dev.headerRead
  rw [if_neg (by rw [kindle, turn]; cases slotB <;> decide), if_neg (by simpa [imp_iff_not_or] using done)]
  rfl

/-- Slot A's header read. -/
theorem Dev.headerRead_first (kindle : d.boot.stage = .kindle) (turn : d.boot.headersRead = 0)
    (done : blockGood b = true ∨ 3 ≤ d.boot.rereads) :
    let boot : Boot := { d.boot with headersRead := 1, rereads := 0, blockA := b.take 252, hdrA := headerOf b }
    d.headerRead false b = if (headerOf b).isNone then ({ d with boot := boot } : Dev).wr F.sysSlotACause 2 else { d with boot := boot } := by
  rw [Dev.headerRead_done (slotB := false) kindle turn done, Boot.withHeader, turn]
  rfl

/-- Of two valid headers that nothing rejects, the slot of the larger IMAGE_SEQ is tried. -/
theorem Dev.tryNext_both {x y : ImgHdr} (fuel : Nat) (hdrA : d.boot.hdrA = some x) (hdrB : d.boot.hdrB = some y)
    (causeA : d.rd F.sysSlotACause = 0) (causeB : d.rd F.sysSlotBCause = 0)
    (sound : ∀ h ∈ [x, y], headerCause (d.rd F.sysFwRelease) (d.on F.sysSignedBoot) h = none) :
    let slotB := decide (x.seq < y.seq)
    d.tryNext (fuel + 1) = { d with boot := { d.boot with
      trying := some slotB, next := 1, blocks := d.boot.header slotB, rereads := 0, sigWait := false } } := by
  have soundA := sound x (by simp)
  have soundB := sound y (by simp)
  unfold Dev.tryNext
  simp only [slotCause, Boot.hdr, if_true, Bool.false_eq_true, if_false, causeA, causeB, hdrA, hdrB]
  by_cases larger : x.seq < y.seq
  · simp only [larger, if_true, soundB, decide_true]
  · simp only [larger, if_false, soundA, decide_false]

/-! ## Blocks (R53) -/

/-- The block being read belongs to a slot under way. -/
structure Boot.Reading (x : Boot) (slotB : Bool) (h : ImgHdr) : Prop where
  kindle : x.stage = .kindle
  trying : x.trying = some slotB
  hdr : x.hdr slotB = some h
  open_ : x.accepted = false
  unsigned : x.sigWait = false

/-- Start-up with one more block of the slot under way. -/
def Boot.withBlock (x : Boot) (b : Bytes) : Boot :=
  { x with blocks := tset (fun _ => []) x.blocks x.next (b.take 252), next := x.next + 1, rereads := 0 }

theorem Dev.blockRead_eq {slotB : Bool} {h : ImgHdr} (r : d.boot.Reading slotB h) : d.blockRead b =
    if blockGood b = false then
      if d.boot.rereads < 3 then { d with boot := { d.boot with rereads := d.boot.rereads + 1 } }.bump F.sysBootRereads
      else (d.wr (if slotB then F.sysFailBlockB else F.sysFailBlockA) d.boot.next).rejectSlot slotB 3
    else
      let e : Dev := { d with boot := d.boot.withBlock b }
      if d.boot.next + 1 < h.length then e
      else if d.on F.sysSignedBoot = true then { d with boot := { d.boot.withBlock b with sigWait := true } }
      else e.acceptSlot slotB h false := by
  obtain ⟨kindle, trying, hdr, open_, unsigned⟩ := r
  unfold Dev.blockRead
  rw [trying]
  dsimp only
  rw [hdr]
  dsimp only
  rw [if_neg (by simp [kindle, open_, unsigned])]
  simp only [Bool.not_eq_true']
  rfl

/-! ## The signature (R54) -/

theorem Dev.signature_eq {slotB : Bool} {h : ImgHdr} (trying : d.boot.trying = some slotB) (hdr : d.boot.hdr slotB = some h)
    (waits : d.boot.sigWait = true) :
    let last := tget (fun _ => []) d.boot.blocks (h.length - 1)
    d.signature =
      if sha256 (last.take 32) ≠ (List.range 8).flatMap fun i => le 4 (d.rd F.sysKeyHash i) then d.rejectSlot slotB 7
      else if Config.ed25519 (last.take 32) (d.boot.signedBytes h) ((last.drop 32).take 64) = false ∨ zeroRange last 96 156 = false then
        d.rejectSlot slotB 8
      else d.acceptSlot slotB h true := by
  unfold Dev.signature
  rw [trying]
  dsimp only
  rw [hdr]
  simp only [waits, Bool.not_true, Bool.false_eq_true, if_false, bne_iff_ne, Bool.or_eq_true, Bool.not_eq_true']

/-! ## DRAM (R56, R452, R453) -/

theorem Dev.rd_dramTrained (d : Dev) (ranks : Fin 4) {mib : Nat} (fits : mib ≤ 8192) :
    let e := (((d.wr F.memDramOk 1).wr F.memRanks ranks).wr F.memDramMib mib).wr F.memDataPages (mib * 1048576 / 1088)
    e.rd F.memDramOk = 1 ∧ e.rd F.memRanks = ranks.val ∧ e.rd F.memDramMib = mib ∧ e.rd F.memDataPages = mib * 1048576 / 1088 := by
  intro e
  simp (disch := decide) only [e, Dev.rd_wr_same, Dev.rd_wr_apart]
  exact ⟨rfl, Nat.mod_eq_of_lt ranks.isLt, Nat.mod_eq_of_lt (show mib < 2 ^ 14 by omega),
    Nat.mod_eq_of_lt (show mib * 1048576 / 1088 < 2 ^ 32 by omega)⟩

theorem Dev.rd_dramUntrained (d : Dev) :
    let e := ((d.wr F.memDramOk 0).wr F.memDramMib 0).wr F.memDataPages 0
    e.rd F.memDramOk = 0 ∧ e.rd F.memDramMib = 0 ∧ e.rd F.memDataPages = 0 := by
  intro e
  simp (disch := decide) only [e, Dev.rd_wr_same, Dev.rd_wr_apart]
  exact ⟨rfl, rfl, rfl⟩

end

/-- Settles O23: by what is read, and whether it is good. -/
theorem kindleJudgesTheSlots : Obligations.KindleJudgesTheSlots := by
  unfold Obligations.KindleJudgesTheSlots
  intro s t b d next first kindle
  refine ⟨?again, ?headerA, ?noHeaderA, ?headerB, ?block, ?signature, ?trained, ?untrained⟩
  case again =>
    intro slotB turn bad few
    rw [exec_kindleHeaderRead]
    exact event_dev (Dev.headerRead_again kindle turn bad few)
  case headerA =>
    intro h turn good parsed
    have header : headerOf b = some h := (if_pos good).trans parsed
    have read := Dev.headerRead_first kindle turn (.inl good)
    rw [header] at read
    rw [exec_kindleHeaderRead]
    exact event_dev read
  case noHeaderA =>
    intro turn cause
    have header : headerOf b = none := by
      rcases cause with ⟨bad, -⟩ | ⟨good, none_⟩
      · exact if_neg (by simp [bad])
      · exact (if_pos good).trans none_
    have read := Dev.headerRead_first kindle turn (cause.symm.imp And.left And.right)
    rw [header] at read
    rw [exec_kindleHeaderRead]
    exact event_dev read
  case headerB =>
    intro x y turn good parsed hdrA causeA causeB sound slotB
    have header : headerOf b = some y := (if_pos good).trans parsed
    have read := Dev.headerRead_done (slotB := true) kindle turn (.inl good)
    let e : Dev := { d with boot := { d.boot with headersRead := 2, rereads := 0, hdrB := some y, blockB := b.take 252 } }
    have started : ({ d with boot := d.boot.withHeader true b } : Dev) = e := by
      rw [Boot.withHeader, turn, header]; rfl
    rw [started, header] at read
    rw [exec_kindleHeaderRead]
    exact event_dev (read.trans (Dev.tryNext_both (d := e) 2 hdrA rfl causeA causeB sound))
  case block =>
    intro slotB h trying hdr open_ unsigned got
    have read := Dev.blockRead_eq (b := b) ⟨kindle, trying, hdr, open_, unsigned⟩
    rw [exec_kindleBlockRead]
    refine ⟨fun bad few => event_dev ?_, fun bad many => event_dev ?_, fun good more => event_dev ?_,
      fun good last signed => event_dev ?_, fun good last free => event_dev ?_⟩
    · exact read.trans ((if_pos bad).trans (if_pos few))
    · exact read.trans ((if_pos bad).trans (if_neg (Nat.not_lt.mpr many)))
    · exact read.trans ((if_neg (by simp [good])).trans (if_pos more))
    · exact read.trans ((if_neg (by simp [good])).trans ((if_neg (Nat.not_lt.mpr last)).trans (if_pos signed)))
    · exact read.trans ((if_neg (by simp [good])).trans ((if_neg (Nat.not_lt.mpr last)).trans (if_neg (Bool.eq_false_iff.mp free))))
  case signature =>
    intro slotB h trying hdr waits last known signs
    have judged := Dev.signature_eq trying hdr waits
    rw [exec_signatureVerified]
    refine ⟨fun key good zero => event_dev ?_, fun other => event_dev ?_, fun key bad => event_dev ?_⟩
    · refine judged.trans ((if_neg (not_not_intro key)).trans (if_neg ?_))
      rintro (unsigned | nonzero)
      · exact Bool.false_ne_true (unsigned.symm.trans good)
      · exact Bool.false_ne_true (nonzero.symm.trans zero)
    · exact judged.trans (if_pos other)
    · exact judged.trans ((if_neg (not_not_intro key)).trans (if_pos bad))
  case trained =>
    intro ranks mib gib
    have fits : min mib (1024 * d.rd F.sysDramMaxGib) ≤ 8192 := by omega
    obtain ⟨ok, rank, size, pages⟩ := d.rd_dramTrained ranks fits
    rw [exec_dramTrainingDone]
    exact ⟨_, event_dev ((if_neg (not_not_intro kindle)).trans (if_pos rfl)), ok, rank, size, pages, by simp only [Dev.wr_frame, d]⟩
  case untrained =>
    intro ranks mib
    let e : Dev := { d with boot := { d.boot with dramFailed := true } }
    obtain ⟨ok, size, pages⟩ := e.rd_dramUntrained
    rw [exec_dramTrainingDone]
    exact ⟨((e.wr F.memDramOk 0).wr F.memDramMib 0).wr F.memDataPages 0,
      event_dev ((if_neg (not_not_intro kindle)).trans (if_neg Bool.false_ne_true)), ok, size, pages, by simp only [Dev.wr_frame, e]⟩

end Sys2Proof.Machine
end

section
/-!
Clocks and temperature (R43, R67 to R77, R82, R162, R200, R515): a lemma for each event that a rule tells apart.
-/
namespace Sys2Proof.Machine

section
variable {d : Dev}

/-! ## Lock lost and regained (R72, R76, R200) -/

/-- The block as it loses lock: SAFE on the supervisor oscillator, LEASE_OUT low, the relock's band and pump code as they come. -/
def Dev.unlocking (d : Dev) (entry : Option (Nat × Nat)) : Dev :=
  { d with
    clk := { d.clk with
      relocking := true, unlocked5ms := false, safeOnSup := true, tableBand := entry.map (·.1), pumpCode := entry.map (·.2) }
    twin := { d.twin with leaseOut := false } }

/-- The words of a lock lost: CLK.LOCKED and CLK.RAMPING 0, and the table's band where it has one. -/
def Dev.unlockShown (d : Dev) (entry : Option (Nat × Nat)) : Dev :=
  let low := ((d.unlocking entry).wr F.clkLocked 0).wr F.clkRamping 0
  match entry with | some x => low.wr F.clkBand x.1 | none => low

/-- The table counts for a relock only in Light. -/
def Dev.tableAsked (d : Dev) : Prop := d.on F.clkBandMode = true ∧ d.boot.stage = .light

theorem Dev.tableAsked_iff : (d.on F.clkBandMode && decide (d.boot.stage = .light)) = true ↔ d.tableAsked := by
  simp [Dev.tableAsked]

theorem Dev.pllLost_leads {entry : Option (Nat × Nat)} (locked : d.on F.clkLocked = true)
    (asked : (d.tableAsked → entry = d.tableBand) ∧ (¬ d.tableAsked → entry = none)) :
    let e := ((d.unlockShown entry).legsRefresh.brakeUpdate).fault 3 0
    (d.tableAsked ∧ entry = none → d.pllLost = e.raise 0x06) ∧ (¬ (d.tableAsked ∧ entry = none) → d.pllLost = e) := by
  have loads (x : Option (Nat × Nat)) : (({ d with
      clk := { d.clk with relocking := true, unlocked5ms := false, safeOnSup := true }
      twin := { d.twin with leaseOut := false } } : Dev).wr F.clkLocked 0 |>.wr F.clkRamping 0).loadBand x = d.unlockShown x := by
    cases x with
    | none => simp only [Dev.loadBand, Dev.unlockShown, Dev.unlocking, Dev.wr, Option.map_none]
    | some y => simp only [Dev.loadBand, Dev.unlockShown, Dev.unlocking, Dev.wr, Option.map_some]
  unfold Dev.pllLost
  simp only [locked, Bool.not_true, Bool.false_eq_true, if_false, loads]
  by_cases table : d.tableAsked
  · obtain rfl := asked.1 table
    simp only [Dev.tableAsked_iff.mpr table, if_true, Bool.true_and, Option.isNone_iff_eq_none]
    exact ⟨fun none_ => if_pos none_.2, fun some_ => if_neg fun none_ => some_ ⟨table, none_⟩⟩
  · obtain rfl := asked.2 table
    simp only [Bool.eq_false_iff.mpr fun k => table (Dev.tableAsked_iff.mp k), Bool.false_eq_true, if_false, Bool.false_and]
    exact ⟨fun k => absurd k.1 table, fun _ => trivial⟩

/-- The block with lock regained: SAFE off the supervisor oscillator, and a local reference in use there again. -/
def Dev.relocking (d : Dev) : Dev :=
  { d with clk := { d.clk with
      relocking := false, unlocked5ms := false, tableBand := none, safeOnSup := false
      localLost := d.clk.localLost && decide (d.rd F.clkRefActive = 2) } }

theorem Dev.pllLock_relocks {band refCycles : Nat} (light : d.boot.stage = .light) (relocking : d.clk.relocking = true) :
    let locked := ((d.relocking.wr F.clkLocked 1).wr F.clkRamping 1).wr F.clkBand (d.clk.tableBand.getD band)
    d.pllLock band refCycles = ((locked.advance (d.now + 400 * refCycles)).wr F.clkBandFromTable
      (flag d.clk.tableBand.isSome)).relocked.legsRefresh.brakeUpdate := by
  intro locked
  have inLight : locked.boot.stage = .light := by simpa only [locked, Dev.wr_frame, Dev.relocking] using light
  have now : locked.now = d.now := by simp only [locked, Dev.now, Dev.wr_frame, Dev.relocking]
  unfold Dev.pllLock
  rw [if_neg (by simp [light]), if_pos relocking, ← now]
  exact congrArg (fun e : Dev => (e.wr F.clkBandFromTable (flag d.clk.tableBand.isSome)).relocked.legsRefresh.brakeUpdate)
    (if_pos inLight)

/-! ## The reference (R69, R70) -/

/-- The recovered reference no good at this instant: its second starts again. -/
def Dev.refDoubted (d : Dev) : Dev := { d with clk := { d.clk with refGoodFrom := d.up } }

/-- The fallback to the reference of REF_SEL. -/
def Dev.refLocal (d : Dev) : Dev := ((d.refDoubted.wr F.clkRefActive (d.rd F.clkRefSel)).wr F.clkRefFallback 1).fault 1 0

theorem Dev.refBad_unused (unused : d.rd F.clkRefActive ≠ 2) : d.refBad = d.refDoubted := if_pos unused

theorem Dev.refBad_used (used : d.rd F.clkRefActive = 2) :
    d.refBad = if d.clk.localLost = true then d.refLocal.pllLost else d.refLocal := if_neg (not_not_intro used)

/-! ## Supervision (R82) -/

/-- The outputs whose bad count is a failure: enabled, and not gated by the block that owns them. -/
def Dev.monitorHit (d : Dev) (bad : BitVec 12) (i : Nat) : Bool := bad.getLsbD i && d.on F.clkEn i && !d.outputGated i

/-- The mask of those outputs. -/
def Dev.monitorMask (d : Dev) (bad : BitVec 12) : Nat := ((List.range 12).filter (d.monitorHit bad)).foldl (fun m i => m + 2 ^ i) 0

/-- What a monitor check shows before it raises. -/
def Dev.monitorShown (d : Dev) (bad : BitVec 12) : Dev :=
  { d with clk := { d.clk with
      monBad := d.monitorMask bad, safeOnSup := d.clk.safeOnSup || (d.monitorMask bad).testBit 1 } }.wr F.clkMonFail
    (d.rd F.clkMonFail ||| d.monitorMask bad)

/-- The outputs whose failure is new. -/
def Dev.monitorNew (d : Dev) (bad : BitVec 12) : List Nat :=
  ((List.range 12).filter (d.monitorHit bad)).filter fun i => !d.clk.monBad.testBit i

theorem Dev.testBit_monitorMask (d : Dev) (bad : BitVec 12) {i : Nat} (below : i < 12) :
    (d.monitorMask bad).testBit i = d.monitorHit bad i := by
  rw [Dev.monitorMask, (testBit_foldl_two_pow _ 12).2 i, decide_eq_true below, Bool.true_and]

/-- Class 2 of one output after another. -/
def Dev.faultsOf (d : Dev) (is : List Nat) : Dev := is.foldl (fun d i => d.fault 2 i) d

theorem Dev.raises_faultsOf (is : List Nat) (d : Dev) :
    (d.faultsOf is).coll.raises = d.coll.raises ++ is.map fun i => { cls := 2, src := i } := by
  induction is generalizing d with
  | nil => simp [Dev.faultsOf]
  | cons i is ih => exact (ih (d.fault 2 i)).trans (by simp [Dev.fault])

theorem Dev.faultsOf_keeps (is : List Nat) (d : Dev) : (d.faultsOf is).regs = d.regs ∧ (d.faultsOf is).clk = d.clk :=
  ⟨foldl_keeps Dev.regs _ _ _ fun _ _ => rfl, foldl_keeps Dev.clk _ _ _ fun _ _ => rfl⟩

theorem Dev.monitor_shows (d : Dev) (bad : BitVec 12) {i : Nat} (below : i < 12) :
    let e := (d.monitorShown bad).faultsOf (d.monitorNew bad)
    ((e.rd F.clkMonFail).testBit i = true ↔ (d.rd F.clkMonFail).testBit i = true ∨ d.monitorHit bad i = true)
    ∧ (({ cls := 2, src := i } : Raise) ∈ e.coll.raises ↔ ({ cls := 2, src := i } : Raise) ∈ d.coll.raises
        ∨ d.monitorHit bad i = true ∧ d.clk.monBad.testBit i = false)
    ∧ (e.clk.monBad.testBit i = true ↔ d.monitorHit bad i = true)
    ∧ (e.clk.safeOnSup = true ↔ d.clk.safeOnSup = true ∨ d.monitorHit bad 1 = true) := by
  intro e
  obtain ⟨regs, clk⟩ := (d.monitorShown bad).faultsOf_keeps (d.monitorNew bad)
  refine ⟨?_, ?_, ?_, ?_⟩
  · rw [Dev.rd_congr regs, Dev.monitorShown, Dev.rd_wr_same _ _ _ _ (by decide), show F.clkMonFail.size = 2 ^ 12 from rfl,
      Nat.testBit_mod_two_pow, decide_eq_true below, Bool.true_and, Nat.testBit_or, d.testBit_monitorMask bad below, Bool.or_eq_true]
  · simp [e, Dev.raises_faultsOf, Dev.monitorShown, Dev.monitorNew, below, and_comm]
  · simp only [e]
    rw [clk]
    simp only [Dev.monitorShown, Dev.wr_frame, d.testBit_monitorMask bad below]
  · simp only [e]
    rw [clk]
    simp only [Dev.monitorShown, Dev.wr_frame, d.testBit_monitorMask bad (by decide : 1 < 12), Bool.or_eq_true]

/-! ## The die temperature (R515) -/

/-- The four readings shown. -/
def Dev.dieShown (d : Dev) (t0 t1 t2 t3 : BitVec 16) : Dev :=
  (((d.wr F.sysDieT t0.toNat 0).wr F.sysDieT t1.toNat 1).wr F.sysDieT t2.toNat 2).wr F.sysDieT t3.toNat 3

/-- The highest reading kept. -/
def Dev.peakKept (d : Dev) : Dev :=
  if sN 16 (d.rd F.sysTPeak) < d.dieTemp then d.wr F.sysTPeak (BitVec.ofInt 16 d.dieTemp).toNat else d

/-- The warning raised or withdrawn. -/
def Dev.heatWarned (d : Dev) (top : Int) : Dev :=
  let warn := 16 * sN 8 (d.rd F.sysTWarn)
  if !d.clk.tWarned && decide (warn ≤ top) then { d with clk := { d.clk with tWarned := true } }.raise 0x0B
  else if d.clk.tWarned && decide (top ≤ warn - 80) then { d with clk := { d.clk with tWarned := false } }
  else d

theorem Dev.rd_heatWarned (d : Dev) (top : Int) {f : Fld} {i : Nat} (quiet : f.quiet i = true) :
    (d.heatWarned top).rd f i = d.rd f i := by
  unfold Dev.heatWarned
  dsimp only
  split
  · exact Dev.rd_raise _ _ _ _ _ (by decide) quiet
  · split <;> rfl

theorem Dev.rd_peakKept (d : Dev) {f : Fld} {i : Nat} (ok : f.ok = true) (other : F.sysTPeak.apart 0 f i = true) :
    d.peakKept.rd f i = d.rd f i := by
  unfold Dev.peakKept
  split
  · exact Dev.rd_wr_apart _ _ _ _ _ _ (by decide) ok other
  · rfl

theorem foldl_max_four (a b c e : Int) : [a, b, c, e].foldl max a = max a (max b (max c e)) := by
  simp only [List.foldl_cons, List.foldl_nil]
  omega

theorem Dev.dieTemp_eq (d : Dev) : d.dieTemp = max (sN 16 (d.rd F.sysDieT 0)) (max (sN 16 (d.rd F.sysDieT 1))
    (max (sN 16 (d.rd F.sysDieT 2)) (sN 16 (d.rd F.sysDieT 3)))) :=
  foldl_max_four _ _ _ _

theorem sN16_bounds (n : Nat) : -32768 ≤ sN 16 n ∧ sN 16 n < 32768 :=
  ⟨by simpa [sN] using BitVec.le_toInt (BitVec.ofNat 16 n), by simpa [sN] using BitVec.toInt_lt (x := BitVec.ofNat 16 n)⟩

theorem sN16_ofInt {z : Int} (low : -32768 ≤ z) (high : z < 32768) : sN 16 (BitVec.ofInt 16 z).toNat = z := by
  rw [sN, BitVec.ofNat_toNat, BitVec.setWidth_eq, BitVec.toInt_ofInt]
  exact Int.bmod_eq_of_le (by omega) (by omega)

theorem Dev.peak_peakKept (d : Dev) : sN 16 (d.peakKept.rd F.sysTPeak) = max (sN 16 (d.rd F.sysTPeak)) d.dieTemp := by
  obtain ⟨low, high⟩ : -32768 ≤ d.dieTemp ∧ d.dieTemp < 32768 := by
    have t0 := sN16_bounds (d.rd F.sysDieT 0)
    have t1 := sN16_bounds (d.rd F.sysDieT 1)
    have t2 := sN16_bounds (d.rd F.sysDieT 2)
    have t3 := sN16_bounds (d.rd F.sysDieT 3)
    rw [Dev.dieTemp_eq]
    omega
  unfold Dev.peakKept
  split
  next above =>
    rw [Dev.rd_wr_fits d 0 (by decide) (BitVec.ofInt 16 d.dieTemp).isLt, sN16_ofInt low high, max_eq_right (by omega)]
  next below => exact (max_eq_left (not_lt.mp below)).symm

/-- The readings, and the peak over them. -/
theorem Dev.dieUpdate_shows (d : Dev) (t0 t1 t2 t3 : BitVec 16) :
    let e := (d.dieShown t0 t1 t2 t3).peakKept.heatWarned (d.dieShown t0 t1 t2 t3).dieTemp
    e.rd F.sysDieT 0 = t0.toNat ∧ e.rd F.sysDieT 1 = t1.toNat ∧ e.rd F.sysDieT 2 = t2.toNat ∧ e.rd F.sysDieT 3 = t3.toNat
      ∧ sN 16 (e.rd F.sysTPeak) = max (sN 16 (d.rd F.sysTPeak)) e.dieTemp := by
  intro e
  have readings : e.rd F.sysDieT 0 = (d.dieShown t0 t1 t2 t3).rd F.sysDieT 0 ∧ e.rd F.sysDieT 1 = (d.dieShown t0 t1 t2 t3).rd F.sysDieT 1
      ∧ e.rd F.sysDieT 2 = (d.dieShown t0 t1 t2 t3).rd F.sysDieT 2 ∧ e.rd F.sysDieT 3 = (d.dieShown t0 t1 t2 t3).rd F.sysDieT 3 := by
    simp (disch := decide) only [e, Dev.rd_heatWarned, Dev.rd_peakKept, and_self]
  have shown : (d.dieShown t0 t1 t2 t3).rd F.sysDieT 0 = t0.toNat ∧ (d.dieShown t0 t1 t2 t3).rd F.sysDieT 1 = t1.toNat
      ∧ (d.dieShown t0 t1 t2 t3).rd F.sysDieT 2 = t2.toNat ∧ (d.dieShown t0 t1 t2 t3).rd F.sysDieT 3 = t3.toNat := by
    simp (disch := decide) only [Dev.dieShown, Dev.rd_wr_same, Dev.rd_wr_apart]
    exact ⟨Nat.mod_eq_of_lt t0.isLt, Nat.mod_eq_of_lt t1.isLt, Nat.mod_eq_of_lt t2.isLt, Nat.mod_eq_of_lt t3.isLt⟩
  obtain ⟨r0, r1, r2, r3⟩ := readings
  have top : e.dieTemp = (d.dieShown t0 t1 t2 t3).dieTemp := by rw [Dev.dieTemp_eq, Dev.dieTemp_eq, r0, r1, r2, r3]
  have before : (d.dieShown t0 t1 t2 t3).rd F.sysTPeak = d.rd F.sysTPeak := by
    simp (disch := decide) only [Dev.dieShown, Dev.rd_wr_apart]
  obtain ⟨s0, s1, s2, s3⟩ := shown
  refine ⟨r0.trans s0, r1.trans s1, r2.trans s2, r3.trans s3, ?_⟩
  rw [top, ← before, ← Dev.peak_peakKept]
  exact congrArg _ (Dev.rd_heatWarned _ _ (by decide))

end

/-- Settles O24: by event. -/
theorem clocksAreSupervised : Obligations.ClocksAreSupervised := by
  unfold Obligations.ClocksAreSupervised
  intro s t d next
  refine ⟨?lost, ?notRegained, ?bandTimeout, ?regained, ?reference, ?restore, ?localRef, ?monitor, ?die, ?supply, ?acTest⟩
  case lost =>
    intro entry locked named lost low e
    rw [exec_pllLockLost]
    have asked : (d.tableAsked → entry = d.tableBand) ∧ (¬ d.tableAsked → entry = none) :=
      ⟨fun table => named.trans (if_pos table), fun table => named.trans (if_neg table)⟩
    obtain ⟨searches, loads⟩ := Dev.pllLost_leads locked asked
    refine event_dev ?_
    by_cases search : d.tableAsked ∧ entry = none
    · exact (searches search).trans (if_pos ⟨search.1.1, search.1.2, search.2⟩).symm
    · exact (loads search).trans (if_neg fun k => search ⟨⟨k.1, k.2.1⟩, k.2.2⟩).symm
  case notRegained =>
    intro relocking unmarked
    rw [exec_lockNotRegained]
    exact event_dev (if_pos (by simp [show (s.dev.advance t).clk.relocking = _ from relocking,
      show (s.dev.advance t).clk.unlocked5ms = _ from unmarked]))
  case bandTimeout =>
    intro relocking table
    rw [exec_bandTableLockTimeout]
    exact event_dev (if_pos (by simp [show (s.dev.advance t).clk.relocking = _ from relocking,
      show (s.dev.advance t).clk.tableBand.isSome = _ from table]))
  case regained =>
    intro band refCycles light relocking back locked
    rw [exec_pllLocked]
    exact event_dev (d.pllLock_relocks light relocking)
  case reference =>
    intro ppm bad back
    have missing (e : Dev) (acts : d.refBad = e) : exec (.refRecoveredClockMissing t) s = next e
        ∧ (200 < ppm.natAbs → exec (.refFrequencyWindow t ppm) s = next e) := by
      rw [exec_refRecoveredClockMissing, exec_refFrequencyWindow]
      exact ⟨event_dev acts, fun far => event_dev ((if_pos far).trans acts)⟩
    refine ⟨fun near => ?_, fun unused => missing _ (Dev.refBad_unused unused), fun used present => missing _ ?_,
      fun used absent => missing _ ?_⟩
    · rw [exec_refFrequencyWindow]
      exact event_dev (if_neg (Nat.not_lt.mpr near))
    · exact (Dev.refBad_used used).trans (if_neg (Bool.eq_false_iff.mp present))
    · exact (Dev.refBad_used used).trans (if_pos absent)
  case restore =>
    intro asked lock good
    rw [exec_refRestore]
    exact event_dev (if_pos (by simp only [Bool.and_eq_true]; exact ⟨⟨asked, lock⟩, good⟩))
  case localRef =>
    intro lost
    rw [exec_localRefLost, exec_localRefLost]
    exact ⟨event_dev rfl, fun used => event_dev (if_pos used), fun unused => event_dev (if_neg unused)⟩
  case monitor =>
    intro bad hit
    have hits (i : Nat) : d.monitorHit bad i = true ↔ hit i := by simp [Dev.monitorHit, hit, and_assoc]
    rw [exec_clockMonitorCheck]
    refine ⟨(d.monitorShown bad).faultsOf (d.monitorNew bad), event_dev rfl, fun i below => ?_, fun i below => ?_, fun i below => ?_, ?_⟩
    · rw [← hits]; exact (d.monitor_shows bad below).1
    · rw [← hits]; exact (d.monitor_shows bad below).2.1
    · rw [← hits]; exact (d.monitor_shows bad below).2.2.1
    · rw [← hits]; exact (d.monitor_shows bad (by decide : 0 < 12)).2.2.2
  case die =>
    intro t0 t1 t2 t3
    rw [exec_dieTemperatureUpdate]
    exact ⟨_, event_dev rfl, d.dieUpdate_shows t0 t1 t2 t3⟩
  case supply =>
    intro rail below seen
    rw [exec_supplyOutOfRange, exec_supplyOutOfRange, exec_supplyOutOfRange]
    refine ⟨fun same => event_dev (if_pos ?_), fun high => event_dev ?_, fun low => event_dev ?_⟩
    · exact beq_iff_eq.mpr same
    · exact (if_neg (by simp [show (s.dev.advance t).clk.railsLow.testBit (railCode rail) = _ from high])).trans (if_pos rfl)
    · exact (if_neg (by simp [show (s.dev.advance t).clk.railsLow.testBit (railCode rail) = _ from low])).trans
        (if_neg Bool.false_ne_true)
  case acTest =>
    intro i
    rw [exec_acTestInstruction]
    exact event_dev rfl

end Sys2Proof.Machine
end

section
/-!
PROOFS. The commit at its boundary (R36, R120, R131, R135, R138): when it is applied and when it is refused, that a refusal keeps the
staged words, and which words are in force once it has been applied.
-/
namespace Sys2Proof.Machine

/-! ## What keeps the staged words (R36) -/

/-- The words staged in the Basket. -/
def Dev.staged (d : Dev) : List (Nat × (Word × Word)) := d.basket.words

section
variable (d : Dev)

theorem Dev.staged_ite {c : Prop} [Decidable c] {d a b : Dev} (yes : a.staged = d.staged) (no : b.staged = d.staged) :
    (if c then a else b).staged = d.staged := by
  split <;> assumption

@[simp] theorem Dev.staged_wr (f : Fld) (v i : Nat) : (d.wr f v i).staged = d.staged := by simp only [Dev.staged, Dev.wr_frame]

@[simp] theorem Dev.staged_bump (f : Fld) (i : Nat) : (d.bump f i).staged = d.staged := by
  unfold Dev.bump
  exact Dev.staged_ite (d.staged_wr ..) rfl

theorem Dev.staged_wr64 (lo hi : Fld) (v : Nat) : (d.wr64 lo hi v).staged = d.staged := by simp [Dev.wr64]

theorem Dev.staged_unarm : d.unarm.staged = d.staged := by
  unfold Dev.unarm
  rw [Dev.staged_wr64, Dev.staged_wr]
  rfl

theorem Dev.staged_commitInput : d.commitInput.staged = d.staged := by
  refine Dev.staged_ite ?_ rfl
  rw [Dev.staged_wr, Dev.arm, Dev.staged_wr64, Dev.staged_wr]
  rfl

theorem Dev.staged_acqLatch (at_ : Nat) (hit : Nat → Option Nat) : (d.acqLatch at_ hit).staged = d.staged := Dev.staged_ite rfl rfl

theorem Dev.staged_spill (q : Nat) : (d.spill q).staged = d.staged := by
  unfold Dev.spill
  dsimp only
  split
  · rfl
  · split
    · simp only [Dev.staged, Dev.dramUsed, Dev.writePage, Dev.wr_frame]
      rfl
    · split
      · simp only [Dev.staged, Dev.dramUsed, Dev.writePage, Dev.wr_frame]
        rfl
      · rfl

theorem Dev.staged_putPacket (q : Nat) (p : Bytes) : (d.putPacket q p).staged = d.staged := by
  refine foldl_keeps Dev.staged _ _ d fun d e => ?_
  unfold Dev.putEntry
  exact Dev.staged_ite rfl (Dev.staged_ite ((Dev.staged_spill _ q).trans rfl) rfl)

theorem Dev.staged_netSendTag (mac : Nat) (tag : Option Nat) (b : NetBody) : (d.netSendTag mac tag b).staged = d.staged :=
  Dev.staged_ite rfl rfl

theorem Dev.staged_arpAsk (ip : Nat) : (d.arpAsk ip).staged = d.staged :=
  Dev.staged_ite rfl ((Dev.staged_netSendTag _ _ _ _).trans rfl)

theorem Dev.staged_drainSession (fuel n : Nat) (d : Dev) : (Dev.drainSession fuel n d).staged = d.staged := by
  induction fuel generalizing d with
  | zero => rfl
  | succ fuel ih =>
    unfold Dev.drainSession
    dsimp only
    split
    · rfl
    · split
      · rename_i taken
        obtain ⟨x, rfl⟩ := Dev.takePacket_eq taken
        exact (ih _).trans ((Dev.staged_netSendTag _ _ _ _).trans rfl)
      · exact Dev.staged_arpAsk _ _
      · rfl

theorem Dev.staged_raiseBase (e : EvRec) : (d.raiseBase e).staged = d.staged := by
  unfold Dev.raiseBase
  extract_lets s noted pending latched up item twin
  have latch : latched.staged = d.staged := (Dev.staged_acqLatch _ _ _).trans ((Dev.staged_wr _ _ _ _).trans rfl)
  have sent : up.staged = d.staged := Dev.staged_ite latch latch
  have shared : twin.staged = d.staged := Dev.staged_ite sent sent
  exact Dev.staged_ite ((Dev.staged_commitInput _).trans shared) shared

theorem Dev.staged_notice (s : Nat) (e : EvRec) : (d.notice s e).staged = d.staged := by
  unfold Dev.notice
  extract_lets host q limit p queued
  have put : queued.staged = d.staged := Dev.staged_putPacket _ _ _
  refine Dev.staged_ite (Dev.staged_ite ((Dev.staged_raiseBase _ _).trans put) (Dev.staged_ite ?_ put)) (Dev.staged_bump _ _ _)
  exact (Dev.staged_drainSession _ _ _).trans put

theorem Dev.staged_raise (source x : Nat) : (d.raise source x).staged = d.staged :=
  (foldl_keeps Dev.staged _ _ _ fun d s => d.staged_notice s _).trans (d.staged_raiseBase _)

theorem Dev.staged_deliver (k : Ticket) (p : Bytes) : (d.deliver k p).staged = d.staged := by
  unfold Dev.deliver
  split
  · exact (Dev.staged_raise _ _ _).trans (Dev.staged_putPacket _ _ _)
  · exact Dev.staged_netSendTag _ _ _ _
  · exact foldl_keeps Dev.staged _ _ _ fun _ _ => rfl
  · exact Dev.staged_putPacket _ _ _

theorem Dev.staged_sendReply (k : Ticket) (status : Nat) (data : Bytes) : (d.sendReply k status data).staged = d.staged :=
  (Dev.staged_deliver _ _ _).trans (Dev.staged_ite rfl rfl)

theorem Dev.staged_answerCommit (status : Nat) (data : Bytes) : (d.answerCommit status data).staged = d.staged :=
  foldl_keeps Dev.staged _ _ _ fun _ x => Dev.staged_sendReply _ x.ticket status data

/-- A commit refused keeps what is staged (R36, R131). -/
theorem Dev.staged_refuseCommit (counter : Fld) (source : Nat) (e : CkEntry) : (d.refuseCommit counter source e).staged = d.staged := by
  unfold Dev.refuseCommit
  rw [Dev.staged_answerCommit, Dev.staged_raise, Dev.staged_bump, Dev.staged_unarm]

end

/-! ## The words in force after a commit (R120, R138) -/

/-- What a staged word becomes, from the words in force before it (R138, R278, R331). -/
def commitWord (r : RegFile) (e : Nat × (Word × Word)) : Word :=
  let merged := (tget resetWord r e.1 &&& ~~~ e.2.1) ||| (e.2.2 &&& e.2.1)
  if e.1 / 65536 = 0x0101 && e.1 % 65536 = 0 then merged &&& ~~~ maskBits 3 0
  else if 0x0600 ≤ e.1 / 65536 && e.1 / 65536 < 0x0700 && e.1 % 65536 = 1 then merged &&& ~~~ maskBits 1 0
  else if e.1 / 65536 = 0x0802 then (merged &&& ~~~ 7) ||| (tget resetWord r e.1 &&& 7)
  else merged

theorem Dev.committedRegs_eq (d : Dev) :
    d.committedRegs = d.basket.words.foldl (fun r e => tset resetWord r e.1 (commitWord r e)) d.regs := rfl

/-- A staged word takes its value from its own word only. -/
theorem commitWord_congr {r r' : RegFile} {e : Nat × (Word × Word)} (same : tget resetWord r e.1 = tget resetWord r' e.1) :
    commitWord r e = commitWord r' e := by
  unfold commitWord
  rw [same]

/-- A word of an ordinary object takes exactly its staged bits. -/
theorem commitWord_ordinary (r : RegFile) {e : Nat × (Word × Word)} (notMode : e.1 ≠ wordKey 0x0101 0)
    (notLoop : e.1 / 65536 < 0x0600 ∨ 0x0700 ≤ e.1 / 65536) (notLeg : e.1 / 65536 ≠ 0x0802) :
    commitWord r e = (tget resetWord r e.1 &&& ~~~ e.2.1) ||| (e.2.2 &&& e.2.1) := by
  have mode : ¬ ((e.1 / 65536 = 0x0101 && e.1 % 65536 = 0) = true) := by
    simp only [wordKey] at notMode
    simp only [Bool.and_eq_true, decide_eq_true_eq]
    omega
  have loop : ¬ ((0x0600 ≤ e.1 / 65536 && e.1 / 65536 < 0x0700 && e.1 % 65536 = 1) = true) := by
    simp only [Bool.and_eq_true, decide_eq_true_eq]
    omega
  unfold commitWord
  rw [if_neg mode, if_neg loop, if_neg notLeg]

/-- A word that is not staged keeps its value. -/
theorem tget_commitWords_apart {k : Nat} (words : List (Nat × (Word × Word))) (r : RegFile) (apart : ∀ e ∈ words, e.1 ≠ k) :
    tget resetWord (words.foldl (fun r e => tset resetWord r e.1 (commitWord r e)) r) k = tget resetWord r k := by
  induction words generalizing r with
  | nil => rfl
  | cons x rest ih =>
    rw [List.foldl_cons, ih _ fun e he => apart e (.tail _ he), tget_tset, if_neg (Ne.symm (apart x (.head _)))]

/-- A staged word takes its value once: each word is staged at most once, so the words before and after it leave it alone. -/
theorem tget_commitWords_staged {e : Nat × (Word × Word)} (words : List (Nat × (Word × Word))) (r : RegFile)
    (once : words.Pairwise fun x y => x.1 ≠ y.1) (staged : e ∈ words) :
    tget resetWord (words.foldl (fun r e => tset resetWord r e.1 (commitWord r e)) r) e.1 = commitWord r e := by
  induction words generalizing r with
  | nil => cases staged
  | cons x rest ih =>
    obtain ⟨first, later⟩ := List.pairwise_cons.mp once
    rw [List.foldl_cons]
    rcases List.mem_cons.mp staged with rfl | staged
    · rw [tget_commitWords_apart rest _ fun y hy => Ne.symm (first y hy), tget_tset, if_pos rfl]
    · rw [ih _ later staged]
      exact commitWord_congr (by rw [tget_tset, if_neg (Ne.symm (first e staged))])

/-! ## The commit at its boundary (R36, R131, R135) -/

section
variable {d : Dev} {a : Armed} (armed : d.basket.armed = some a)
include armed

theorem Dev.commitStep_early (early : d.now < a.instant) : d.commitStep = d := by
  unfold Dev.commitStep
  rw [armed]
  exact if_pos early

theorem Dev.commitStep_preempted (due : a.instant ≤ d.now) (fault : d.modes.faultChanged = true) :
    d.commitStep = d.refuseCommit F.stgPreempted 0x03 (0xFFFF, 0, 0xFF, 0x3D) := by
  unfold Dev.commitStep
  rw [armed]
  exact (if_neg (Nat.not_lt.mpr due)).trans (if_pos fault)

theorem Dev.commitStep_unfaulted (due : a.instant ≤ d.now) (free : d.modes.faultChanged = false) : d.commitStep =
    match d.boundaryFailures with
    | e :: _ => d.refuseCommit F.stgRefusedAt 0x0A e
    | [] => d.applyBasket a := by
  unfold Dev.commitStep
  rw [armed]
  exact (if_neg (Nat.not_lt.mpr due)).trans (if_neg (Bool.eq_false_iff.mp free))

end

/-- Settles O28: the branches of the commit, and the fold over the staged words. -/
theorem commitsApplyTheBasket : Obligations.CommitsApplyTheBasket := by
  unfold Obligations.CommitsApplyTheBasket
  intro d a
  refine ⟨?unarmed, Dev.commitStep_early, Dev.commitStep_preempted, ?refused, fun c src e _ => d.staged_refuseCommit c src e,
    ?applied, ?words⟩
  case unarmed =>
    intro unarmed
    unfold Dev.commitStep
    rw [unarmed]
  case refused =>
    intro e rest armed due free fails
    rw [Dev.commitStep_unfaulted armed due free, fails]
  case applied =>
    intro armed due free passes
    rw [Dev.commitStep_unfaulted armed due free, passes]
  case words =>
    intro once
    rw [d.committedRegs_eq]
    refine ⟨fun k apart => tget_commitWords_apart _ _ apart, fun e staged notMode notLoop notLeg => ?_⟩
    rw [tget_commitWords_staged _ _ once staged, commitWord_ordinary _ notMode notLoop notLeg]

end Sys2Proof.Machine
end

section
/-!
PROOFS. The control-cycle boundary (R12, R198): which instants are boundaries, and that a boundary stands at its instant.
-/
namespace Sys2Proof.Machine

/-! ## The boundaries (R198) -/

section
variable {d : Dev} {x : Nat}

theorem Dev.boundaryCeil_at (at_ : x = d.origin) : d.boundaryCeil x = d.origin := if_pos (Nat.le_of_eq at_)

theorem Dev.boundaryCeil_after (cyclic : d.cycle ≠ 0) (after : d.origin < x) :
    d.boundaryCeil x = d.origin + (x - d.origin + d.cycle - 1) / d.cycle * d.cycle :=
  (if_neg (Nat.not_le.mpr after)).trans (if_neg cyclic)

/-- Every boundary at or after an instant lies at or after the first one. -/
theorem Dev.boundaryCeil_le (cyclic : d.cycle ≠ 0) (after : d.origin ≤ x) {b : Nat} (later : x ≤ b)
    (boundary : (b - d.origin) % d.cycle = 0) : d.boundaryCeil x ≤ b := by
  rcases Nat.eq_or_lt_of_le after with at_ | after
  · rw [Dev.boundaryCeil_at at_.symm]
    omega
  · rw [Dev.boundaryCeil_after cyclic after]
    obtain ⟨k, whole⟩ := Nat.dvd_of_mod_eq_zero boundary
    have few : (x - d.origin + d.cycle - 1) / d.cycle ≤ k := by
      refine Nat.le_of_lt_succ ((Nat.div_lt_iff_lt_mul (by omega)).mpr ?_)
      rw [Nat.succ_mul, Nat.mul_comm k]
      omega
    have := Nat.mul_le_mul_right d.cycle few
    rw [Nat.mul_comm k] at this
    omega

/-- The first boundary at or after an instant (R198). -/
theorem Dev.boundaryCeil_first (cyclic : d.cycle ≠ 0) (after : d.origin ≤ x) :
    x ≤ d.boundaryCeil x ∧ d.boundaryCeil x < x + d.cycle ∧ (d.boundaryCeil x - d.origin) % d.cycle = 0 := by
  rcases Nat.eq_or_lt_of_le after with at_ | after
  · rw [Dev.boundaryCeil_at at_.symm]
    exact ⟨Nat.le_of_eq at_.symm, by omega, by simp⟩
  · obtain ⟨least, most⟩ := ceilDiv_periods (gap := x - d.origin) (period := d.cycle) (by omega)
    rw [Dev.boundaryCeil_after cyclic after, Nat.add_sub_cancel_left]
    exact ⟨by omega, by omega, Nat.mul_mod_left ..⟩

end

/-! ## A boundary stands at its instant (R12) -/

section
variable (d : Dev)

theorem Dev.clock_sendDigests (k deadline : Nat) (ds : List (Nat × Nat)) : (d.sendDigests k deadline ds).clock = d.clock := by
  unfold Dev.sendDigests
  exact foldl_keeps Dev.clock _ _ _ fun _ _ => rfl

theorem Dev.clock_sendCopy (k deadline : Nat) (copy : Bytes) : (d.sendCopy k deadline copy).clock = d.clock := by
  unfold Dev.sendCopy
  exact foldl_keeps Dev.clock _ _ _ fun _ _ => rfl

theorem Dev.clock_sendTwin (k boundary : Nat) : (d.sendTwin k boundary).clock = d.clock := by
  unfold Dev.sendTwin
  generalize d.stateCopy k boundary = copied
  obtain ⟨copy, rot⟩ := copied
  split
  · exact (Dev.clock_sendCopy _ _ _ _).trans (Dev.clock_sendDigests _ _ _ _)
  · rfl

theorem Dev.clock_beginEpoch : d.beginEpoch.clock = d.clock := by
  unfold Dev.beginEpoch
  split
  · extract_lets sched noted cells shown
    have cellsShown : shown.clock = noted.clock := foldl_keeps Dev.clock _ _ _ fun _ _ => by simp only [Dev.wr_frame]
    have armsShown (e : Dev) (arms : List Nat) : (arms.foldl (fun d a =>
        let x := tget (fun _ => (0, 0)) d.sched.nextArms a
        (d.wr F.modASat x.1 a).wr F.modARef x.2 a) e).clock = e.clock :=
      foldl_keeps Dev.clock _ _ _ fun _ _ => by simp only [Dev.wr_frame]
    exact (armsShown shown _).trans (cellsShown.trans rfl)
  · rfl

theorem Dev.boundary_le_enterBoundary : d.clock.boundary ≤ d.enterBoundary.now := by
  unfold Dev.enterBoundary
  extract_lets e
  have clock : e.clock = d.clock := (Dev.clock_beginEpoch _).trans (d.clock_sendTwin _ _)
  rw [← clock]
  exact Nat.le_max_right ..

end

/-- Settles O25: the rows by their conditions, R198 by the arithmetic of rounding up. -/
theorem boundariesRunInOrder : Obligations.BoundariesRunInOrder := by
  unfold Obligations.BoundariesRunInOrder
  refine ⟨fun s t => ?rows, fun d x cyclic after => ?ceil⟩
  case rows =>
    intro d
    refine ⟨?light, ?due, ?early, ?expansion⟩
    case light =>
      intro kindle accepted
      rw [exec_light]
      exact event_dev (if_pos (Bool.and_eq_true_iff.mpr ⟨decide_eq_true kindle, accepted⟩))
    case due =>
      intro due
      refine ⟨_, ?_, rfl, d.boundary_le_enterBoundary, rfl⟩
      rw [exec_controlCycleBoundary]
      exact event_dev (if_pos due)
    case early =>
      intro early
      rw [exec_controlCycleBoundary]
      exact event_dev (if_neg (Bool.eq_false_iff.mp early))
    case expansion =>
      intro runs switching own unexpanded
      rw [exec_edgeExpansion]
      refine event_dev (if_pos ?_)
      simp only [Bool.and_eq_true, decide_eq_true_eq]
      exact ⟨⟨⟨runs, switching⟩, own⟩, unexpanded⟩
  case ceil =>
    obtain ⟨least, near, whole⟩ := Dev.boundaryCeil_first cyclic after
    exact ⟨least, near, whole, fun b later boundary => Dev.boundaryCeil_le cyclic after later boundary⟩

end Sys2Proof.Machine
end

section
/-!
PROOFS. The changes of mode (R30, R31), the timers of the modes (R23, R27) and the steps of a sequence (R28).
-/
namespace Sys2Proof.Machine

/-! ## What the operations of a change of mode leave alone

The mode word of SYS (R30), the boot state and the clock: everything that leaving a mode and entering another does besides the mode
word writes other objects. -/

/-- The boot state, the clock, and what the mode word shows of the present change. -/
def Dev.modeShown (d : Dev) : Boot × Clock × Nat × Nat × Nat × Nat :=
  (d.boot, d.clock, d.rd F.sysMode, d.rd F.sysModePrev, d.rd F.sysModeSeq, d.rd F.sysModeCause)

section
variable (d : Dev)

theorem Dev.modeShown_ite {c : Prop} [Decidable c] {d a b : Dev} (yes : a.modeShown = d.modeShown) (no : b.modeShown = d.modeShown) :
    (if c then a else b).modeShown = d.modeShown := by
  split <;> assumption

theorem Fld.key_above {f : Fld} (above : 0x0002 < f.so) (i : Nat) : wordKey 0x0002 0 < f.key i := by
  simp only [Fld.key, Fld.soAt, wordKey]
  split <;> omega

theorem Dev.modeShown_of_rd {d e : Dev} (boot : e.boot = d.boot) (clock : e.clock = d.clock)
    (rd : ∀ f ∈ [F.sysMode, F.sysModePrev, F.sysModeSeq, F.sysModeCause], e.rd f = d.rd f) : e.modeShown = d.modeShown := by
  simp only [List.mem_cons, List.not_mem_nil, or_false, forall_eq_or_imp, forall_eq] at rd
  obtain ⟨mode, prev, seq, cause⟩ := rd
  rw [Dev.modeShown, boot, clock, mode, prev, seq, cause, Dev.modeShown]

/-- The mode is shown in the registers. -/
theorem Dev.modeShown_congr {d e : Dev} (regs : e.regs = d.regs) (boot : e.boot = d.boot) (clock : e.clock = d.clock) :
    e.modeShown = d.modeShown := Dev.modeShown_of_rd boot clock fun f _ => Dev.rd_congr regs f 0

theorem mem_modeFields {f : Fld} (listed : f ∈ [F.sysMode, F.sysModePrev, F.sysModeSeq, F.sysModeCause]) : f.key 0 = wordKey 0x0002 0 := by
  simp only [List.mem_cons, List.not_mem_nil, or_false] at listed
  rcases listed with rfl | rfl | rfl | rfl <;> rfl

theorem Dev.modeShown_wr {f : Fld} (v i : Nat) (above : 0x0002 < f.so) : (d.wr f v i).modeShown = d.modeShown := by
  refine Dev.modeShown_of_rd (by simp only [Dev.wr_frame]) (by simp only [Dev.wr_frame]) fun g listed => ?_
  refine Dev.rd_wr_key _ _ _ _ _ _ ?_
  rw [mem_modeFields listed]
  exact Nat.ne_of_gt (Fld.key_above above i)

theorem Dev.modeShown_bump {f : Fld} (i : Nat) (above : 0x0002 < f.so) : (d.bump f i).modeShown = d.modeShown := by
  unfold Dev.bump
  exact Dev.modeShown_ite (d.modeShown_wr _ i above) rfl

theorem Dev.modeShown_bumpBy {f : Fld} (n i : Nat) (above : 0x0002 < f.so) : (d.bumpBy f n i).modeShown = d.modeShown :=
  d.modeShown_wr _ i above

theorem Dev.modeShown_setWord {so : Nat} (w v : Nat) (above : 0x0002 < so) : (d.setWord so w v).modeShown = d.modeShown := by
  refine Dev.modeShown_of_rd rfl rfl fun g listed => Dev.rd_setWord_key _ _ _ _ ?_
  rw [mem_modeFields listed]
  simp only [wordKey]
  omega

theorem Dev.modeShown_bumpWord {so : Nat} (w : Nat) (above : 0x0002 < so) : (d.bumpWord so w).modeShown = d.modeShown := by
  unfold Dev.bumpWord
  exact Dev.modeShown_ite (d.modeShown_setWord w _ above) rfl

theorem Dev.Near.modeShown {d e : Dev} (h : d.Near e) : e.modeShown = d.modeShown := by
  obtain ⟨boot, -, -, clock, -⟩ := h.keeps
  refine Dev.modeShown_of_rd boot clock fun g listed => h.rd _ _ ?_
  rw [Fld.quiet, mem_modeFields listed]
  rfl

theorem Dev.Within.modeShown {objects : List Nat} {d e : Dev} (h : d.Within objects e) (other : 0x0002 ∉ objects) :
    e.modeShown = d.modeShown := by
  obtain ⟨boot, clock, -⟩ := h.keeps
  refine Dev.modeShown_of_rd boot clock fun g listed => h.rd _ _ ?_ ?_
  · rw [Fld.quiet, mem_modeFields listed]
    rfl
  · rw [mem_modeFields listed]
    exact other

theorem Dev.modeShown_raise {source : Nat} (data : Nat) (listed : source < 256) : (d.raise source data).modeShown = d.modeShown :=
  (d.near_raise source data listed).modeShown

theorem Dev.modeShown_fault (cls src data : Nat) : (d.fault cls src data).modeShown = d.modeShown := rfl

theorem Dev.modeShown_legUpdate (n : Nat) : (d.legUpdate n).modeShown = d.modeShown := by
  obtain ⟨l, driven⟩ := (d.legShow n).drive2_eq n
  rw [Dev.legUpdate, driven, Dev.modeShown_wr _ _ _ (by decide), Dev.modeShown_wr _ _ _ (by decide)]
  exact d.modeShown_wr _ _ (by decide)

theorem Dev.modeShown_legForce (n : Nat) (en gh gl : Bool) : (d.legForce n en gh gl).modeShown = d.modeShown := by
  unfold Dev.legForce
  extract_lets before forced shown
  have keeps : shown.modeShown = d.modeShown := by
    rw [Dev.modeShown_legUpdate, Dev.modeShown_wr _ _ _ (by decide), Dev.modeShown_wr _ _ _ (by decide),
      Dev.modeShown_wr _ _ _ (by decide)]
  refine Dev.modeShown_ite ?_ keeps
  rw [Dev.modeShown_raise _ _ (by decide), Dev.modeShown_fault, Dev.modeShown_bumpWord _ _ (by decide), keeps]

theorem Dev.modeShown_legsRefresh : d.legsRefresh.modeShown = d.modeShown := d.within_legsRefresh.modeShown (by decide)

theorem Dev.modeShown_brakeOff : d.brakeOff.modeShown = d.modeShown := by
  unfold Dev.brakeOff
  exact Dev.modeShown_ite ((Dev.modeShown_wr _ _ _ (by decide)).trans rfl) rfl

theorem Dev.modeShown_brakeUpdate : d.brakeUpdate.modeShown = d.modeShown := by
  obtain same | off | started := d.brakeUpdate_cases
  · rw [same]
  · rw [off, Dev.modeShown_brakeOff]
  · rw [started, Dev.brakeStarted, Dev.modeShown_raise _ _ (by decide), Dev.modeShown_bump _ _ (by decide),
      Dev.modeShown_wr _ _ _ (by decide)]
    rfl

/-! ### Lanes and what hangs on them (R69, R76, R157, R161, R203) -/

theorem Dev.modeShown_loadBand (entry : Option (Nat × Nat)) : (d.loadBand entry).modeShown = d.modeShown := by
  unfold Dev.loadBand
  cases entry with
  | none => rfl
  | some e => exact (Dev.modeShown_wr _ _ _ (by decide)).trans rfl

theorem Dev.modeShown_pllLost : d.pllLost.modeShown = d.modeShown := by
  unfold Dev.pllLost
  refine Dev.modeShown_ite rfl ?_
  extract_lets table entry clk twin unlocked loaded stopped
  have lost : stopped.modeShown = d.modeShown := by
    rw [Dev.modeShown_fault, Dev.modeShown_brakeUpdate, Dev.modeShown_legsRefresh, Dev.modeShown_loadBand,
      Dev.modeShown_wr _ _ _ (by decide), Dev.modeShown_wr _ _ _ (by decide)]
    rfl
  exact Dev.modeShown_ite ((Dev.modeShown_raise _ _ (by decide)).trans lost) lost

theorem Dev.modeShown_refFallback : d.refFallback.modeShown = d.modeShown := by
  unfold Dev.refFallback
  refine Dev.modeShown_ite rfl ?_
  extract_lets fallen
  have local_ : fallen.modeShown = d.modeShown := by
    rw [Dev.modeShown_fault, Dev.modeShown_wr _ _ _ (by decide), Dev.modeShown_wr _ _ _ (by decide)]
  exact Dev.modeShown_ite ((Dev.modeShown_pllLost _).trans local_) local_

theorem Dev.modeShown_closeSession (s : Nat) : (d.closeSession s).modeShown = d.modeShown := by
  unfold Dev.closeSession
  exact Dev.modeShown_ite ((Dev.modeShown_wr _ _ _ (by decide)).trans rfl) rfl

theorem Dev.modeShown_unlock (l : Nat) : (d.unlock l).modeShown = d.modeShown := by
  unfold Dev.unlock
  extract_lets held freed
  have kept : freed.modeShown = d.modeShown := d.modeShown_wr _ _ (by decide)
  refine Dev.modeShown_ite ((Dev.modeShown_refFallback _).trans (Dev.modeShown_ite ?_ kept)) kept
  exact (Dev.modeShown_closeSession _ _).trans kept

theorem Dev.modeShown_sourceGone : d.sourceGone.modeShown = d.modeShown := by
  refine Dev.modeShown_ite rfl (Dev.modeShown_ite rfl ?_)
  rw [Dev.modeShown_fault, Dev.modeShown_raise _ _ (by decide), Dev.modeShown_wr _ _ _ (by decide), Dev.modeShown_wr _ _ _ (by decide),
    Dev.modeShown_wr _ _ _ (by decide)]

theorem Dev.modeShown_dropReasm (l : Nat) : (d.dropReasm l).modeShown = d.modeShown := by
  unfold Dev.dropReasm
  exact foldl_keeps Dev.modeShown _ _ _ fun d _ => d.modeShown_raise _ (by decide)

theorem Dev.modeShown_clearFrames (l : Nat) : (d.clearFrames l).modeShown = d.modeShown := by
  unfold Dev.clearFrames
  extract_lets x late cleared counted
  rw [Dev.modeShown_dropReasm, Dev.modeShown_wr _ _ _ (by decide), Dev.modeShown_bumpBy _ _ _ (by decide),
    Dev.modeShown_wr _ _ _ (by decide), Dev.modeShown_wr _ _ _ (by decide), Dev.modeShown_wr _ _ _ (by decide)]
  rfl

theorem Dev.modeShown_leaveUp (l : Nat) : (d.leaveUp l).modeShown = d.modeShown := by
  have cleared : ((d.clearFrames l).raise 0x11).modeShown = d.modeShown :=
    (Dev.modeShown_raise _ _ (by decide)).trans (d.modeShown_clearFrames l)
  exact Dev.modeShown_ite (Dev.modeShown_ite cleared cleared) rfl

theorem Dev.modeShown_laneRests (l state rate : Nat) :
    ((((d.wr F.laneState state l).wr F.laneRate rate l).unlock l).wr F.laneLoopback 0 l).sourceGone.modeShown = d.modeShown := by
  rw [Dev.modeShown_sourceGone, Dev.modeShown_wr _ _ _ (by decide), Dev.modeShown_unlock, Dev.modeShown_wr _ _ _ (by decide),
    Dev.modeShown_wr _ _ _ (by decide)]

theorem Dev.modeShown_parentGone : d.parentGone.modeShown = d.modeShown := by
  refine Dev.modeShown_ite ?_ rfl
  rw [Dev.modeShown_raise _ _ (by decide), Dev.modeShown_fault, Dev.modeShown_wr _ _ _ (by decide), Dev.modeShown_wr _ _ _ (by decide)]
  rfl

theorem Dev.modeShown_childLost (n : Nat) : (d.childLost n).modeShown = d.modeShown := by
  refine Dev.modeShown_ite ?_ rfl
  rw [Dev.modeShown_raise _ _ (by decide), Dev.modeShown_fault, Dev.modeShown_bump _ _ (by decide), Dev.modeShown_wr _ _ _ (by decide)]
  rfl

theorem Dev.modeShown_treeDown (l : Nat) : (d.treeDown l).modeShown = d.modeShown :=
  Dev.modeShown_ite d.modeShown_parentGone (Dev.modeShown_ite (d.modeShown_childLost _) rfl)

theorem Dev.modeShown_restartLane (l : Nat) : (d.restartLane l).modeShown = d.modeShown := by
  have detects : ((d.leaveUp l).enterDetect l 31).modeShown = d.modeShown :=
    ((Dev.modeShown_laneRests _ _ _ _).trans rfl).trans (d.modeShown_leaveUp l)
  exact Dev.modeShown_ite ((Dev.modeShown_treeDown _ _).trans detects) detects

theorem Dev.modeShown_disableLane (l : Nat) : (d.disableLane l).modeShown = d.modeShown :=
  ((Dev.modeShown_laneRests _ _ _ _).trans rfl).trans (d.modeShown_leaveUp l)

theorem Dev.modeShown_endLoopback (l : Nat) : (d.endLoopback l).modeShown = d.modeShown :=
  Dev.modeShown_ite rfl (Dev.modeShown_ite (d.modeShown_restartLane l) (d.modeShown_disableLane l))

/-! ### What a mode ends (R28, R161, R331, R462) -/

theorem Dev.modeShown_endSteps (outcome : Nat) : (d.endSteps outcome).modeShown = d.modeShown := by
  unfold Dev.endSteps
  refine Dev.modeShown_ite rfl ?_
  rw [Dev.modeShown_raise _ _ (by decide), Dev.modeShown_wr _ _ _ (by decide), Dev.modeShown_wr _ _ _ (by decide)]
  exact (foldl_keeps Dev.modeShown _ _ _ fun d n => d.modeShown_legForce ..).trans rfl

theorem Dev.modeShown_forceClear : d.forceClear.modeShown = d.modeShown :=
  foldl_keeps Dev.modeShown _ _ _ fun d _ => Dev.modeShown_ite (d.modeShown_legForce ..) rfl

theorem Dev.modeShown_endTests : d.endTests.modeShown = d.modeShown := by
  unfold Dev.endTests
  exact Dev.modeShown_ite rfl ((Dev.modeShown_wr _ _ _ (by decide)).trans rfl)

theorem Dev.modeShown_leaveMode (old : Mode) : (d.leaveMode old).modeShown = d.modeShown := by
  unfold Dev.leaveMode
  extract_lets stopped steps left
  have leaves : left.modeShown = d.modeShown :=
    (show left.modeShown = stopped.modeShown from rfl).trans
      (Dev.modeShown_ite ((Dev.modeShown_forceClear _).trans (d.modeShown_endSteps 5)) rfl)
  refine Dev.modeShown_ite (((Dev.modeShown_endTests _).trans ?_).trans leaves) leaves
  exact foldl_keeps Dev.modeShown _ _ _ fun d l => d.modeShown_endLoopback l

/-! ### What a mode begins (R19, R25, R183, R192, R431, R440) -/

theorem Dev.modeShown_guardPending : d.guardPending.modeShown = d.modeShown := by
  unfold Dev.guardPending
  refine Eq.trans (b := (d.wr F.sysGuardPend 1).modeShown) (Dev.modeShown_congr (by dsimp only) (by dsimp only) (by dsimp only)) ?_
  refine Dev.modeShown_of_rd (by simp only [Dev.wr_frame]) (by simp only [Dev.wr_frame]) fun g listed => ?_
  simp only [List.mem_cons, List.not_mem_nil, or_false] at listed
  rcases listed with rfl | rfl | rfl | rfl <;> exact Dev.rd_wr_apart _ _ _ _ _ _ (by decide) (by decide) (by decide)

theorem Dev.modeShown_driveSwitches (out : Nat) : (d.driveSwitches out).modeShown = d.modeShown := by
  unfold Dev.driveSwitches
  rw [Dev.modeShown_wr _ _ _ (by decide), Dev.modeShown_wr _ _ _ (by decide)]

theorem Dev.modeShown_startTests : d.startTests.modeShown = d.modeShown := by
  refine Dev.modeShown_ite rfl (Dev.modeShown_ite (d.modeShown_wr _ _ (by decide)) ?_)
  rw [Dev.modeShown_driveSwitches, Dev.modeShown_wr _ _ _ (by decide), Dev.modeShown_wr _ _ _ (by decide)]
  rfl

theorem Dev.modeShown_abandonTest : d.abandonTest.modeShown = d.modeShown := by
  refine Dev.modeShown_ite ?_ rfl
  rw [Dev.modeShown_raise _ _ (by decide), Dev.modeShown_bump _ _ (by decide), Dev.modeShown_wr _ _ _ (by decide),
    Dev.modeShown_wr _ _ _ (by decide)]
  rfl

theorem Dev.modeShown_tripDemand (snuffed : Bool) : (d.tripDemand snuffed).modeShown = d.modeShown := by
  unfold Dev.tripDemand
  extract_lets island ended abandoned driven demanded
  have demands : demanded.modeShown = d.modeShown := by
    refine Eq.trans (b := driven.modeShown)
      (Dev.modeShown_congr (by dsimp only [demanded]) (by dsimp only [demanded]) (by dsimp only [demanded])) ?_
    rw [Dev.modeShown_driveSwitches, Dev.modeShown_wr _ _ _ (by decide), Dev.modeShown_wr _ _ _ (by decide),
      Dev.modeShown_abandonTest]
  have waits : (if demanded.bkrOpen then demanded.raise 0x77 else demanded).modeShown = d.modeShown :=
    Dev.modeShown_ite ((Dev.modeShown_raise _ _ (by decide)).trans demands) demands
  exact Dev.modeShown_ite rfl waits

theorem Dev.modeShown_dropControl (l : Nat) : (d.dropControl l).modeShown = d.modeShown :=
  (foldl_keeps Dev.modeShown _ _ _ fun d _ => d.modeShown_bumpWord _ (by decide)).trans rfl

theorem Dev.modeShown_douseLane (l level : Nat) : (d.douseLane l level).modeShown = d.modeShown :=
  Dev.modeShown_ite rfl ((show _ = (d.dropControl l).modeShown from rfl).trans (d.modeShown_dropControl l))

theorem Dev.modeShown_sendDouse (level : Nat) : (d.sendDouse level).modeShown = d.modeShown :=
  (show _ = Dev.modeShown (List.foldl _ _ _) from rfl).trans (foldl_keeps Dev.modeShown _ _ _ fun d l => d.modeShown_douseLane l level)

theorem Dev.modeShown_driveContactors : d.driveContactors.modeShown = d.modeShown := by
  unfold Dev.driveContactors Dev.contactorsSettle
  exact Dev.modeShown_congr (by dsimp only) (by dsimp only) (by dsimp only)

theorem Dev.modeShown_enterSnuffed : d.enterSnuffed.modeShown = d.modeShown := by
  unfold Dev.enterSnuffed
  extract_lets demanded opened twin low
  rw [Dev.modeShown_raise _ _ (by decide), Dev.modeShown_driveContactors, Dev.modeShown_sendDouse]
  refine Eq.trans (b := opened.modeShown) (Dev.modeShown_congr (by dsimp only [low]) (by dsimp only [low]) (by dsimp only [low])) ?_
  rw [Dev.modeShown_wr _ _ _ (by decide), Dev.modeShown_wr _ _ _ (by decide)]
  exact Dev.modeShown_ite (d.modeShown_tripDemand true) rfl

/-! ### What switching begins (R192, R232, R267, R292), and what the new mode shows -/

theorem Dev.modeShown_showCell (s : Nat) : (d.showCell s).modeShown = d.modeShown := by
  refine (Dev.modeShown_wr _ _ _ (by decide)).trans (Dev.modeShown_ite rfl ?_)
  rw [Dev.modeShown_setWord _ _ _ (by decide), Dev.modeShown_setWord _ _ _ (by decide), Dev.modeShown_setWord _ _ _ (by decide)]

theorem Dev.modeShown_showCells : d.showCells.modeShown = d.modeShown :=
  foldl_keeps Dev.modeShown _ _ _ fun d s => d.modeShown_showCell s

theorem Dev.modeShown_showArms : d.showArms.modeShown = d.modeShown := by
  refine foldl_keeps Dev.modeShown _ _ _ fun d a => ?_
  rw [Dev.modeShown_wr _ _ _ (by decide), Dev.modeShown_wr _ _ _ (by decide)]

theorem Dev.modeShown_entryIndices (arm : Nat) : (d.entryIndices arm).modeShown = d.modeShown :=
  foldl_keeps Dev.modeShown _ _ _ fun d _ => d.modeShown_wr _ _ (by decide)

theorem Dev.modeShown_enterSwitching (takeover : Bool) : (d.enterSwitching takeover).modeShown = d.modeShown := by
  unfold Dev.enterSwitching
  extract_lets targets indexed sched entered cells
  rw [Dev.modeShown_showArms, Dev.modeShown_showCells]
  have cellsReset : cells.modeShown = entered.modeShown :=
    foldl_keeps Dev.modeShown _ _ _ fun d s => (Dev.modeShown_wr _ _ _ (by decide)).trans rfl
  have armsIndexed : entered.modeShown = targets.modeShown :=
    foldl_keeps Dev.modeShown _ _ _ fun d a => d.modeShown_entryIndices a
  have targetsReset : targets.modeShown = d.modeShown := foldl_keeps Dev.modeShown _ _ _ fun _ _ => rfl
  exact cellsReset.trans (armsIndexed.trans targetsReset)

theorem Dev.modeShown_resumeSwitching (takeover : Bool) : (d.resumeSwitching takeover).modeShown = d.modeShown := by
  unfold Dev.resumeSwitching
  extract_lets epoch sched undoused loops
  rw [Dev.modeShown_enterSwitching]
  refine (show loops.modeShown = undoused.modeShown from ?_).trans ((show undoused.modeShown = epoch.modeShown from rfl).trans ?_)
  · exact Dev.modeShown_ite rfl (foldl_keeps Dev.modeShown _ _ _ fun _ _ => rfl)
  · exact Dev.modeShown_ite (d.modeShown_wr _ _ (by decide)) rfl

theorem Dev.modeShown_showSafeOut : d.showSafeOut.modeShown = d.modeShown := d.modeShown_wr _ _ (by decide)

/-! ## A change of mode (R30, R31) -/

/-- The mode word as a change of mode writes it. -/
def Dev.modeWritten (d : Dev) (m : Mode) (old cause : Nat) : Dev :=
  (((d.wr F.sysModePrev old).wr F.sysMode (modeCode m)).bumpWrap F.sysModeSeq).wr F.sysModeCause cause

/-- What the mode entered begins. -/
def Dev.modeBegins (d : Dev) (m old : Mode) (takeover : Bool) : Dev :=
  let d := match m with
    | .held => d.guardPending.startTests
    | .dark => d.sendDouse 3
    | .snuffed => d.enterSnuffed
    | _ => d
  let d := if m.switching && !old.switching then d.resumeSwitching takeover else d
  let d := if m.guardMayOpen then d else { d with tap := none }
  ((d.legsRefresh.brakeUpdate).showCells.showSafeOut).raise 0x02

theorem modeCode_fits (m : Mode) : modeCode m < 16 := by cases m <;> decide

theorem Dev.modeShown_modeWritten (m : Mode) {old cause : Nat} (oldFits : old < 16) (causeFits : cause < 16) :
    (d.modeWritten m old cause).modeShown =
      (d.boot, d.clock, modeCode m, old, (d.rd F.sysModeSeq + 1) % 256, cause) := by
  unfold Dev.modeWritten Dev.modeShown Dev.bumpWrap
  simp (disch := decide) only [Dev.wr_frame, Dev.rd_wr_same, Dev.rd_wr_apart]
  have fits := modeCode_fits m
  refine congrArg₂ _ rfl (congrArg₂ _ rfl (congrArg₂ _ (Nat.mod_eq_of_lt fits) (congrArg₂ _ (Nat.mod_eq_of_lt oldFits)
    (congrArg₂ _ (Nat.mod_mod ..) (Nat.mod_eq_of_lt causeFits)))))

theorem Dev.modeShown_modeBegins (m old : Mode) (takeover : Bool) : (d.modeBegins m old takeover).modeShown = d.modeShown := by
  unfold Dev.modeBegins
  extract_lets begun switching tapped
  have begins : begun.modeShown = d.modeShown := by
    cases m with
    | held => exact (Dev.modeShown_startTests _).trans d.modeShown_guardPending
    | dark => exact d.modeShown_sendDouse 3
    | snuffed => exact d.modeShown_enterSnuffed
    | _ => rfl
  have switches : switching.modeShown = d.modeShown :=
    Dev.modeShown_ite ((Dev.modeShown_resumeSwitching _ _).trans begins) begins
  have taps : tapped.modeShown = d.modeShown := Dev.modeShown_ite switches switches
  rw [Dev.modeShown_raise _ _ (by decide), Dev.modeShown_showSafeOut, Dev.modeShown_showCells, Dev.modeShown_brakeUpdate,
    Dev.modeShown_legsRefresh, taps]

theorem Dev.changeMode_eq (m : Mode) (cause : Nat) (takeover : Bool) :
    ∃ modes, d.changeMode m cause takeover =
      { (d.leaveMode d.mode).modeWritten m (modeCode d.mode) cause with modes := modes }.modeBegins m d.mode takeover := ⟨_, rfl⟩

theorem Dev.modeShown_changeMode (m : Mode) {cause : Nat} (takeover : Bool) (fits : cause < 16) :
    (d.changeMode m cause takeover).modeShown =
      (d.boot, d.clock, modeCode m, modeCode d.mode, (d.rd F.sysModeSeq + 1) % 256, cause) := by
  obtain ⟨modes, changed⟩ := d.changeMode_eq m cause takeover
  have left := d.modeShown_leaveMode d.mode
  simp only [Dev.modeShown, Prod.mk.injEq] at left
  obtain ⟨boot, clock, -, -, seq, -⟩ := left
  rw [changed, Dev.modeShown_modeBegins, ← boot, ← clock, ← seq, ← Dev.modeShown_modeWritten _ m (modeCode_fits _) fits]
  exact Dev.modeShown_congr (by dsimp only) (by dsimp only) (by dsimp only)

end

/-! ## Steps and conditions at a boundary (R27, R28) -/

section
variable {d : Dev}

/-- The boundary that ends the recovery time in RIDE_THROUGH returns to the run mode (R27). -/
theorem Dev.conditionStep_recovered (mode : d.mode = .rideThrough) (enabled : d.on F.stgRtEn = true) (whole : d.rd F.hmpArmFloor = 0)
    (few : d.rd F.hmpArmShort = 0) (inside : d.outsideEnvelope = false)
    (recovered : d.rd F.stgRtRecover * ticksMs ≤ (d.modes.insideFor + 1) * d.cycle) :
    d.conditionStep = ({ d with modes := { d.modes with insideFor := d.modes.insideFor + 1 } }).enterMode d.runMode 6 := by
  have tested : d.testEnvelope = { d with modes := { d.modes with insideFor := d.modes.insideFor + 1 } } := by
    rw [Dev.testEnvelope, enabled, mode, inside]
    rfl
  have applies : d.testEnvelope.conditionTo = some d.runMode := by
    have again : d.testEnvelope.recoveredBy d.testEnvelope.modes.insideFor = true := by
      rw [tested]
      exact Bool.and_eq_true_iff.mpr ⟨decide_eq_true (Nat.succ_pos _), decide_eq_true recovered⟩
    have mode' : d.testEnvelope.mode = .rideThrough := by rw [tested]; exact mode
    have whole' : d.testEnvelope.rd F.hmpArmFloor = 0 := by rw [tested]; exact whole
    have few' : d.testEnvelope.rd F.hmpArmShort = 0 := by rw [tested]; exact few
    have run' : d.testEnvelope.runMode = d.runMode := by rw [tested]; rfl
    unfold Dev.conditionTo
    rw [mode', whole', few', again, run']
    simp [Mode.run]
  rw [Dev.conditionStep, applies, tested]

section
variable (mode : d.mode = .service ∨ d.mode = .calibrate) (runs : d.rd F.stgStepState = 1) (started : d.steps.startReq = false)
include mode runs started

theorem Dev.stepBoundary_runs : d.stepBoundary =
    if 1 < d.rd F.stgStepWait then d.wr F.stgStepWait (d.rd F.stgStepWait - 1) else (d.wr F.stgStepWait 0).nextStep := by
  unfold Dev.stepBoundary
  have sequenced : ¬ ((!(decide (d.mode = .service) || decide (d.mode = .calibrate))) = true) := by
    rcases mode with mode | mode <;> simp [mode]
  rw [if_neg sequenced, if_neg (by omega), if_pos runs, if_neg (Bool.eq_false_iff.mp started)]

theorem Dev.stepBoundary_waits (waits : 1 < d.rd F.stgStepWait) :
    d.stepBoundary = d.wr F.stgStepWait (d.rd F.stgStepWait - 1) :=
  (Dev.stepBoundary_runs mode runs started).trans (if_pos waits)

theorem Dev.stepBoundary_nextStep (ran : d.rd F.stgStepWait ≤ 1) (more : d.rd F.stgStepIdx < 127) :
    d.stepBoundary = ((d.wr F.stgStepWait 0).wr F.stgStepIdx (d.rd F.stgStepIdx + 1)).startStep := by
  have same : (d.wr F.stgStepWait 0).rd F.stgStepIdx = d.rd F.stgStepIdx :=
    Dev.rd_wr_apart _ _ _ _ _ _ (by decide) (by decide) (by decide)
  rw [Dev.stepBoundary_runs mode runs started, if_neg (Nat.not_lt.mpr ran), Dev.nextStep, same, if_neg (Nat.not_le.mpr more)]

end
end

/-- Settles O26: the rows by their conditions, the change of mode by what it writes last. -/
theorem modesChangeAndTimersAct : Obligations.ModesChangeAndTimersAct := by
  unfold Obligations.ModesChangeAndTimersAct
  refine ⟨fun s t => ?timers, fun d => Dev.conditionStep_recovered, fun d mode runs started => ?steps, fun d m cause takeover fits => ?change⟩
  case timers =>
    intro d next
    refine ⟨fun mode late => ?precharge, fun mode enabled late => ?exceeded, fun mode enabled due inside recovered => ?recovered,
      fun runs kind wait started due => ?wait⟩
    case precharge =>
      rw [exec_prechargeTimeout]
      refine event_dev (if_pos ?_)
      simp only [Bool.and_eq_true, decide_eq_true_eq]
      exact ⟨mode, late⟩
    case exceeded =>
      rw [exec_rideThroughExceeded]
      refine event_dev (if_pos ?_)
      simp only [Bool.and_eq_true, decide_eq_true_eq]
      exact ⟨⟨mode, enabled⟩, late⟩
    case recovered =>
      rw [exec_rideThroughRecovered]
      refine event_dev (if_pos ?_)
      simp only [Bool.and_eq_true, beq_iff_eq, Bool.not_eq_true']
      exact ⟨⟨⟨⟨due, mode⟩, enabled⟩, inside⟩, recovered⟩
    case wait =>
      rw [exec_stepWaitExpiry]
      refine event_dev (if_pos ?_)
      simp only [Bool.and_eq_true, beq_iff_eq, Bool.not_eq_true']
      exact ⟨⟨⟨⟨due, runs⟩, kind⟩, wait⟩, started⟩
  case steps => exact ⟨Dev.stepBoundary_waits mode runs started, Dev.stepBoundary_nextStep mode runs started⟩
  case change =>
    have shown := d.modeShown_changeMode m takeover fits
    simp only [Dev.modeShown, Prod.mk.injEq] at shown
    obtain ⟨boot, clock, mode, prev, seq, cause⟩ := shown
    exact ⟨Dev.mode_of_rd mode, prev, cause, seq, boot, clock⟩

end Sys2Proof.Machine
end

section
/-!
PROOFS. What leaves a lane (R33, R167, R177, R178, R182), and what an acknowledgement or a replay timeout does.
-/
namespace Sys2Proof.Machine

/-! ## A frame put on the line (R168, R179) -/

section
variable (d : Dev) (l : Fin 55)

theorem Dev.keepsLanes_revisionVoid (revision : Nat) : d.KeepsLanes (d.revisionVoid revision) := by
  unfold Dev.revisionVoid
  refine .ite (.refl d) (.trans ?_ (Dev.keepsLanes_raise _ _ _))
  exact .trans (b := { d with sched := { d.sched with revisionLost := revision } }) (Dev.keepsLanes_of_eq rfl rfl rfl)
    (Dev.keepsLanes_bump_after _ 0 (by decide))

theorem Dev.keepsLanes_noteSync (n : Nat) (i : TxItem) (resend : Bool) : d.KeepsLanes (d.noteSync n i resend) := by
  unfold Dev.noteSync
  exact .ite (Dev.keepsLanes_of_eq rfl rfl rfl) (.refl d)

theorem Dev.keepsLanes_frameSeen (n : Nat) (sent : Bool) (at_ : Nat) (bytes : Bytes) : d.KeepsLanes (d.frameSeen n sent at_ bytes) :=
  (d.near_acqLatch _ _).keepsLanes (d.lanes_acqLatch _ _)

theorem Dev.keepsLanes_voided (revision : Nat) (late : Bool) :
    d.KeepsLanes (if late then ((d.bump F.frmLate l).raise 0x14).revisionVoid revision else d) :=
  .ite (((d.keepsLanes_bump_after _ (by decide)).trans (Dev.keepsLanes_raise _ _ _)).trans (Dev.keepsLanes_revisionVoid _ _)) (.refl d)

@[simp] theorem Dev.rd_onLine (n : Nat) (u : TxUnit) (blocks : List (Bool × Bytes)) (f : Fld) (i : Nat) :
    (d.onLine n u blocks).rd f i = d.rd f i := rfl

@[simp] theorem Dev.sending_onLine (n : Nat) (u : TxUnit) (blocks : List (Bool × Bytes)) :
    ((d.onLine n u blocks).lane n).sending = some u := by
  rw [Dev.onLine, Dev.lane_setLane, if_pos rfl]

@[simp] theorem Dev.held_onLine (n : Nat) (u : TxUnit) (blocks : List (Bool × Bytes)) :
    ((d.onLine n u blocks).lane n).held = (d.lane n).held := by
  rw [Dev.onLine, Dev.lane_setLane, if_pos rfl]

/-- A frame sent leaves every field of its lane but the fill of the replay buffer, and is the unit on the line; a new one is held
(R168, R178). -/
theorem Dev.sendFrame_leaves (seq : Nat) (i : TxItem) (void resend : Bool) :
    let e := d.sendFrame l seq i void resend
    (∀ f : Fld, f.ofLane = true → F.frmReplayFill.clear f = true → e.rd f l = d.rd f l)
    ∧ (∃ bytes, (e.lane l).sending = some (.frame seq bytes))
    ∧ (resend = false → ∃ v at_, (e.lane l).held = (d.lane l).held ++ [{ seq := seq, item := i, void := v, endAt := at_ }]) := by
  unfold Dev.sendFrame
  extract_lets rate size late voided gone bytes synced x blocks endAt mark held kept sofOn seen
  have before : d.KeepsLanes synced :=
    (d.keepsLanes_voided l _ _).trans (.ite (.refl _) (Dev.keepsLanes_noteSync _ _ _ _))
  have after : kept.KeepsLanes seen := .ite (.refl kept) (Dev.keepsLanes_frameSeen _ _ _ _ _)
  have heldBefore : x.held = (d.lane l).held := before.field l (·.held) fun _ => rfl
  have heldAfter : (seen.lane l).held = held :=
    (after.field l (·.held) fun _ => rfl).trans (congrArg Lane.held ((Dev.lane_setLane _ _ _ _).trans (if_pos rfl)))
  refine ⟨fun f own clear => ?fields, ⟨bytes, Dev.sending_onLine _ _ _ _⟩, fun new => ⟨gone, endAt, ?held⟩⟩
  case fields =>
    rw [Dev.rd_onLine, Dev.rd_wr_lane _ _ l (by decide) (Fld.perLane_of_ofLane own) clear, after.rd f l own]
    exact before.rd f l own
  case held =>
    rw [Dev.held_onLine, Dev.lane_wr, heldAfter, ← heldBefore]
    exact if_neg (Bool.eq_false_iff.mp new)

end

/-! ## A free block boundary (R151, R182) -/

/-- A lane in whose place the frame layer sends does not train, sleep or loop back. -/
theorem Dev.laneState_of_transmits {d : Dev} {l : Nat} (transmits : d.transmits l = true) : d.laneState l = 7 ∨ d.laneState l = 9 := by
  simpa [Dev.transmits, Dev.laneUp, lsRehunt] using transmits

section
variable {d : Dev} {l : Nat}

theorem Dev.transmit_frame (transmits : d.transmits l = true) (calm : (d.lane l).douseLeft = 0) (free : (d.lane l).busyUntil ≤ d.up) :
    d.transmit l = d.transmitFrame l := by
  have still : d.trains l = false ∧ (d.laneState l == lsLpIdle) = false ∧ (d.laneState l == lsLoopback) = false := by
    rcases Dev.laneState_of_transmits transmits with state | state <;>
      simp [Dev.trains, state, lsDetect, lsHunt, lsExchange, lsSwitch, lsVerify, lsFallback, lsLpIdle, lsLoopback]
  obtain ⟨noTrain, noIdle, noLoop⟩ := still
  unfold Dev.transmit
  dsimp only
  rw [calm, noTrain, noIdle, noLoop, transmits]
  exact (if_neg (Nat.lt_irrefl 0)).trans (if_neg (Nat.not_lt.mpr free))

theorem Lane.response_nak {x : Lane} {q : Nat} (due : x.nakDue = some q) :
    x.response = some (.nak q, seqBlock 0x41 q, { x with nakDue := none }) := by
  unfold Lane.response
  split <;> simp_all

theorem Lane.response_ack {x : Lane} {q : Nat} (noNak : x.nakDue = none) (due : x.ackDue = some q) :
    x.response = some (.ack q, seqBlock 0x40 q, { x with ackDue := none }) := by
  unfold Lane.response
  split <;> simp_all

theorem Lane.response_none {x : Lane} (noNak : x.nakDue = none) (noAck : x.ackDue = none) : x.response = none := by
  rw [Lane.response, noNak, noAck]

theorem Dev.transmitFrame_response {u : TxUnit} {block : Bytes} {y : Lane} (due : (d.lane l).response = some (u, block, y)) :
    d.transmitFrame l = (d.setLane l y).onLine l u [(true, block)] := by
  rw [Dev.transmitFrame, due]
  rfl

section
variable (silent : (d.lane l).response = none) (whole : (d.lane l).again = none)
include silent whole

theorem Dev.transmitFrame_replay {q : Nat} {rest : List Nat} {h : Sent} (replays : (d.lane l).replay = q :: rest)
    (held : ((d.lane l).held.find? fun h => h.seq == q) = some h) : d.transmitFrame l =
      ((d.setLane l { d.lane l with replay := rest }).bump F.frmReplays l).sendFrame l q h.item h.void true := by
  simp only [Dev.transmitFrame, silent, whole, replays, held]

theorem Dev.transmitFrame_next (noReplay : (d.lane l).replay = []) : d.transmitFrame l =
    match d.nextItem l with
    | some i =>
      ((d.setLane l { d.lane l with wait := (d.lane l).wait.erase i }).wr F.frmTxNext ((d.rd F.frmTxNext l + 1) % 256) l).sendFrame
        l (d.rd F.frmTxNext l) i false false
    | none => d.onLine l .idle [(true, idleBlock)] := by
  simp only [Dev.transmitFrame, silent, whole, noReplay]
  rfl

end
end

/-- A new frame goes under the next SEQ and is held (R33, R178). -/
theorem Dev.sendFrame_new (d : Dev) (l : Fin 55) (i : TxItem) :
    let e := ((d.setLane l { d.lane l with wait := (d.lane l).wait.erase i }).wr F.frmTxNext ((d.rd F.frmTxNext l + 1) % 256) l).sendFrame
      l (d.rd F.frmTxNext l) i false false
    ∃ v at_ bytes, e.rd F.frmTxNext l = (d.rd F.frmTxNext l + 1) % 256
      ∧ (e.lane l).held = (d.lane l).held ++ [{ seq := d.rd F.frmTxNext l, item := i, void := v, endAt := at_ }]
      ∧ (e.lane l).sending = some (.frame (d.rd F.frmTxNext l) bytes) := by
  extract_lets e
  obtain ⟨fields, ⟨bytes, sending⟩, held⟩ := Dev.sendFrame_leaves
    ((d.setLane l { d.lane l with wait := (d.lane l).wait.erase i }).wr F.frmTxNext ((d.rd F.frmTxNext l + 1) % 256) l)
    l (d.rd F.frmTxNext l) i false false
  obtain ⟨v, at_, held⟩ := held rfl
  refine ⟨v, at_, bytes, ?_, ?_, sending⟩
  · exact (fields F.frmTxNext (by decide) (by decide)).trans (Dev.rd_wr_fits _ _ (by decide) (Nat.mod_lt _ (by decide)))
  · rw [Dev.lane_wr, Dev.lane_setLane, if_pos rfl] at held
    exact held

/-! ## Acknowledgements (R177, R178) -/

theorem heldAfter_shorter {held : List Sent} {seq : Nat} (named : (held.any fun h => h.seq == seq) = true) :
    (heldAfter held seq true).length < held.length := by
  have some_ : (held.dropWhile fun h => h.seq != seq) ≠ [] := by
    intro none_
    obtain ⟨h, mem, same⟩ := List.any_eq_true.mp named
    have other := List.dropWhile_eq_nil_iff.mp none_ h mem
    simp_all
  have most : (held.dropWhile fun h => h.seq != seq).length ≤ held.length := (List.dropWhile_sublist _).length_le
  have := List.length_pos_iff.mpr some_
  simp only [heldAfter, if_true, List.length_drop]
  omega

/-- What is released twice up to the same SEQ is released once. -/
theorem heldAfter_heldAfter (held : List Sent) (seq : Nat) :
    heldAfter (heldAfter held seq false) seq false = heldAfter held seq false := List.dropWhile_idempotent _ held

theorem heldAfter_first {h : Sent} (rest : List Sent) : heldAfter (h :: rest) h.seq false = h :: rest := by
  simp [heldAfter]

section
variable (d : Dev) (l : Fin 55)

/-- A write of a field of a lane leaves other objects alone. -/
theorem Dev.rd_wr_outside {f g : Fld} {i : Nat} (v : Nat) (own : f.ofLane = true) (other : g.key i / 65536 ∉ laneObjects) :
    (d.wr f v l).rd g i = d.rd g i := by
  refine Dev.rd_wr_object d v fun same => other ?_
  rw [same]
  exact Fld.key_ofLane own l

/-- What an acknowledgement leaves of a lane: the frames not released, and no repeated replay once one was released. -/
theorem Dev.acknowledge_leaves (held : List Sent) {newest : Nat} (fits : newest < 256) :
    let e := d.acknowledge l held newest
    (held.length ≠ (d.lane l).held.length → (e.lane l).held = held ∧ (e.lane l).retries = 0 ∧ e.rd F.frmTxAcked l = newest)
    ∧ (held.length = (d.lane l).held.length → e = d) ∧ e.rd F.frmRetryMax = d.rd F.frmRetryMax := by
  unfold Dev.acknowledge
  refine ⟨fun shorter => ?released, fun same => if_pos same, ?limit⟩
  case released =>
    rw [if_neg shorter, Dev.lane_wr, Dev.lane_wr, Dev.lane_setLane, if_pos rfl, Dev.rd_wr_lane _ _ l (by decide) (by decide) (by decide)]
    exact ⟨rfl, rfl, Dev.rd_wr_fits _ _ (by decide) fits⟩
  case limit =>
    dsimp only
    split
    · rfl
    · rw [Dev.rd_wr_outside _ l _ (by decide) (by decide), Dev.rd_wr_outside _ l _ (by decide) (by decide)]
      rfl

section
variable {seq : Nat} (transmits : d.transmits l = true)
include transmits

theorem Dev.ackBlock_held (held : ((d.lane l).held.any fun h => h.seq == seq) = true) :
    d.ackBlock l seq = d.acknowledge l (heldAfter (d.lane l).held seq true) seq :=
  if_pos (Bool.and_eq_true_iff.mpr ⟨transmits, held⟩)

theorem Dev.nakBlock_held (held : ((d.lane l).held.any fun h => h.seq == seq) = true) :
    d.nakBlock l seq = (d.acknowledge l (heldAfter (d.lane l).held seq false) ((seq + 255) % 256)).startReplay l seq :=
  if_pos (Bool.and_eq_true_iff.mpr ⟨transmits, held⟩)

end

section
variable {seq : Nat} (strange : ((d.lane l).held.any fun h => h.seq == seq) = false)
include strange

theorem Dev.ackBlock_strange : d.ackBlock l seq = d := if_neg fun named => by simp [strange] at named

theorem Dev.nakBlock_strange : d.nakBlock l seq = d := if_neg fun named => by simp [strange] at named

end

/-- An ACK of a held SEQ (R178). -/
theorem Dev.ackBlock_releases {seq : Nat} (fits : seq < 256) (transmits : d.transmits l = true)
    (held : ((d.lane l).held.any fun h => h.seq == seq) = true) :
    let e := d.ackBlock l seq
    (e.lane l).held = heldAfter (d.lane l).held seq true ∧ (e.lane l).retries = 0 ∧ e.rd F.frmTxAcked l = seq := by
  obtain ⟨released, -⟩ := d.acknowledge_leaves l (heldAfter (d.lane l).held seq true) fits
  rw [d.ackBlock_held l transmits held]
  exact released (Nat.ne_of_lt (heldAfter_shorter held))

/-- A replay that is the first at its oldest frame (R178). -/
theorem Dev.startReplay_first {d : Dev} {l : Nat} (seq : Nat) (limit : 2 ≤ d.rd F.frmRetryMax) (fresh : (d.lane l).retries = 0) :
    d.startReplay l seq = d.setLane l { d.lane l with
      retries := 1, retrySeq := ((d.lane l).held.head?.map (·.seq)).getD seq, again := none
      replay := (heldAfter (d.lane l).held seq false).map fun h => h.seq } := by
  have first : (if 0 < (d.lane l).retries && (d.lane l).retrySeq == ((d.lane l).held.head?.map (·.seq)).getD seq then
      (d.lane l).retries + 1 else 1) = 1 := if_neg (by simp [fresh])
  unfold Dev.startReplay
  dsimp only
  rw [first, if_neg (by omega)]

/-- A replay that is one of a row at the same oldest frame (R178): the last of them restarts the lane. -/
theorem Dev.startReplay_last {d : Dev} {l : Nat} {h : Sent} {rest : List Sent} (held : (d.lane l).held = h :: rest)
    (again : 0 < (d.lane l).retries) (same : (d.lane l).retrySeq = h.seq) (limit : d.rd F.frmRetryMax ≤ (d.lane l).retries + 1) :
    d.startReplay l h.seq = d.restartLane l := by
  unfold Dev.startReplay
  dsimp only
  rw [held]
  simp only [List.head?_cons, Option.map_some, Option.getD_some, same, beq_self_eq_true, Bool.and_true, decide_eq_true_eq, if_pos again,
    if_pos limit]

/-- A NAK of a held SEQ (R177, R178). -/
theorem Dev.nakBlock_replays {seq : Nat} (transmits : d.transmits l = true)
    (held : ((d.lane l).held.any fun h => h.seq == seq) = true) (limit : 2 ≤ d.rd F.frmRetryMax) (fresh : (d.lane l).retries = 0) :
    let e := d.nakBlock l seq
    (e.lane l).held = heldAfter (d.lane l).held seq false
      ∧ (e.lane l).replay = (heldAfter (d.lane l).held seq false).map (·.seq) ∧ (e.lane l).retries = 1 := by
  obtain ⟨released, kept, retryMax⟩ := d.acknowledge_leaves l (heldAfter (d.lane l).held seq false)
    (newest := (seq + 255) % 256) (Nat.mod_lt _ (by decide))
  have acked : ((d.acknowledge l (heldAfter (d.lane l).held seq false) ((seq + 255) % 256)).lane l).held
        = heldAfter (d.lane l).held seq false
      ∧ ((d.acknowledge l (heldAfter (d.lane l).held seq false) ((seq + 255) % 256)).lane l).retries = 0 := by
    by_cases whole : (heldAfter (d.lane l).held seq false).length = (d.lane l).held.length
    · rw [kept whole]
      exact ⟨((List.dropWhile_sublist _).eq_of_length whole).symm, fresh⟩
    · obtain ⟨rest, none_, -⟩ := released whole
      exact ⟨rest, none_⟩
  obtain ⟨rest, none_⟩ := acked
  rw [d.nakBlock_held l transmits held, Dev.startReplay_first seq (retryMax ▸ limit) none_]
  dsimp only
  rw [Dev.lane_setLane, if_pos rfl, rest, heldAfter_heldAfter]
  exact ⟨rfl, rfl, rfl⟩

end

/-- Settles O41: the branches of a block boundary, of an acknowledgement and of a replay. -/
theorem framesAreSentAndAcknowledged : Obligations.FramesAreSentAndAcknowledged := by
  unfold Obligations.FramesAreSentAndAcknowledged
  intro s t n d l x next
  refine ⟨?boundary, fun unlocked => ?unlocked, ?acknowledged, ?overdue⟩
  case boundary =>
    intro y x locked transmits calm free
    have turn : exec (.laneFrameTransmit t n) s = next (y.transmitFrame l) := by
      rw [exec_laneFrameTransmit]
      exact event_dev ((if_pos locked).trans (Dev.transmit_frame transmits calm free))
    rw [turn]
    refine ⟨fun q nak => ?nak, fun q noNak ack => ?ack, fun q rest h noNak noAck whole replays held => ?replay,
      fun i noNak noAck whole noReplay waits => ?new, fun noNak noAck whole noReplay none_ => ?idle⟩
    case nak => exact congrArg next (Dev.transmitFrame_response (Lane.response_nak nak))
    case ack => exact congrArg next (Dev.transmitFrame_response (Lane.response_ack noNak ack))
    case replay => exact congrArg next (Dev.transmitFrame_replay (Lane.response_none noNak noAck) whole replays held)
    case new =>
      have sent := Dev.transmitFrame_next (Lane.response_none noNak noAck) whole noReplay
      rw [waits] at sent
      obtain ⟨v, at_, bytes, leaves⟩ := y.sendFrame_new n i
      exact ⟨_, v, at_, bytes, congrArg next sent, leaves⟩
    case idle =>
      have sent := Dev.transmitFrame_next (Lane.response_none noNak noAck) whole noReplay
      rw [none_] at sent
      exact congrArg next sent
  case unlocked =>
    rw [exec_laneFrameTransmit]
    exact event_dev (if_neg (Bool.eq_false_iff.mp unlocked))
  case acknowledged =>
    intro seq q after transmits
    refine ⟨fun held => ⟨?ack, fun limit fresh => ?nak⟩, fun strange => ⟨?ackStrange, ?nakStrange⟩⟩
    case ack =>
      refine ⟨_, ?_, d.ackBlock_releases n seq.isLt transmits held⟩
      rw [exec_ack]
      exact event_dev rfl
    case nak =>
      refine ⟨_, ?_, d.nakBlock_replays n transmits held limit fresh⟩
      rw [exec_nak]
      exact event_dev rfl
    case ackStrange =>
      rw [exec_ack]
      exact event_dev (d.ackBlock_strange n strange)
    case nakStrange =>
      rw [exec_nak]
      exact event_dev (d.nakBlock_strange n strange)
  case overdue =>
    intro h rest held transmits noReplay
    have acts : exec (.replayTimeout t n) s = next (if d.replayDue h then d.startReplay l h.seq else d) := by
      rw [exec_replayTimeout]
      refine event_dev ?_
      rw [show ((s.dev.advance t).lane n).held = h :: rest from held]
      dsimp only [List.head?_cons]
      rw [show (s.dev.advance t).transmits n = true from transmits, show ((s.dev.advance t).lane n).replay = [] from noReplay]
      rfl
    rw [acts]
    refine ⟨fun inTime => congrArg next (if_neg (Bool.eq_false_iff.mp inTime)), fun late => ⟨fun limit fresh => ?first,
      fun again same limit => ?last⟩⟩
    case first =>
      refine congrArg next ((if_pos late).trans ((Dev.startReplay_first h.seq limit fresh).trans ?_))
      have whole : heldAfter (d.lane l).held h.seq false = x.held := (congrArg (heldAfter · h.seq false) held).trans
        ((heldAfter_first rest).trans held.symm)
      have oldest : ((d.lane l).held.head?.map (·.seq)).getD h.seq = h.seq := by rw [show (d.lane l).held = h :: rest from held]; rfl
      rw [whole, oldest]
    case last => exact congrArg next ((if_pos late).trans (Dev.startReplay_last held again same limit))

end Sys2Proof.Machine
end

section
/-!
PROOFS. Low power, bad blocks and DOUSE on a lane (R40, R146, R148, R152, R160, R161, R184, R185).
-/
namespace Sys2Proof.Machine

/-! ## A lane that wakes (R160) -/

section
variable (d : Dev) (l : Fin 55)

/-- A frame sent leaves the state of its lane. -/
theorem Dev.laneState_sendFrame (seq : Nat) (i : TxItem) (void resend : Bool) :
    (d.sendFrame l seq i void resend).laneState l = d.laneState l := by
  obtain ⟨fields, -⟩ := d.sendFrame_leaves l seq i void resend
  exact fields F.laneState (by decide) (by decide)

theorem Dev.laneState_transmitFrame : (d.transmitFrame l).laneState l = d.laneState l := by
  unfold Dev.transmitFrame
  dsimp only
  split
  · rfl
  · split
    · split
      · exact (Dev.laneState_sendFrame _ l _ _ _ _).trans rfl
      · rfl
    · split
      · refine (Dev.laneState_sendFrame _ l _ _ _ _).trans ?_
        exact (Dev.keepsLanes_bump_after (f := F.frmReplays) _ _ (by decide)).rd F.laneState l (by decide)
      · rfl
    · split
      · exact (Dev.laneState_sendFrame _ l _ _ _ _).trans (Dev.rd_wr_lane _ _ l (by decide) (by decide) (by decide))
      · rfl

theorem Dev.laneState_insertResponse (n : Nat) : (d.insertResponse l).laneState n = d.laneState n := by
  unfold Dev.insertResponse
  dsimp only
  split
  · split <;> rfl
  · rfl

/-- A block boundary of a lane that is UP leaves it UP. -/
theorem Dev.laneState_transmit (up : d.laneState l = 7) : (d.transmit l).laneState l = 7 := by
  have transmits : d.transmits l = true := by simp [Dev.transmits, Dev.laneUp, up]
  by_cases calm : (d.lane l).douseLeft = 0
  · by_cases free : (d.lane l).busyUntil ≤ d.up
    · rw [Dev.transmit_frame transmits calm free, Dev.laneState_transmitFrame, up]
    · unfold Dev.transmit
      dsimp only
      rw [if_neg (by omega), if_pos (Nat.lt_of_not_le free), if_pos transmits, Dev.laneState_insertResponse, up]
  · unfold Dev.transmit
    dsimp only
    rw [if_pos (Nat.pos_of_ne_zero calm)]
    split <;> exact up

theorem Dev.laneState_wakeUp : (d.wakeUp l).laneState l = 7 :=
  Dev.laneState_transmit _ l (Dev.rd_wr_fits _ _ (by decide) (by decide))

end

/-! ## Blocks of no good, and DOUSE (R148, R185, R403) -/

section
variable {d : Dev}

theorem Dev.verifyAgain_other {l : Nat} (other : d.laneState l ≠ 5) : d.verifyAgain l = d :=
  if_neg fun same => other (beq_iff_eq.mp same)

theorem Dev.verifyAgain_verifying {l : Nat} (verifies : d.laneState l = 5) :
    d.verifyAgain l = d.setLane l { d.lane l with passed := false, verifyFrom := d.up } := if_pos (beq_iff_eq.mpr verifies)

theorem Dev.bump_keeps (d : Dev) (f : Fld) (i : Nat) : (d.bump f i).lanes = d.lanes ∧ (d.bump f i).clock = d.clock := by
  obtain same | more := d.bump_cases f i
  · rw [same]
    exact ⟨rfl, rfl⟩
  · rw [more]
    simp only [Dev.wr_frame, and_self]

theorem Dev.lane_bump (d : Dev) (f : Fld) (i l : Nat) : (d.bump f i).lane l = d.lane l := by
  rw [Dev.lane, (d.bump_keeps f i).1, Dev.lane]

theorem Dev.up_bump (d : Dev) (f : Fld) (i : Nat) : (d.bump f i).up = d.up := by
  rw [Dev.up, (d.bump_keeps f i).2, Dev.up]

/-- The block counters of a lane stand apart from its state. -/
theorem Dev.laneState_bump (d : Dev) (l : Fin 55) (f : Fld) (own : f = F.laneBlocksBad ∨ f = F.laneBlocksUnk) :
    (d.bump f l).laneState l = d.laneState l := by
  obtain same | more := d.bump_cases f l
  · rw [same]
  · rw [more]
    refine Dev.rd_wr_object d _ ?_
    have state : F.laneState.key l / 65536 ≠ 0x0203 := by
      rw [Fld.key_perLane (by decide)]
      simp only [F.laneState]
      omega
    have object : f.key l / 65536 = 0x0203 := by
      rcases own with rfl | rfl <;> simp only [Fld.key, Fld.soAt, Fld.wordAt, wordKey, F.laneBlocksBad, F.laneBlocksUnk, if_true] <;> omega
    rw [object]
    exact state

theorem Dev.causeActive_wr (d : Dev) (f : Fld) (v i src : Nat) : (d.wr f v i).causeActive 7 src = d.causeActive 7 src := by
  simp only [Dev.causeActive, Dev.douseFresh, Dev.now, Dev.wr_frame]
  rfl

/-- A DOUSE block on U whose cause was not active raises class 7 (R403). -/
theorem Dev.parentDouse_raises {level : Nat} (fresh : d.causeActive 7 (level - 3) = false) :
    (d.parentDouse level).coll.raises = d.coll.raises ++ [{ cls := 7, src := level - 3 }]
      ∧ (d.parentDouse level).coll.douseUAt = some d.now := by
  unfold Dev.parentDouse
  dsimp only
  rw [if_neg (Bool.eq_false_iff.mp fresh)]
  exact ⟨rfl, rfl⟩

end

/-- Settles O40: the rows by the state of the lane and by its lock. -/
theorem lanesSleepAndSeeDouse : Obligations.LanesSleepAndSeeDouse := by
  unfold Obligations.LanesSleepAndSeeDouse
  refine ⟨fun s t n => ?lane, fun s t n index level epoch node => ?douse⟩
  case lane =>
    intro d l x next blocks
    refine ⟨fun low high up quiet none_ due => ?sleeps, fun asleep fresh => ?wakes, fun asleep waking => ⟨?wakesAgain, fun due => ?timeout,
      d.laneState_wakeUp n⟩, fun locked => ⟨fun other => ?header, fun verifies => ?headerVerify, fun other => ?unknown,
      fun exchange => ?unknownExchange, ?check⟩, fun unlocked why named => ?unlocked, fun bits loop prbs => ?prbs⟩
    case sleeps =>
      rw [exec_laneIdleTimeout]
      refine event_dev (if_pos ?_)
      simp only [Bool.and_eq_true, decide_eq_true_eq, List.isEmpty_iff]
      exact ⟨⟨⟨⟨⟨low, high⟩, up⟩, quiet⟩, none_⟩, due⟩
    case wakes =>
      rw [exec_wake]
      exact event_dev ((if_pos (beq_iff_eq.mpr asleep)).trans (if_neg (Bool.eq_false_iff.mp fresh)))
    case wakesAgain =>
      rw [exec_wake]
      exact event_dev ((if_pos (beq_iff_eq.mpr asleep)).trans (if_pos waking))
    case timeout =>
      rw [exec_laneWakeTimeout]
      exact event_dev (if_pos (Bool.and_eq_true_iff.mpr ⟨Bool.and_eq_true_iff.mpr ⟨beq_iff_eq.mpr asleep, waking⟩, due⟩))
    case header =>
      rw [exec_invalidBlock]
      refine event_dev ((if_pos locked).trans (Dev.verifyAgain_other ?_))
      rw [Dev.laneState_bump _ n _ (.inl rfl)]
      exact other
    case headerVerify =>
      rw [exec_invalidBlock]
      refine event_dev ((if_pos locked).trans ((Dev.verifyAgain_verifying ?_).trans ?_))
      · rw [Dev.laneState_bump _ n _ (.inl rfl)]
        exact verifies
      · rw [Dev.lane_bump, Dev.up_bump]
    case unknown =>
      rw [exec_invalidBlock]
      refine event_dev ((if_pos locked).trans (if_neg ?_))
      rw [beq_iff_eq, Dev.laneState_bump _ n _ (.inr rfl)]
      exact other
    case unknownExchange =>
      rw [exec_invalidBlock]
      refine event_dev ((if_pos locked).trans ((if_pos ?_).trans ?_))
      · rw [beq_iff_eq, Dev.laneState_bump _ n _ (.inr rfl)]
        exact exchange
      · rw [Dev.lane_bump]
    case check =>
      rw [exec_invalidBlock]
      exact event_dev (if_pos locked)
    case unlocked =>
      rw [exec_invalidBlock]
      rcases named with rfl | rfl | rfl <;> exact event_dev (if_neg (Bool.eq_false_iff.mp unlocked))
    case prbs =>
      rw [exec_invalidBlock]
      exact event_dev (if_pos (Bool.and_eq_true_iff.mpr ⟨beq_iff_eq.mpr loop, beq_iff_eq.mpr prbs⟩))
  case douse =>
    intro d l seen next
    refine ⟨fun unlocked => ?unlocked, fun locked bad => ?bad, fun locked placed known => ?good⟩
    case unlocked =>
      rw [exec_douse]
      exact event_dev (if_pos (by rw [Bool.not_eq_true']; exact unlocked))
    case bad =>
      rw [exec_douse]
      refine event_dev ((if_neg (by rw [Bool.not_eq_true']; exact ne_false_of_eq_true locked)).trans (if_pos ?_))
      simpa using bad
    case good =>
      have acts : exec (.douse t n index level epoch node) s = next (d.douseSeen l level.toNat) := by
        rw [exec_douse]
        refine event_dev ((if_neg (by rw [Bool.not_eq_true']; exact ne_false_of_eq_true locked)).trans (if_neg ?_))
        simp only [Bool.or_eq_true, Bool.and_eq_true, decide_eq_true_eq]
        omega
      rw [acts]
      refine ⟨fun cell => congrArg next (if_pos cell), fun down => congrArg next ?down, fun up fresh => ⟨_, rfl, ?parent⟩⟩
      case down => exact (if_neg (by omega)).trans (if_neg (by simp only [laneU]; omega))
      case parent =>
        have parent : d.douseSeen l level.toNat = seen.parentDouse level.toNat :=
          (if_neg (by omega)).trans (if_pos up)
        rw [parent]
        exact Dev.parentDouse_raises ((d.causeActive_wr _ _ _ _).trans fresh)

end Sys2Proof.Machine
end

section
/-!
PROOFS. Frames that are passed on, MANAGE messages that are joined, the exchanges of time, telemetry and events of other nodes (R16, R175,
R205, R206, R418, R469).
-/
namespace Sys2Proof.Machine

section
variable (d : Dev)

/-! ## Frames passed on (R16) -/

theorem Dev.passOn_nowhere {f : RxFrame} (nowhere : d.route f.addr.toNat = .none) (ftype rank : Nat) :
    d.passOn ftype rank f = d.routeMiss := by
  rw [Dev.passOn, nowhere]

theorem Dev.passOn_lane {f : RxFrame} {k : Nat} (routed : d.route f.addr.toNat = .lane k) (ftype rank : Nat) :
    d.passOn ftype rank f = d.forward k
      { ftype := ftype, rank := rank, member := if rank = 5 then 1 else 0, addr := f.addr.toNat, payload := f.payload } := by
  rw [Dev.passOn, routed]

/-- With nothing before it, a frame waits on its lane. -/
theorem Dev.forward_linked {k : Nat} (x : TxItem) (attached : 49 ≤ k → d.rd F.grpDState (k - 49) ≠ 5) (linked : d.laneLinked k = true)
    (empty : (d.queue (transitQueue k)).fill = 0) : d.forward k x = d.queueFrame k x := by
  have here : ¬ ((decide (49 ≤ k) && decide (d.rd F.grpDState (k - 49) = 5)) = true) := by
    rw [Bool.and_eq_true, decide_eq_true_eq, decide_eq_true_eq]
    exact fun lost => attached lost.1 lost.2
  exact (if_neg here).trans (if_pos (Bool.and_eq_true_iff.mpr ⟨linked, decide_eq_true empty⟩))

theorem Dev.telemetryFrame_toward_parent {l : Nat} {f : RxFrame} (low : 49 ≤ l) (high : l ≤ 52) (least : 17 ≤ f.payload.length)
    (most : f.payload.length ≤ 256) (reserved : zeroRange f.payload 12 4 = true) (up : d.on F.laneEn 48 = true) :
    d.telemetryFrame l f = d.forward 48 { ftype := 0x0E, addr := f.addr.toNat, rank := 6, payload := f.payload } := by
  have fine : ¬ ((decide (l < 49) || decide (52 < l) || decide (f.payload.length < 17) || decide (256 < f.payload.length)
      || !zeroRange f.payload 12 4) = true) := by
    simp only [reserved, Bool.not_true, Bool.or_false, Bool.or_eq_true, decide_eq_true_eq]
    omega
  exact (if_neg fine).trans (if_pos up)

/-- An event of the partner is queued for the host. -/
theorem Dev.eventFrame_partner {l : Nat} {f : RxFrame} (partner : l = 53 ∨ l = 54) (least : 5 ≤ f.payload.length)
    (most : f.payload.length ≤ 256) (reserved : zeroRange f.payload 3 1 = true) (room : d.queueRoom 18 (entriesOf f.payload.length) = true) :
    d.eventFrame l f = ((d.putPacket 18 f.payload).raise 0xA4).raise 0xB0 := by
  have fine : ¬ ((decide (f.payload.length < 5) || decide (256 < f.payload.length) || !zeroRange f.payload 3 1) = true) := by
    simp only [reserved, Bool.not_true, Bool.or_false, Bool.or_eq_true, decide_eq_true_eq]
    omega
  have heard : (twinLaneNo l || d.forMe f) = true := by rw [twinLaneNo_of partner, Bool.true_or]
  exact (if_neg (by omega)).trans ((if_neg fine).trans ((if_pos heard).trans (if_pos room)))

/-! ## MANAGE messages joined (R175) -/

/-- A segment of a message of which none is kept. -/
theorem Dev.join_unknown {l : Nat} {req : Bool} {x : Segment}
    (unknown : (d.reasm.find? fun r => r.src == x.src && r.msgId == x.msgId && r.req == req && r.lane == l) = none) :
    d.join l req x =
      if x.seg ≠ 0 then (d.raise 0x16, none)
      else if x.segs = 1 then (d, some x.bytes)
      else ({ d with reasm := d.reasm ++ [{
        src := x.src, msgId := x.msgId, req := req, lane := l, slot := x.slot, at_ := d.now, segs := x.segs, got := 1
        bytes := x.bytes }] }, none) := by
  unfold Dev.join
  dsimp only
  rw [unknown]

/-- The only message kept is discarded once it is late (R175). -/
theorem exec_manageReassemblyTimeout_only {s : State} {t : Nat} {src id : BitVec 16} {d : Dev} {r : Reasm}
    (now : s.dev.advance t = d) (only : d.reasm = [r]) (source : r.src = src.toNat) (message : r.msgId = id.toNat) :
    exec (.manageReassemblyTimeout t src id) s = .next { s with
      dev := if r.at_ + d.rd F.frmReasmTo * ticksMs ≤ d.now then { d with reasm := [] }.raise 0x16 else d } := by
  rw [exec_manageReassemblyTimeout]
  refine event_at now ?_
  rw [only, List.filter_cons, source, message]
  by_cases late : r.at_ + d.rd F.frmReasmTo * ticksMs ≤ d.now
  · simp [late, Dev.discardMessage, only]
  · simp [late]

/-! ## The exchanges of time (R205, R206) -/

@[simp] theorem Dev.laneTime_setLaneTime (l : Nat) (x : LaneTime) : (d.setLaneTime l x).laneTime l = x :=
  (tget_tset _ _ _ _ _).trans (if_pos rfl)

/-- The block once a TIME_SYNC has been noted. -/
def Dev.syncNoted (d : Dev) (l id : Nat) : Dev :=
  let x := d.laneTime l
  let number := if x.lastId = some id then x.answered else x.answered + 1
  let noted := d.setLaneTime l { x with answered := min 17 number, lastId := some id }
  { noted with clock := { d.clock with syncSeen := ((l * 65536 + id) :: d.clock.syncSeen).take 16 } }

theorem Dev.syncNoted_answered (l id : Nat) :
    ((d.laneTime l).lastId = some id → (d.laneTime l).answered ≤ 17 →
      ((d.syncNoted l id).laneTime l).answered = (d.laneTime l).answered)
    ∧ ((d.laneTime l).lastId ≠ some id → ((d.syncNoted l id).laneTime l).answered = min 17 ((d.laneTime l).answered + 1)) := by
  have noted : ((d.syncNoted l id).laneTime l).answered
      = min 17 (if (d.laneTime l).lastId = some id then (d.laneTime l).answered else (d.laneTime l).answered + 1) :=
    congrArg LaneTime.answered (d.laneTime_setLaneTime l _)
  rw [noted]
  refine ⟨fun again few => ?_, fun new => ?_⟩
  · rw [if_pos again]
    exact Nat.min_eq_right few
  · rw [if_neg new]

/-- A TIME_SYNC that is no sample of the source is answered, and nothing more. -/
theorem Dev.timeSync_answers {l : Nat} {f : RxFrame} (listed : l = 48 ∨ l = 53 ∨ l = 54) (whole : f.payload.length = 16)
    (reserved : zeroRange f.payload 10 6 = true) (other : d.isSource l = false) :
    d.timeSync l f = (d.syncNoted l (leAt f.payload 8 2)).queueFrame l
      (farItem l 0x07 3 (le 8 d.now ++ zeros 8 ++ le 2 (leAt f.payload 8 2) ++ zeros 6)) := by
  have fine : ¬ ((decide (l ≠ 48) && decide (l ≠ 53) && decide (l ≠ 54) || decide (f.payload.length ≠ 16)
      || !zeroRange f.payload 10 6) = true) := by
    simp only [whole, reserved, Bool.not_true, Bool.or_false, Bool.and_eq_true, decide_eq_true_eq, ne_eq, not_true, decide_false]
    omega
  refine (if_neg fine).trans (if_neg ?_)
  rw [Bool.and_eq_true]
  exact fun sample => Bool.false_ne_true (other.symm.trans sample.2)

/-- The first delay of a lane (R206). -/
def Dev.delaySample (d : Dev) (l : Nat) (p : Bytes) : Int :=
  Int.tdiv (((d.now : Int) - (d.laneTime l).t1) - ((leAt p 8 8 : Int) - leAt p 0 8)) 2

/-- The block once the delays of a lane have been taken, with an offset to the far end. -/
def Dev.delaysTaken (d : Dev) (l : Nat) (ds : List Int) (ofs : Nat) : Dev :=
  ((d.setLaneTime l { d.laneTime l with delays := ds, pending := false, done := true }).wr F.timeLaneDelay
    (u32 (Int.tdiv ds.sum ds.length)) l).wr F.timeLaneOfs ofs l

theorem Dev.timeResp_first {l : Nat} {f : RxFrame} (listed : l ≠ 48) (whole : f.payload.length = 24)
    (reserved : zeroRange f.payload 18 6 = true) (pending : (d.laneTime l).pending = true) (clean : (d.laneTime l).clean = true)
    (same : leAt f.payload 16 2 = (d.laneTime l).syncId) (near : leAt f.payload 8 8 ≤ leAt f.payload 0 8 + 100000)
    (first : (d.laneTime l).delays = []) : ∃ ofs, d.timeResp l f = d.delaysTaken l [d.delaySample l f.payload] ofs := by
  have fine : ¬ ((decide (l = 48) || decide (f.payload.length ≠ 24) || !zeroRange f.payload 18 6) = true) := by
    simp [listed, whole, reserved]
  have valid : ((d.laneTime l).pending && leAt f.payload 16 2 == (d.laneTime l).syncId && (d.laneTime l).clean
      && decide ((leAt f.payload 8 8 : Int) - leAt f.payload 0 8 ≤ 100000)
      && (decide ((d.laneTime l).delays.length < 16)
        || decide ((d.delaySample l f.payload - d.rd F.timeLaneDelay l).natAbs ≤ 20))) = true := by
    have short : (leAt f.payload 8 8 : Int) - leAt f.payload 0 8 ≤ 100000 := by omega
    simp [pending, clean, same, first, short]
  have kept : ((d.delaySample l f.payload) :: (d.laneTime l).delays).take 16 = [d.delaySample l f.payload] := by simp [first]
  rw [← kept]
  exact ⟨_, (if_neg fine).trans (if_pos valid)⟩

/-- What the first delay leaves of a lane (R206). -/
theorem Dev.timeResp_first_leaves {l : Nat} {f : RxFrame} (listed : l ≠ 48) (whole : f.payload.length = 24)
    (reserved : zeroRange f.payload 18 6 = true) (pending : (d.laneTime l).pending = true) (clean : (d.laneTime l).clean = true)
    (same : leAt f.payload 16 2 = (d.laneTime l).syncId) (near : leAt f.payload 8 8 ≤ leAt f.payload 0 8 + 100000)
    (first : (d.laneTime l).delays = []) :
    let e := d.timeResp l f
    (e.laneTime l).delays = [d.delaySample l f.payload] ∧ e.rd F.timeLaneDelay l = u32 (d.delaySample l f.payload)
      ∧ (e.laneTime l).pending = false ∧ (e.laneTime l).done = true := by
  obtain ⟨ofs, taken⟩ := d.timeResp_first listed whole reserved pending clean same near first
  have other : F.timeLaneOfs.key l ≠ F.timeLaneDelay.key l := by
    simp only [Fld.key, Fld.soAt, Fld.wordAt, wordKey, F.timeLaneOfs, F.timeLaneDelay, if_true]
    omega
  have mean : Int.tdiv [d.delaySample l f.payload].sum [d.delaySample l f.payload].length = d.delaySample l f.payload := by simp
  rw [taken, Dev.delaysTaken, mean]
  dsimp only
  rw [Dev.rd_wr_key _ _ _ _ _ _ other, Dev.rd_wr_fits _ _ (by decide) (u32_lt _)]
  simp only [Dev.laneTime, Dev.wr_frame, Dev.setLaneTime, tget_tset, if_true, and_self]

end

/-- Settles O45: routes, segments, exchanges and queued events, each by the conditions of its branch. -/
theorem framesAreRoutedAndTimed : Obligations.FramesAreRoutedAndTimed := by
  unfold Obligations.FramesAreRoutedAndTimed
  intro s t f d p
  refine ⟨fun ftype rank => ⟨fun nowhere => d.passOn_nowhere nowhere ftype rank, fun k routed => d.passOn_lane routed ftype rank⟩,
    fun k x attached linked empty => d.forward_linked x attached linked empty, fun l req x unknown => ?join,
    fun src id r only source message => ?timeout, fun l listed whole reserved other => ?sync,
    fun l listed whole reserved pending clean same near first => ?resp,
    fun l low high least most reserved up => d.telemetryFrame_toward_parent low high least most reserved up,
    fun l partner least most reserved room => d.eventFrame_partner partner least most reserved room⟩
  case join =>
    rw [d.join_unknown unknown]
    refine ⟨fun start only => ?_, fun start more => ?_, fun later => if_pos later⟩
    · exact (if_neg (not_not_intro start)).trans (if_pos only)
    · exact (if_neg (not_not_intro start)).trans (if_neg (by omega))
  case timeout =>
    rw [exec_manageReassemblyTimeout_only rfl only source message]
    refine ⟨fun late => ?_, fun inTime => ?_⟩
    · rw [if_pos late]
    · rw [if_neg (Nat.not_le.mpr inTime)]
  case sync =>
    obtain ⟨again, new⟩ := d.syncNoted_answered l (leAt p 8 2)
    exact ⟨_, d.timeSync_answers listed whole reserved other, congrArg LaneTime.lastId (d.laneTime_setLaneTime l _), rfl, again, new⟩
  case resp =>
    exact d.timeResp_first_leaves listed whole reserved pending clean same near first

end Sys2Proof.Machine
end

section
/-!
PROOFS. Scrubbing, self-refresh and the refill of a queue's head (R40, R449, R457, R458, R460, R461, R463).
-/
namespace Sys2Proof.Machine

/-! ## Scrub reads (R449, R458, R460, R461) -/

section
variable {d : Dev}

theorem Dev.sramScrub_paused (paused : d.on F.memScrubPaused = true) (bank word : Nat) (o : EccOutcome) (overwritten passDone : Bool) :
    d.sramScrub bank word o overwritten passDone = d := if_pos paused

section
variable (runs : d.on F.memScrubPaused = false)
include runs

theorem Dev.sramScrub_clean (bank word : Nat) (overwritten passDone : Bool) : d.sramScrub bank word .clean overwritten passDone =
    if passDone then (d.wr F.memSpassAt (d.now / 2 ^ 32)).raise 0xAE else d :=
  if_neg (Bool.eq_false_iff.mp runs)

theorem Dev.sramScrub_corrected (bank word bits : Nat) (overwritten : Bool) :
    d.sramScrub bank word (.corrected bits) overwritten false =
      if overwritten then (d.sramCorrected bank).bump F.memScrubCancelled else d.sramCorrected bank :=
  if_neg (Bool.eq_false_iff.mp runs)

/-- A word found beyond correction is marked (R449). -/
theorem Dev.sramScrub_poisons {bank word : Nat} (new : d.mem.sramPoison.contains (bank, word) = false) :
    (d.sramScrub bank word .uncorrectable false false).mem.sramPoison.contains (bank, word) = true := by
  have marked : d.sramScrub bank word .uncorrectable false false =
      { d.sramUncorrectable bank with
        mem := { (d.sramUncorrectable bank).mem with sramPoison := (bank, word) :: (d.sramUncorrectable bank).mem.sramPoison } } :=
    (if_neg (Bool.eq_false_iff.mp runs)).trans (if_neg (Bool.eq_false_iff.mp new))
  rw [marked]
  simp

end

/-- A scrubber that woke the device is done once its lag is 0 (R461). -/
def Dev.scrubSettled (d : Dev) : Dev := { d with mem := { d.mem with draining := d.mem.draining && decide (0 < d.scrubLag) } }

theorem Dev.dramScrub_rests (rests : d.on F.memScrubPaused = true ∨ d.hasDram = false ∨ d.on F.memSelfRef = true) (page : Nat)
    (o : EccOutcome) (overwritten passDone : Bool) : d.dramScrub page o overwritten passDone = d := by
  refine if_pos ?_
  rcases rests with h | h | h <;> simp [h]

section
variable (runs : d.on F.memScrubPaused = false) (hasDram : d.hasDram = true) (awake : d.on F.memSelfRef = false) {page : Nat}
include runs hasDram awake

theorem Dev.dramScrub_runs (o : EccOutcome) (overwritten passDone : Bool) : d.dramScrub page o overwritten passDone =
    Dev.scrubSettled (match d.page page, o with
      | none, _ => if passDone then d.scrubCount true else d
      | some _, .clean => d.scrubCount passDone
      | some _, .corrected bits =>
        if overwritten then ((d.scrubCount passDone).dramCorrected bits).bump F.memScrubCancelled
        else (d.scrubCount passDone).dramCorrected bits
      | some x, .uncorrectable =>
        if overwritten then (d.scrubCount passDone).bump F.memScrubCancelled else (d.scrubCount passDone).dramPoison page x.tag) := by
  have active : ¬ ((d.on F.memScrubPaused || !d.hasDram || d.on F.memSelfRef) = true) := by simp [runs, hasDram, awake]
  exact if_neg active

theorem Dev.dramScrub_unwritten (unwritten : d.page page = none) (o : EccOutcome) (overwritten : Bool) :
    d.dramScrub page o overwritten false = d.scrubSettled := by
  rw [Dev.dramScrub_runs runs hasDram awake, unwritten]
  rfl

section
variable {x : Page} (written : d.page page = some x)
include written

theorem Dev.dramScrub_clean (overwritten passDone : Bool) :
    d.dramScrub page .clean overwritten passDone = (d.scrubCount passDone).scrubSettled := by
  rw [Dev.dramScrub_runs runs hasDram awake, written]

theorem Dev.dramScrub_corrected (bits : Nat) :
    d.dramScrub page (.corrected bits) false false = ((d.scrubCount false).dramCorrected bits).scrubSettled := by
  rw [Dev.dramScrub_runs runs hasDram awake, written]
  rfl

theorem Dev.dramScrub_uncorrectable : d.dramScrub page .uncorrectable false false =
    ((d.scrubCount false).dramPoison page x.tag).scrubSettled := by
  rw [Dev.dramScrub_runs runs hasDram awake, written]
  rfl

theorem Dev.dramScrub_overwritten : d.dramScrub page .uncorrectable true false =
    ((d.scrubCount false).bump F.memScrubCancelled).scrubSettled := by
  rw [Dev.dramScrub_runs runs hasDram awake, written]
  rfl

end
end

/-! ## The refill of a queue's head (R463) -/

/-- With nothing spilled, entries from the tail join the head. -/
theorem Queue.settle_head (q : Queue) : ∃ r, q.settle.head = q.head ++ r := by
  unfold Queue.settle
  split
  · exact ⟨_, rfl⟩
  · exact ⟨[], (List.append_nil _).symm⟩

theorem Dev.refill_full {q : Nat} (full : (d.queue q).head ≠ []) (o : EccOutcome) : d.refill q o = d :=
  if_pos (by simp [full])

/-- The queue whose head takes the next 16 entries of its spill on die. -/
def Queue.refilledSram (q : Queue) : Queue := { q with head := q.sram.take 16, sram := q.sram.drop 16 }

/-- The queue whose head takes the first page of its Cooler. -/
def Queue.refilledCooler (q : Queue) (es : List QEnt) (rest : List (Nat × List QEnt)) (chunks : List Nat) : Queue :=
  { q with head := es, cooler := rest, chunks := chunks }

theorem Queue.entries_refilledSram {q : Queue} (empty : q.head = []) : q.refilledSram.entries = q.entries := by
  simp [Queue.entries, Queue.refilledSram, empty]

theorem Queue.entries_refilledCooler {q : Queue} {p : Nat} {es : List QEnt} {rest : List (Nat × List QEnt)} (empty : q.head = [])
    (onDie : q.sram = []) (spilled : q.cooler = (p, es) :: rest) (chunks : List Nat) :
    (q.refilledCooler es rest chunks).entries = q.entries := by
  simp [Queue.entries, Queue.refilledCooler, empty, onDie, spilled]

/-- A queue moved into place and settled has the entries it had, and more in its head. -/
theorem Dev.queue_settled (d : Dev) (n : Nat) (y : Queue) : ∃ r, ((d.setQueue n y.settle).queue n).head = y.head ++ r
    ∧ ((d.setQueue n y.settle).queue n).entries = y.entries := by
  rw [show (d.setQueue n y.settle).queue n = y.settle from (tget_tset _ _ _ _ _).trans (if_pos rfl), Queue.settle_entries]
  obtain ⟨r, joined⟩ := y.settle_head
  exact ⟨r, joined, rfl⟩

section
variable {q : Nat} (empty : (d.queue q).head = [])
include empty

theorem Dev.refill_sram (onDie : (d.queue q).sram ≠ []) : d.refill q .clean = d.setQueue q (d.queue q).refilledSram.settle := by
  unfold Dev.refill
  dsimp only
  rw [if_neg (by simp [empty, onDie]), if_neg (by simp [onDie])]
  rfl

theorem Dev.refill_cooler {p : Nat} {es : List QEnt} {rest : List (Nat × List QEnt)} (noneOnDie : (d.queue q).sram = [])
    (spilled : (d.queue q).cooler = (p, es) :: rest) :
    ∃ chunks, d.refill q .clean = d.dramUsed.setQueue q ((d.queue q).refilledCooler es rest chunks).settle := by
  unfold Dev.refill
  dsimp only
  rw [if_neg (by simp [empty, spilled]), if_pos (by simp [noneOnDie]), spilled]
  exact ⟨_, rfl⟩

end
end

/-- Settles O50: each read by its outcome, the refill by where the spill stands. -/
theorem memoryIsScrubbedAndRefilled : Obligations.MemoryIsScrubbedAndRefilled := by
  unfold Obligations.MemoryIsScrubbedAndRefilled
  intro s t d next
  have sram (bank : Fin 96) (word : Fin 16384) (o : EccOutcome) (w p : Bool) {e : Dev} (acts : d.sramScrub bank word o w p = e) :
      exec (.sramScrubStep t bank word o w p) s = next e := by
    rw [exec_sramScrubStep]
    exact event_dev acts
  have dram (page : Fin 8388608) (o : EccOutcome) (w p : Bool) {e : Dev} (acts : d.dramScrub page o w p = e) :
      exec (.dramScrubStep t page o w p) s = next e := by
    rw [exec_dramScrubStep]
    exact event_dev acts
  have head (n : Fin 64) (o : EccOutcome) {e : Dev} (acts : d.refill n o = e) : exec (.queueHeadRefill t n o) s = next e := by
    rw [exec_queueHeadRefill]
    exact event_dev acts
  refine ⟨fun bank word => ?sram, ?dram, fun page o w p rests => ?idle, fun asleep => ?wake, fun hasDram calm => ?rest, ?refilled⟩
  case sram =>
    refine ⟨fun paused o w p => sram bank word o w p (Dev.sramScrub_paused paused _ _ _ _ _), fun runs => ⟨?_, ?_, ?_, ?_, ?_⟩⟩
    · exact sram bank word _ _ _ ((Dev.sramScrub_clean runs _ _ _ _).trans (if_neg Bool.false_ne_true))
    · exact fun bits => sram bank word _ _ _ ((Dev.sramScrub_corrected runs _ _ bits _).trans (if_neg Bool.false_ne_true))
    · exact fun bits => sram bank word _ _ _ ((Dev.sramScrub_corrected runs _ _ bits _).trans (if_pos rfl))
    · exact fun new => ⟨_, sram bank word _ _ _ rfl, Dev.sramScrub_poisons runs new⟩
    · exact sram bank word _ _ _ ((Dev.sramScrub_clean runs _ _ _ _).trans (if_pos rfl))
  case idle => exact dram page o w p (Dev.dramScrub_rests rests _ _ _ _)
  case dram =>
    intro page settled read runs hasDram awake
    refine ⟨fun unwritten o w => dram page o w _ (Dev.dramScrub_unwritten runs hasDram awake unwritten o w), fun x written => ?_⟩
    exact ⟨fun w => dram page _ _ _ (Dev.dramScrub_clean runs hasDram awake written w false),
      fun bits => dram page _ _ _ (Dev.dramScrub_corrected runs hasDram awake written bits),
      dram page _ _ _ (Dev.dramScrub_uncorrectable runs hasDram awake written),
      dram page _ _ _ (Dev.dramScrub_overwritten runs hasDram awake written),
      fun w => dram page _ _ _ (Dev.dramScrub_clean runs hasDram awake written w true)⟩
  case wake =>
    rw [exec_dramScrubWake]
    refine ⟨fun due => event_dev (if_pos ?_), fun early => event_dev (if_neg ?_)⟩
    · exact Bool.and_eq_true_iff.mpr ⟨asleep, decide_eq_true due⟩
    · rw [Bool.and_eq_true, decide_eq_true_eq]
      exact fun due => Nat.not_le.mpr early due.2
  case rest =>
    rw [exec_dramSelfRefresh]
    refine ⟨fun due => event_dev (if_pos ?_), fun early => event_dev (if_neg ?_)⟩
    · exact Bool.and_eq_true_iff.mpr ⟨Bool.and_eq_true_iff.mpr ⟨hasDram, by rw [Bool.not_eq_true']; exact calm⟩, due⟩
    · rw [Bool.and_eq_true]
      exact fun due => Bool.false_ne_true (early.symm.trans due.2)
  case refilled =>
    intro n q
    refine ⟨fun full o => head n o (Dev.refill_full full o), fun empty onDie => ?_, fun p es rest empty noneOnDie spilled => ?_⟩
    · obtain ⟨r, joined, same⟩ := d.queue_settled n (d.queue n).refilledSram
      exact ⟨_, r, head n _ (Dev.refill_sram empty onDie), joined, same.trans (Queue.entries_refilledSram empty)⟩
    · obtain ⟨chunks, refilled⟩ := Dev.refill_cooler empty noneOnDie spilled
      obtain ⟨r, joined, same⟩ := d.dramUsed.queue_settled n ((d.queue n).refilledCooler es rest chunks)
      exact ⟨_, r, head n _ refilled, joined, same.trans (Queue.entries_refilledCooler empty noneOnDie spilled chunks)⟩

end Sys2Proof.Machine
end
